-- ==== Sys2Proof/Word.lean ====
section
/-!
DEFINITION. The word types of the engine and the finite map in one canonical form that every sparse piece of
state uses (00_scope.md R18, R21).
-/
namespace Sys2Proof

/-- A byte of a structure, a frame or a memory. -/
abbrev Byte := BitVec 8

/-- A 16-bit value. -/
abbrev Half := BitVec 16

/-- A register of the register port, a scalar register or a vector lane (R18, R165). -/
abbrev Word := BitVec 32

/-- A 64-bit value: a register pair, a virtual address in a structure, a counter (R19). -/
abbrev DWord := BitVec 64

/-- A sparse map by natural key in one canonical form: keys strictly rising, and no entry equal to what an
unlisted key reads as. -/
abbrev Tbl (α : Type) := List (Nat × α)

end Sys2Proof
end

