-- ==== Sys2Proof/Types.lean ====
section
/-!
DEFINITION. Types of command operands that are no plain words: who asks for a translation, what the memory system
answered, what an outside measurement found.
-/
namespace Sys2Proof

/-- A physical core, 0 to 67 (01_engine_overview.md R35). -/
abbrev CoreIx := Fin 68

/-- What a read of host memory that the Caller makes returned (08 R627, 09 R395). -/
inductive MemAnswer where
  | data (bytes : List Byte)
  /-- A beat carried RD_POISON. -/
  | poison
  /-- The answer was DATA_ERR. -/
  | dataErr
  /-- No target exists at the address (ADDR_ERR). -/
  | addrErr
deriving DecidableEq, Repr

/-- Who asks for a translation of its next access (09 R353, R367). Core DMA items, engine DMA channels and gather jobs
know their own next access; the Caller's accesses name theirs. -/
inductive Asker where
  /-- Entry `id` of the core DMA queue of a physical core. -/
  | coreDma (p : CoreIx) (id : Nat)
  | engineDma (channel : Fin 16)
  | gather (gu : Fin 4) (part : Fin 16)
  /-- The read of the `n`-th packet of the command that a front end takes next (08 R312). -/
  | packet (queue : Fin 1024) (n : Fin 3)
  /-- Another read that the Caller makes for a command of a queue. -/
  | caller (queue : Fin 1024) (va : BitVec 48) (bytes : Nat)
  /-- The code load for a logical core of a partition, and the Cellar restore of one. -/
  | code (part : Fin 16) (logical : Fin 64)
  | cellar (part : Fin 16) (logical : Fin 64)
  /-- A write of the engine's own that is under way (`OwnJob`): a fence value, a record, a spill, a ring of the host. -/
  | own (id : Nat)
  /-- A read of a transmit ring (0 to 7) or the receive ring (8) of a link port (11 R440), and one of the mirror, when
  receiving or sending (11 R476). -/
  | link (port : Fin 2) (ring : Fin 9) (va : BitVec 48) (bytes : Nat)
  | mirror (receive : Bool) (va : BitVec 48) (bytes : Nat)
deriving DecidableEq, Repr

/-- Whose an outstanding memory request is. -/
inductive Requester where
  | walk (id : Nat)
  | coreDma (p id off : Nat)
  | engineDma (item off : Nat)
  /-- Byte `off` of segment `seg` of the job of core DMA entry `dma` of core `p`. -/
  | gather (gu p dma seg off : Nat)
  /-- A read of a unit of Table "Fault record" whose data comes with its own command. -/
  | other (unit_ index : Nat)
  /-- Byte `off` of a transfer of the engine's own (`OwnJob`). -/
  | own (id off : Nat)
deriving DecidableEq, Repr

/-- How the beats of an LPI packet end (07 R276, R280): LAST at the end; a beat with FIRST = 1 instead; no LAST at the
length of the packet; or beats with FIRST = 0 outside any packet. LAST, or a beat with FIRST = 1, beyond the length of the
packet is LAST absent at that length too. -/
inductive LpiEnd where
  | last
  | cut
  | overrun
  | stray
deriving DecidableEq, Repr

/-- A finding of the self-test of an engine reset (13 R537): a failing array row or column, a failing Pantry or Instruction
Store word of a core, or a failing Loft word of a slice. -/
inductive Finding where
  | row (p : CoreIx) (array : Fin 4) (n : Fin 66)
  | column (p : CoreIx) (array : Fin 4) (n : Fin 33)
  | word (p : CoreIx)
  | loft (slice : Fin 16)
deriving DecidableEq, Repr

/-- Where a bit error appears (12 R487): a word of a Pantry or of the Loft, a bundle of an Instruction Store, a 32-byte
Coffer word; `more` when a further bit of the word fails. -/
inductive BitTarget where
  | pantry (p : CoreIx) (word : Fin 131072) (more : Bool)
  | loft (word : Fin 2097152) (more : Bool)
  | code (p : CoreIx) (bundle : Fin 16384)
  | coffer (word : Fin 32768) (more : Bool)
deriving DecidableEq, Repr

/-- A memory that test access reaches (16 R622): a word of a Pantry or of the Loft, a bundle of an Instruction Store. -/
inductive TestMemory where
  | pantry (p : CoreIx) (word : Fin 131072)
  | loft (word : Fin 2097152)
  | code (p : CoreIx) (bundle : Fin 16384)
deriving DecidableEq, Repr

/-- An access to a test instrument (16 R622): the IJTAG status; the Dealer reader, by a register of the Dealer region or by
the SEQ of a Ledger entry; sensor `n`; an entry of the error log by its SEQ; word `n` of the crash dump; entry `n` of the
fuses' repair map, then of the repair map; the memories; an injection point. -/
inductive TestAccess where
  | status
  | dealer (offset : Fin 65536)
  | ledger (seq : Word)
  | sensor (n : Nat)
  | errorLog (seq : Word)
  | dump (n : Fin 16384)
  | repair (n : Nat)
  | read (m : TestMemory)
  | write (m : TestMemory) (data : BitVec 256)
  | inject (point : Nat)
deriving DecidableEq, Repr

/-- An update of the test wrapper (16 R620 to R622): of the wrapper instruction register, of the boundary register, of the
segment insertion bit of an instrument (the rows of Table "Test instruments", from 0), or of an instrument. -/
inductive TestUpdate where
  | instruction (code : BitVec 4)
  | boundary (cells : List Bool)
  | segment (instrument : Fin 7) (is_open : Bool)
  | access (a : TestAccess)
deriving DecidableEq, Repr

end Sys2Proof
end

