-- ==== Sys2Proof/Syntax.lean ====
section
/-!
DEFINITION. The commands of the engine: one constructor per row of the command table (opcode_table.json), with the
row's operands. Each names the rule that gives its effect.
-/
namespace Sys2Proof

/-- A command. -/
inductive Instr where
  /-- `NOP`. Slot syllable with opcode 0x00 that does nothing (R170). -/
  | nop (p : CoreIx) (slot : Fin 4) (illegal : Bool)
  /-- `ADD`. Scalar add: Sd gets Sa + Sb (R175). -/
  | add (p : CoreIx) (d a c : Fin 32)
  /-- `SUB`. Scalar subtract: Sd gets Sa - Sb (R175). -/
  | sub (p : CoreIx) (d a c : Fin 32)
  /-- `AND`. Scalar bitwise AND (R175). -/
  | and (p : CoreIx) (d a c : Fin 32)
  /-- `OR`. Scalar bitwise OR (R175). -/
  | or (p : CoreIx) (d a c : Fin 32)
  /-- `XOR`. Scalar bitwise XOR (R175). -/
  | xor (p : CoreIx) (d a c : Fin 32)
  /-- `SHL`. Scalar left shift by Sb[4:0] (R175). -/
  | shl (p : CoreIx) (d a c : Fin 32)
  /-- `SHR`. Scalar logical right shift by Sb[4:0] (R175). -/
  | shr (p : CoreIx) (d a c : Fin 32)
  /-- `SRA`. Scalar arithmetic right shift by Sb[4:0] (R175). -/
  | sra (p : CoreIx) (d a c : Fin 32)
  /-- `MUL`. Scalar multiply keeping the low 32 bits, latency 3 (R175). -/
  | mul (p : CoreIx) (d a c : Fin 32)
  /-- `MIN`. Signed scalar minimum (R175). -/
  | min (p : CoreIx) (d a c : Fin 32)
  /-- `MAX`. Signed scalar maximum (R175). -/
  | max (p : CoreIx) (d a c : Fin 32)
  /-- `MINU`. Unsigned scalar minimum (R175). -/
  | minu (p : CoreIx) (d a c : Fin 32)
  /-- `MAXU`. Unsigned scalar maximum (R175). -/
  | maxu (p : CoreIx) (d a c : Fin 32)
  /-- `ADDI`. Scalar add of a sign-extended 14-bit immediate (R175). -/
  | addi (p : CoreIx) (d a : Fin 32) (imm : BitVec 14)
  /-- `ANDI`. Scalar AND with a sign-extended immediate (R175). -/
  | andi (p : CoreIx) (d a : Fin 32) (imm : BitVec 14)
  /-- `ORI`. Scalar OR with a sign-extended immediate (R175). -/
  | ori (p : CoreIx) (d a : Fin 32) (imm : BitVec 14)
  /-- `XORI`. Scalar XOR with a sign-extended immediate (R175). -/
  | xori (p : CoreIx) (d a : Fin 32) (imm : BitVec 14)
  /-- `SHLI`. Scalar left shift by an immediate (R175). -/
  | shli (p : CoreIx) (d a : Fin 32) (imm : BitVec 14)
  /-- `SHRI`. Scalar logical right shift by an immediate (R175). -/
  | shri (p : CoreIx) (d a : Fin 32) (imm : BitVec 14)
  /-- `SRAI`. Scalar arithmetic right shift by an immediate (R175). -/
  | srai (p : CoreIx) (d a : Fin 32) (imm : BitVec 14)
  /-- `LI`. Load a sign-extended 16-bit immediate into Sd (R175). -/
  | li (p : CoreIx) (d : Fin 32) (imm : BitVec 16)
  /-- `LUI`. Load the upper 16 bits of Sd, keeping the low 16 bits (R175). -/
  | lui (p : CoreIx) (d : Fin 32) (imm : BitVec 16)
  /-- `CMP`. Set every bit of a predicate to the result of a scalar comparison (R175). -/
  | cmp (p : CoreIx) (q : Fin 8) (a c : Fin 32) (code : Fin 8)
  /-- `PAND`. Predicate AND (R175). -/
  | pand (p : CoreIx) (q x y : Fin 8)
  /-- `POR`. Predicate OR (R175). -/
  | por (p : CoreIx) (q x y : Fin 8)
  /-- `PXOR`. Predicate XOR (R175). -/
  | pxor (p : CoreIx) (q x y : Fin 8)
  /-- `PNOT`. Predicate NOT (R175). -/
  | pnot (p : CoreIx) (q x : Fin 8)
  /-- `BR`. Conditional branch on a predicate test; a taken branch costs a cycle and may pop loop entries (R176). -/
  | br (p : CoreIx) (q : Fin 8) (test : Fin 4) (off : BitVec 14)
  /-- `CALLB`. Push the return address and branch (R176). -/
  | callb (p : CoreIx) (off : BitVec 14)
  /-- `RETB`. Pop the return stack and branch (R176). -/
  | retb (p : CoreIx)
  /-- `LOOP`. Open a zero-overhead loop with the count in Sa (R177). -/
  | loop (p : CoreIx) (a : Fin 32) (last : BitVec 14)
  /-- `LOOPI`. Open a zero-overhead loop with an immediate count (R177). -/
  | loopi (p : CoreIx) (count : BitVec 10) (last : BitVec 14)
  /-- `WAIT`. Wait until an arrival counter reaches Sa, then issue at wheel position 0 (R180). -/
  | wait (p : CoreIx) (c a : Fin 32)
  /-- `WAITI`. Wait until an arrival counter reaches an immediate, then issue at wheel position 0 (R180). -/
  | waiti (p : CoreIx) (c : Fin 32) (imm : BitVec 14)
  /-- `WAITG`. Wait on a Line Gate of a stream, parity and position (R181). -/
  | waitg (p : CoreIx) (a c : Fin 32)
  /-- `CUT`. Arrive at a Cut barrier and wait for its release (R182). -/
  | cut (p : CoreIx) (barrier : Fin 16) (x : Bool)
  /-- `CUT_RELEASE`. Engine releases a barrier at wheel position 0 at least 4 CCLK after the last arrival (R182). -/
  | cutRelease (part barrier : Fin 16)
  /-- `TRICK`. Increment the core's TRICKS counter as one unit of progress (R184). -/
  | trick (p : CoreIx)
  /-- `HALT`. End the core's part of the kernel once every earlier operation has finished (R185). -/
  | halt (p : CoreIx)
  /-- `CNTSET`. Set an arrival counter to Sa plus that cycle's arrivals (R178). -/
  | cntset (p : CoreIx) (c a : Fin 32)
  /-- `CNTADD`. Add Sa to an arrival counter modulo 2^32 (R178). -/
  | cntadd (p : CoreIx) (c a : Fin 32)
  /-- `CNTRD`. Read an arrival counter into Sd (R175). -/
  | cntrd (p : CoreIx) (d c : Fin 32)
  /-- `RDSTAT`. Read the core's own ARITH_STATUS into Sd (R175). -/
  | rdstat (p : CoreIx) (d : Fin 32)
  /-- `RDSPEC`. Read latched DETM, ARITH_REV, the issued-cycle count or the wheel position into Sd (R175). -/
  | rdspec (p : CoreIx) (d : Fin 32) (sel : Fin 16)
  /-- `SETRS`. Set one part of the stochastic-rounding seed, step, tensor ID or index registers (R175). -/
  | setrs (p : CoreIx) (a : Fin 32) (sel : Fin 8)
  /-- `AMOV`. Move a zero-extended scalar into an address register (R186). -/
  | amov (p : CoreIx) (d : Fin 16) (a : Fin 32)
  /-- `AMOVH`. Set bits [47:32] of an address register (R186). -/
  | amovh (p : CoreIx) (d : Fin 16) (a : Fin 32)
  /-- `AADD`. Add a sign-extended scalar to an address register (R186). -/
  | aadd (p : CoreIx) (d x : Fin 16) (a : Fin 32)
  /-- `AADDI`. Add a sign-extended immediate to an address register (R186). -/
  | aaddi (p : CoreIx) (d x : Fin 16) (imm : BitVec 16)
  /-- `AMOVS`. Move the low 32 bits of an address register to a scalar (R186). -/
  | amovs (p : CoreIx) (d : Fin 32) (x : Fin 16)
  /-- `VLD`. Enqueue a 256-byte vector load through slot 3 (R188). -/
  | vld (p : CoreIx) (d : Fin 32) (x : Fin 16) (inc : Bool) (imm : BitVec 14)
  /-- `SLD`. Enqueue a 4-byte scalar load through slot 3 (R188). -/
  | sld (p : CoreIx) (d : Fin 32) (x : Fin 16) (inc : Bool) (imm : BitVec 14)
  /-- `LOAD_ACCESS`. A queued load makes its Pantry access; the data lands 7 cycles later (R188). -/
  | loadAccess (p : CoreIx)
  /-- `STORE_ACCESS`. A queued store makes its Pantry write through slot 4 (R189). -/
  | storeAccess (p : CoreIx)
  /-- `AGSET`. Set a generator field from a scalar register (R191). -/
  | agset (p : CoreIx) (f : Fin 64) (a : Fin 32)
  /-- `AGSETI`. Set a generator field from an immediate (R191). -/
  | agseti (p : CoreIx) (f : Fin 64) (imm : BitVec 18)
  /-- `AGGO`. Check the generator fields and extents, then start a walk (R192). -/
  | aggo (p : CoreIx)
  /-- `PLANE_LOAD_BEGIN`. The next Window Register plane begins loading through slot 0 (R151). -/
  | planeLoadBegin (p : CoreIx)
  /-- `PLANE_READY`. A plane becomes ready six cycles after its last access (R150). -/
  | planeReady (p : CoreIx)
  /-- `DMAQ`. Capture a core DMA descriptor and enqueue the item (R193). -/
  | dmaq (p : CoreIx) (x : Fin 16) (c : Fin 32)
  /-- `FILL`. Enqueue a fill of Pantry words with a repeated value (R194). -/
  | fill (p : CoreIx) (x : Fin 16) (a w c : Fin 32)
  /-- `COPY`. Enqueue a copy of Pantry words (R194). -/
  | copy (p : CoreIx) (d x : Fin 16) (a c : Fin 32)
  /-- `FILL_COPY_START`. A FILL or COPY starts its slot-5 accesses once every earlier queue entry has completed (R227). -/
  | fillCopyStart (p : CoreIx)
  /-- `HOPEN`. Open a core Hatch over a Pantry range and send OPEN notices (R195). -/
  | hopen (p : CoreIx) (k x : Fin 16) (a c : Fin 32)
  /-- `HCLOSE`. Wait until every accepted write has landed, then close the Hatch and increment its generation (R196). -/
  | hclose (p : CoreIx) (k : Fin 16)
  /-- `HPUT`. Send 256 bytes of a vector register to a remote Hatch (R197). -/
  | hput (p : CoreIx) (w a c : Fin 32)
  /-- `PFENCE`. Stall issue until earlier Pantry writes have been made (R190). -/
  | pfence (p : CoreIx)
  /-- `DLOAD`. Enqueue a load of the shadow Weight Deck of all four arrays (R111). -/
  | dload (p : CoreIx) (x : Fin 16) (rows : BitVec 7) (width : Fin 4) (mx : Bool)
  /-- `SWAP`. Enqueue an exchange of the active and shadow Decks (R113). -/
  | swap (p : CoreIx)
  /-- `MMA`. Enqueue n matrix steps on a tile bank (R100). -/
  | mma (p : CoreIx) (bank clear : Bool) (j0 : Fin 64) (n : BitVec 7)
  /-- `DRAIN`. Enqueue a drain of a tile bank to the Drain Queue or the Pantry (R115). -/
  | drain (p : CoreIx) (bank : Bool) (form : Fin 4) (neg : Bool) (mask : Fin 16) (toPantry : Bool) (x : Fin 16)
  /-- `SETEACC`. Enqueue a change of the grid exponent E_ACC (R199). -/
  | seteacc (p : CoreIx) (v : BitVec 8)
  /-- `SETFMT`. Enqueue a change of the weight format WFMT (R199). -/
  | setfmt (p : CoreIx) (v : BitVec 4)
  /-- `VST`. Enqueue a predicated 256-byte vector store (R189). -/
  | vst (p : CoreIx) (w : Fin 32) (x : Fin 16) (inc : Bool) (pg : Fin 8) (imm : BitVec 11)
  /-- `SST`. Enqueue a 4-byte scalar store (R189). -/
  | sst (p : CoreIx) (a : Fin 32) (x : Fin 16) (inc : Bool) (imm : BitVec 14)
  /-- `MATRIX_HANDOVER`. A DLOAD or DRAIN at the Matrix Queue head is handed to its unit once that unit has no pending operation (R107). -/
  | matrixHandover (p : CoreIx)
  /-- `SWAP_EXECUTE`. A queued SWAP executes once earlier steps have started and the preceding DLOAD has completed (R113). -/
  | swapExecute (p : CoreIx)
  /-- `DLOAD_BEGIN`. A handed-over DLOAD begins reading the Deck image (R112). -/
  | dloadBegin (p : CoreIx)
  /-- `DLOAD_COMPLETE`. The shadow Deck completes N + 5 cycles after the DLOAD begins (R112). -/
  | dloadComplete (p : CoreIx)
  /-- `MATRIX_STEP_START`. The sequencer starts a matrix step, or records a freeze cause for the cycle (R122). -/
  | matrixStepStart (p : CoreIx)
  /-- `MATRIX_STEP_WRITE`. A step's rounded products are added into all 8,192 cells in its write cycle (R100). -/
  | matrixStepWrite (p : CoreIx)
  /-- `DRAIN_ROW_READ`. The drainer reads and converts one bank row when its conditions allow (R115). -/
  | drainRowRead (p : CoreIx)
  /-- `DRAIN_ROW_DELIVER`. A drained row is delivered to the Pantry or the Drain Queue two cycles after its read (R115). -/
  | drainRowDeliver (p : CoreIx)
  /-- `VADD`. Vector add (R201). -/
  | vadd (p : CoreIx) (t : Fin 4) (d a c : Fin 32) (pg : Fin 8)
  /-- `VSUB`. Vector subtract (R201). -/
  | vsub (p : CoreIx) (t : Fin 4) (d a c : Fin 32) (pg : Fin 8)
  /-- `VMUL`. Vector multiply (R201). -/
  | vmul (p : CoreIx) (t : Fin 4) (d a c : Fin 32) (pg : Fin 8)
  /-- `VFMA`. Vector fused multiply-add into Vd (R201). -/
  | vfma (p : CoreIx) (t : Fin 4) (d a c : Fin 32) (pg : Fin 8)
  /-- `VMAX`. Vector maximum (R93). -/
  | vmax (p : CoreIx) (t : Fin 4) (d a c : Fin 32) (pg : Fin 8)
  /-- `VMIN`. Vector minimum (R93). -/
  | vmin (p : CoreIx) (t : Fin 4) (d a c : Fin 32) (pg : Fin 8)
  /-- `VABS`. Vector absolute value (R201). -/
  | vabs (p : CoreIx) (t : Fin 4) (d a : Fin 32) (pg : Fin 8)
  /-- `VNEG`. Vector negate (R201). -/
  | vneg (p : CoreIx) (t : Fin 4) (d a : Fin 32) (pg : Fin 8)
  /-- `VAND`. Vector bitwise AND (R201). -/
  | vand (p : CoreIx) (d a c : Fin 32) (pg : Fin 8)
  /-- `VOR`. Vector bitwise OR (R201). -/
  | vor (p : CoreIx) (d a c : Fin 32) (pg : Fin 8)
  /-- `VXOR`. Vector bitwise XOR (R201). -/
  | vxor (p : CoreIx) (d a c : Fin 32) (pg : Fin 8)
  /-- `VSHL`. Vector left shift per lane (R201). -/
  | vshl (p : CoreIx) (d a c : Fin 32) (pg : Fin 8)
  /-- `VSHR`. Vector right shift per lane, logical or arithmetic (R201). -/
  | vshr (p : CoreIx) (arith : Bool) (d a c : Fin 32) (pg : Fin 8)
  /-- `VCMP`. Per-lane vector compare into a predicate (R201). -/
  | vcmp (p : CoreIx) (t : Fin 4) (q : Fin 8) (a c : Fin 32) (pg : Fin 8) (code : Fin 16)
  /-- `VSEL`. Per-lane select under a predicate (R201). -/
  | vsel (p : CoreIx) (d a c : Fin 32) (pg : Fin 8)
  /-- `VBCS`. Broadcast a scalar to every lane (R201). -/
  | vbcs (p : CoreIx) (d a : Fin 32) (pg : Fin 8)
  /-- `VLANE`. Extract one lane of a vector into a scalar (R201). -/
  | vlane (p : CoreIx) (d a : Fin 32) (lane : Fin 64)
  /-- `VRED`. Cross-lane sum, maximum or minimum into lane 0 (R208). -/
  | vred (p : CoreIx) (t : Fin 4) (op : Fin 16) (d a : Fin 32) (pg : Fin 8)
  /-- `VCVT`. Convert lanes between FP32, BF16, FP16 and INT32 (R93). -/
  | vcvt (p : CoreIx) (src dst : Fin 8) (d a : Fin 32) (pg : Fin 8)
  /-- `VRQ`. Integer requantisation of 64-bit values (R204). -/
  | vrq (p : CoreIx) (d a mult ctl : Fin 32) (half : Bool)
  /-- `VFQ`. Float requantisation to a narrower format (R87). -/
  | vfq (p : CoreIx) (d a : Fin 32) (pg : Fin 8) (fmt : Fin 16) (mode : Fin 4)
  /-- `VMXQ`. Block-scaled output of two 32-element blocks (R89). -/
  | vmxq (p : CoreIx) (d a x : Fin 32) (fmt : Fin 16) (mode : Fin 4)
  /-- `VPACK`. Pack lanes into one 32-byte word of Vd (R206). -/
  | vpack (p : CoreIx) (d a : Fin 32) (pg : Fin 8) (fmt word : Fin 16) (half : Bool)
  /-- `VEXP2`. Table-based 2^x (R97). -/
  | vexp2 (p : CoreIx) (d a : Fin 32) (pg : Fin 8)
  /-- `VLOG2`. Table-based log2 x (R97). -/
  | vlog2 (p : CoreIx) (d a : Fin 32) (pg : Fin 8)
  /-- `VRCP`. Table-based reciprocal (R97). -/
  | vrcp (p : CoreIx) (d a : Fin 32) (pg : Fin 8)
  /-- `VRSQRT`. Table-based reciprocal square root (R97). -/
  | vrsqrt (p : CoreIx) (d a : Fin 32) (pg : Fin 8)
  /-- `VEXP`. e^x through VEXP2 (R97). -/
  | vexp (p : CoreIx) (d a : Fin 32) (pg : Fin 8)
  /-- `VSIGM`. Logistic sigmoid (R97). -/
  | vsigm (p : CoreIx) (d a : Fin 32) (pg : Fin 8)
  /-- `VTANH`. Hyperbolic tangent (R97). -/
  | vtanh (p : CoreIx) (d a : Fin 32) (pg : Fin 8)
  /-- `V72ADD`. Add P72 containers of two registers (R207). -/
  | v72add (p : CoreIx) (d a c : Fin 32) (pg : Fin 8)
  /-- `V72CVT`. Convert P72 containers in I64, F32 or F32I form (R207). -/
  | v72cvt (p : CoreIx) (d a x : Fin 32) (pg : Fin 8) (form : Fin 4)
  /-- `VFIXSUM`. Add lanes on a fixed grid into a P72 container (R207). -/
  | vfixsum (p : CoreIx) (d a x : Fin 32) (pg : Fin 8)
  /-- `VEXPMAX`. Write an exponent summary of the lanes to Sd (R207). -/
  | vexpmax (p : CoreIx) (d a : Fin 32)
  /-- `VWLD`. Take the next column of a vector-consumer walk into Vd (R156). -/
  | vwld (p : CoreIx) (d : Fin 32) (pg : Fin 8)
  /-- `VPOP`. Pop the head entry of the Drain Queue into Vd (R203). -/
  | vpop (p : CoreIx) (d : Fin 32) (pg : Fin 8)
  /-- `CORE_DMA_ITEM_START`. The core DMA engine starts a queued item and checks its descriptor (R376). -/
  | coreDmaItemStart (p : CoreIx)
  /-- `CORE_DMA_ITEM_COMPLETE`. A core DMA item completes and increments its counter (R377). -/
  | coreDmaItemComplete (p : CoreIx) (id : Nat)
  /-- `HATCH_ARRIVAL`. A remote write arrives at a Hatch owner and is checked, written or answered (R255). -/
  | hatchArrival (n : Nat)
  /-- `HATCH_ANSWER`. The answer to an HPUT or TO_HATCH piece reaches its sender and advances its counter (R179). -/
  | hatchAnswer (n : Nat)
  /-- `HATCH_NOTICE`. An OPEN or CLOSE notice reaches a core and updates its Hatch directory (R252). -/
  | hatchNotice (n : Nat)
  /-- `HATCH_CLOSE_REPLY`. A core replies to a CLOSE notice after its earlier writes have reached the owner (R258). -/
  | hatchCloseReply (p : CoreIx) (key : Nat)
  /-- `ARRIVAL_WRITE`. Slot 6 writes one buffered arrival into the Pantry (R226). -/
  | arrivalWrite (p : CoreIx)
  /-- `SCRUB_UNIT`. The Pantry scrubber reads one unit every 2^DIV CCLK and corrects it (R230). -/
  | scrubUnit (p : CoreIx)
  /-- `SCRUB_WRITE_BACK`. The scrubber writes a corrected word back seven cycles after its read (R230). -/
  | scrubWriteBack (p : CoreIx)
  /-- `LOFT_SCRUB_UNIT`. A Loft slice scrubs one unit every 2^DIV FCLK (R240). -/
  | loftScrubUnit (slice : Fin 16)
  /-- `GRANULE_POWER_DOWN`. A granule powers down at the first suitable kernel boundary after its COMMIT (R232). -/
  | granulePowerDown (p : CoreIx) (k : Fin 16)
  /-- `GRANULE_CLEAR_DONE`. Slot 7 finishes clearing a powered-up granule and sets UP (R233). -/
  | granuleClearDone (p : CoreIx) (k : Fin 16)
  /-- `LOFT_REQUEST`. A Loft scratchpad or cache request is served, checked against owner and SHARED (R237). -/
  | loftRequest (p : CoreIx) (id : Nat)
  /-- `LOFT_CACHE_FILL`. A cache miss fill returns from DRAM and is installed (R242). -/
  | loftCacheFill (n : Nat)
  /-- `LOFT_INV_PARTITION`. LOFT_INV_CTRL write starts invalidation of every line of a partition (R244). -/
  | loftInvPartition (part : Fin 16)
  /-- `LOFT_INV_RANGE`. LOFT_INV_CTRL write starts invalidation of a partition's lines within a range (R244). -/
  | loftInvRange (part : Fin 16)
  /-- `LOFT_INV_DONE`. An invalidation completes when every covered line is invalid (R244). -/
  | loftInvDone (n : Nat)
  /-- `LOFT_WAY_CLEAR_DONE`. A way that entered scratchpad mode finishes clearing (R246). -/
  | loftWayClearDone (way : Fin 16)
  /-- `CELLAR_SPILL`. The Caller spills a context's carry regions to its Cellar (R249). -/
  | cellarSpill (part : Fin 16) (cycles : Nat)
  /-- `CELLAR_RESTORE`. The Caller restores carry regions before the context's next kernel (R250). -/
  | cellarRestore (part : Fin 16) (images : List (List (List Byte × List Bool))) (cycles : Nat)
  /-- `GATHER_JOB_ACCEPT`. A gather job descriptor is read and placed in its unit's job queue (R261). -/
  | gatherJobAccept (p : CoreIx) (id : Nat)
  /-- `GATHER_JOB_START`. A unit validates a GJD and begins fetching (R262). -/
  | gatherJobStart (gu : Fin 4) (part : Fin 16)
  /-- `GATHER_ROW_RETURN`. A fetched row returns and is reduced or delivered (R264). -/
  | gatherRowReturn (gu : Fin 4) (p : CoreIx) (dma : Nat) (k : Nat)
  /-- `GATHER_OUTPUT_WRITE`. A unit writes an output into the destination Pantry and advances grain counts (R267). -/
  | gatherOutputWrite (gu : Fin 4) (p : CoreIx) (dma : Nat) (n : Nat)
  /-- `GATHER_STATUS_WRITE`. After the last delivery the unit writes the status block and the item completes (R268). -/
  | gatherStatusWrite (gu : Fin 4) (p : CoreIx) (dma : Nat)
  /-- `GATHER_JOB_CANCEL`. A job stops on reset, kill or destroy, waits for fetches and writes CANCELLED (R269). -/
  | gatherJobCancel (gu : Fin 4) (p : CoreIx) (dma : Nat)
  /-- `LPI_LINE`. An LPI LINE packet is checked and written to its stream's rings (R280). -/
  | lpiLine (port : Fin 6) (data : List Byte) (ending : LpiEnd)
  /-- `LPI_FRAME_START`. An LPI FRAME_START packet opens a new frame or is late (R284). -/
  | lpiFrameStart (port : Fin 6) (data : List Byte) (ending : LpiEnd)
  /-- `LPI_FRAME_END`. An LPI FRAME_END packet closes the open frame, resolving remaining positions as holes (R284). -/
  | lpiFrameEnd (port : Fin 6) (data : List Byte) (ending : LpiEnd)
  /-- `POSITION_RESOLVE`. A position resolves once its final status word is written at every destination (R290). -/
  | positionResolve (stream : Fin 96)
  /-- `POSITION_DEADLINE`. A position reaches its line-period deadline and resolves as a hole (R285). -/
  | positionDeadline (stream : Fin 96)
  /-- `STREAM_UDP_PACKET`. A UDP packet steered by a filter rule is checked and written to its stream (R301). -/
  | streamUdpPacket (link : Fin 2) (data : List Byte) (ts : DWord)
  /-- `DB_TAIL_WRITE`. A write to a doorbell's DB_TAIL admits packets and may make the context resident (R312). -/
  | dbTailWrite (queue : Fin 1024) (t : Word)
  /-- `DB_REC_HEAD_WRITE`. A write to DB_REC_HEAD frees record slots and retries held records (R312). -/
  | dbRecHeadWrite (queue : Fin 1024) (v : Word) (cls : Fin 5)
  /-- `CTX_CREATE`. Admin operation that reads and accepts a Context Descriptor (R308). -/
  | ctxCreate (desc : MemAnswer)
  /-- `CTX_DESTROY`. Admin operation that removes a context without queues (R308). -/
  | ctxDestroy
  /-- `QUEUE_CREATE`. Admin operation that registers a queue from a Queue Descriptor (R309). -/
  | queueCreate (desc : MemAnswer)
  /-- `QUEUE_DESTROY`. Admin operation that cancels a queue's work, writes its final record and unregisters it (R346). -/
  | queueDestroy
  /-- `CTX_EVICT`. Admin operation that saves a context's front ends and frees its resident slot (R343). -/
  | ctxEvict
  /-- `CMD_NOP`. Queue command NOP, completing at once (R333). -/
  | cmdNop (queue : Fin 1024) (pkt : MemAnswer)
  /-- `LAUNCH`. Queue command that dispatches a kernel to the queue's partition (R318). -/
  | launch (queue : Fin 1024) (pkt more kdesc : MemAnswer)
  /-- `CMD_WAIT`. Queue command that holds until a fence or Loft Hatch counter reaches a threshold (R323). -/
  | cmdWait (queue : Fin 1024) (pkt fence : MemAnswer)
  /-- `SIGNAL`. Queue command that writes a fence value after earlier items complete (R326). -/
  | signal (queue : Fin 1024) (pkt : MemAnswer)
  /-- `GATE`. Queue command that holds until a Line Gate is satisfied (R323). -/
  | gate (queue : Fin 1024) (pkt : MemAnswer)
  /-- `COND`. Queue command that tests a value and skips following commands when it fails (R327). -/
  | cond (queue : Fin 1024) (pkt value : MemAnswer)
  /-- `CMD_LOOP`. Queue command that repeats a command body a counted number of times (R328). -/
  | cmdLoop (queue : Fin 1024) (pkt count : MemAnswer) (rest : Nat)
  /-- `CALL`. Queue command that runs a nested command buffer (R329). -/
  | call (queue : Fin 1024) (pkt : MemAnswer)
  /-- `RETURN`. Queue command that ends a nested buffer (R329). -/
  | cmdReturn (queue : Fin 1024) (pkt : MemAnswer)
  /-- `DMA`. Queue command that dispatches an engine DMA descriptor (R330). -/
  | dma (queue : Fin 1024) (pkt desc : MemAnswer)
  /-- `CACHE_INV`. Queue command that invalidates the partition's Loft cache lines (R331). -/
  | cacheInv (queue : Fin 1024) (pkt : MemAnswer)
  /-- `HATCH_OPEN`. Queue command that opens a Loft Hatch for the context (R332). -/
  | hatchOpen (queue : Fin 1024) (pkt : MemAnswer)
  /-- `HATCH_CLOSE`. Queue command that closes a Loft Hatch when its writes have landed (R332). -/
  | hatchClose (queue : Fin 1024) (pkt : MemAnswer)
  /-- `TIMESTAMP`. Queue command that writes the Dealer time after earlier items complete (R326). -/
  | timestamp (queue : Fin 1024) (pkt : MemAnswer)
  /-- `BATCH`. Queue command that runs the Batch Composer over a sequence table (R347). -/
  | batch (queue : Fin 1024) (pkt desc table : MemAnswer)
  /-- `BATCH_STEP_DONE`. A batch step's buffer completes; sequences are updated and the next step composed (R348). -/
  | batchStepDone (queue : Fin 1024)
  /-- `WAIT_POLL`. Every POLL_US the Caller re-evaluates waiting commands and retries held records (R324). -/
  | waitPoll (queue : Fin 1024) (fence : MemAnswer)
  /-- `KERNEL_SELECT`. At a kernel boundary the Caller chooses the next kernel for a partition (R338). -/
  | kernelSelect (part : Fin 16)
  /-- `CONTEXT_SWITCH`. The Caller spills, clears, restores and loads code for a new context on a partition (R339). -/
  | contextSwitch (part : Fin 16) (code : List (BitVec 128 × Bool)) (cycles : Nat)
  /-- `KERNEL_START`. The Caller sets core state and starts a kernel on every core of a partition (R167). -/
  | kernelStart (part : Fin 16)
  /-- `KERNEL_END`. A kernel ends when every core has halted, and its LAUNCH completes (R322). -/
  | kernelEnd (part : Fin 16)
  /-- `RECORD_WRITE`. A completion record is written to a record ring or held back (R344). -/
  | recordWrite (queue : Fin 1024)
  /-- `PLAN_RUN`. At an epoch boundary a plan queue runs its buffer or records an overrun (R351). -/
  | planRun (queue : Fin 1024)
  /-- `ADDRESS_TRANSLATE`. A request is translated through buffers or a page walk and checked (R362). -/
  | addressTranslate (asker : Asker)
  /-- `WALK_READ_RETURN`. A page-table entry read returns to the walker (R362). -/
  | walkReadReturn (port : Fin 8) (tag : Nat) (data : List Byte) (poison : Bool) (err : Fin 4)
  /-- `FAULT_RECORD_WRITE`. A fault record is written to the Fault Ring when there is room (R373). -/
  | faultRecordWrite (n : Nat)
  /-- `FAULT_HEAD_WRITE`. A driver write of FAULT_HEAD frees Fault Ring slots (R373). -/
  | faultHeadWrite (v : Word)
  /-- `CTX_RESUME`. CTX_OP RESUME retranslates paused transfers and leaves the pause (R374). -/
  | ctxResume (ctx : Fin 4096)
  /-- `CTX_KILL`. CTX_OP KILL resets a paused context (R374). -/
  | ctxKill (ctx : Fin 4096)
  /-- `TB_INV_CONTEXT`. TB_INV_CTRL starts invalidation of every entry of one context (R365). -/
  | tbInvContext (ctx : Fin 4096)
  /-- `TB_INV_RANGE`. TB_INV_CTRL starts invalidation of one context's entries within a range (R365). -/
  | tbInvRange (ctx : Fin 4096)
  /-- `TB_INV_ALL`. TB_INV_CTRL starts invalidation of every entry (R365). -/
  | tbInvAll
  /-- `TB_INV_DONE`. An invalidation completes and BUSY clears (R365). -/
  | tbInvDone
  /-- `KFP_READ_RESPONSE`. A read response arrives on a memory port and is delivered, dropped as late or flagged (R393). -/
  | kfpReadResponse (port : Fin 8) (tag : Nat) (beat : Fin 4) (data : List Byte) (poison last : Bool) (err : Fin 4)
  /-- `KFP_WRITE_RESPONSE`. A write response arrives on a memory port (R395). -/
  | kfpWriteResponse (port : Fin 8) (tag : Nat) (err : Fin 4)
  /-- `ENGINE_DMA_START`. A waiting engine DMA item takes a free channel and starts (R380). -/
  | engineDmaStart
  /-- `ENGINE_DMA_COMPLETE`. An engine DMA item completes and writes its record (R381). -/
  | engineDmaComplete (channel : Fin 16)
  /-- `REGISTER_WRITE`. A register write with no behaviour of its own takes effect under its access code (R23). -/
  | registerWrite (offset : BitVec 23) (be : BitVec 4) (v : Word) (cls : BitVec 3)
  /-- `PAIR_LO_READ`. A read of a 64-bit pair's _LO word captures the _HI snapshot (R19). -/
  | pairLoRead (offset : BitVec 23) (be : BitVec 4) (cls : BitVec 3)
  /-- `PAIR_HI_WRITE`. A write of a pair's _HI word applies both staged words together (R20). -/
  | pairHiWrite (offset : BitVec 23) (v : Word) (cls : BitVec 3)
  /-- `ABI_REQ_WRITE`. A write of ABI_REQ negotiates the granted ABI version (R11). -/
  | abiReqWrite (v : Word)
  /-- `COMMIT_GO`. COMMIT_CTRL GO captures every shadow value for a later effect point (R595). -/
  | commitGo (at_ : Bool)
  /-- `COMMIT_REVERT`. COMMIT_CTRL REVERT sets every shadow to its committed value (R600). -/
  | commitRevert
  /-- `COMMIT_EFFECT`. At its effect point a captured set is checked and committed or rejected (R597). -/
  | commitEffect
  /-- `CTX_RST`. Driver write of CTX_RST requests a context reset (R527). -/
  | ctxRst (ctx : Fin 4096)
  /-- `CONTEXT_RESET_END`. The clear finishes and records are written; BUSY clears (R527). -/
  | contextResetEnd (ctx : Fin 4096)
  /-- `GENERATION_INCREMENT`. A reset context's generation increments once no orphaned tag holds the new value (R399). -/
  | generationIncrement (ctx : Fin 4096)
  /-- `ENG_RST`. Write of the key value to ENG_RST begins an engine reset (R534). -/
  | engRst (key : BitVec 16)
  /-- `ENGINE_RESET_PHASE_END`. An engine reset phase ends and the next phase begins (R535). -/
  | engineResetPhaseEnd (findings : List Finding) (testEn : Bool) (us : Word)
  /-- `CORE_RETIRE`. A retired core takes effect at its partition's kernel boundary (R542). -/
  | coreRetire (p : CoreIx)
  /-- `KITTY_SUBSTITUTED`. A Kitty core is powered, cleared, loaded and takes over a logical index (R543). -/
  | kittySubstituted (p : CoreIx) (cycles : Nat)
  /-- `DONOR_MOVE`. With no Kitty free, the core serving the top index moves to the retired index (R544). -/
  | donorMove (p : CoreIx) (cycles : Nat)
  /-- `ELOG_SAVE`. ELOG_CTRL SAVE stores the live error log to the Coffer (R539). -/
  | elogSave
  /-- `ELOG_DATA_READ`. Read of ELOG_DATA0 reads an entry and captures the window (R539). -/
  | elogDataRead
  /-- `DUMP_DATA_READ`. Read of DUMP_DATA returns a dump word and increments DUMP_IDX (R540). -/
  | dumpDataRead
  /-- `DUMP_REARM`. Writing 1 to DUMP_STATUS.FULL re-arms the crash dump (R540). -/
  | dumpRearm
  /-- `DEALER_TICK`. At each DCLK tick the Dealer adds INCR to time and elapsed time and drives the time bus (R401). -/
  | dealerTick
  /-- `DEALER_START`. On Dealer reset deassertion the Dealer loads calibration, logs and begins ticking (R404). -/
  | dealerStart
  /-- `INCR_WRITE`. A write of INCR sets the rate, or is refused outside the sealed bounds (R405). -/
  | incrWrite (v : BitVec 36)
  /-- `ADJ_STEP`. A write of ADJ_STEP steps the Dealer time, or is refused (R406). -/
  | adjStep (delta : Word)
  /-- `TIME_LOAD`. LOAD_CTRL.GO loads the Dealer time, or is refused (R407). -/
  | timeLoad
  /-- `TIME_SOURCE_WRITE`. A write of TIME_SOURCE declares the reference and appends a SOURCE entry (R410). -/
  | timeSourceWrite (v : BitVec 2)
  /-- `PPS_IN_EDGE`. A PPS_IN rising edge captures a stamp or is ignored (R409). -/
  | ppsInEdge
  /-- `STAMP_READ`. Read of STAMP0 issues a stamp and captures the rest (R412). -/
  | stampRead
  /-- `EPOCH_BOUNDARY`. An Epoch Generator reaches a boundary and increments its epoch count (R413). -/
  | epochBoundary (g : Fin 8) (mirror : Option (List (List Byte × List Byte)))
  /-- `FSYNC_PULSE`. An FSYNC output drives its pulse at its phase after a boundary (R417). -/
  | fsyncPulse (output : Fin 16)
  /-- `PPS_OUT_EDGE`. PPS_OUT rises at a whole second less its delay (R418). -/
  | ppsOutEdge
  /-- `UNSEAL`. SEAL_CTRL UNSEAL stores the seal sector and unseals the Dealer (R421). -/
  | unseal (operator : BitVec 16) (reason : BitVec 8) (permit verify : Bool)
  /-- `SEAL`. SEAL_CTRL SEAL computes CAL_CRC, logs and seals the Dealer (R423). -/
  | seal (verify : Bool)
  /-- `SEAL_TIMEOUT`. CAL_UNSEAL_LIMIT seconds after an unseal the Dealer seals itself (R423). -/
  | sealTimeout (verify : Bool)
  /-- `CAL_WRITE`. A sealed-class RWK write while unsealed applies and is logged (R422). -/
  | calWrite (offset : BitVec 16) (v : Word)
  /-- `REFUSED_SUMMARY`. At the start of a second, refused RWK writes of the last second are logged in one entry (R420). -/
  | refusedSummary
  /-- `LEDGER_DATA_READ`. Read of LEDGER_DATA0 reads a Ledger entry and captures the window (R428). -/
  | ledgerDataRead
  /-- `DCLK_MONITOR`. Each 1 ms of FCLK the Safety Monitor compares DCLK with FCLK (R430). -/
  | dclkMonitor (bad : Bool)
  /-- `RX_FRAME`. A received Ethernet frame is checked and dispatched (R437). -/
  | rxFrame (link : Fin 2) (data : List Byte) (fcsOk : Bool) (ts : BitVec 72) (fec : Nat × Nat) (descs : List MemAnswer)
  /-- `TX_FRAME`. Transmission selection starts a frame of the highest eligible class (R442). -/
  | txFrame (link : Fin 2) (ts : BitVec 72)
  /-- `TXR_TAIL_WRITE`. A write of a transmit ring tail makes descriptors available (R438). -/
  | txrTailWrite (link : Fin 2) (ring : Fin 8) (v : Word)
  /-- `RXR_TAIL_WRITE`. A write of the receive ring tail makes buffers available (R439). -/
  | rxrTailWrite (link : Fin 2) (v : Word)
  /-- `TX_DESCRIPTOR`. The engine reads a transmit descriptor and its buffer and writes it back (R438). -/
  | txDescriptor (link : Fin 2) (ring : Fin 8) (desc buf : List Byte)
  /-- `LINK_DOWN`. Loss of lock or alignment for more than 10 µs takes a port down (R435). -/
  | linkDown (link : Fin 2) (block aligned fec : Bool)
  /-- `LINK_UP`. Block lock, alignment and FEC lock all hold and the port comes up (R435). -/
  | linkUp (link : Fin 2)
  /-- `GCL_ENTRY_ADVANCE`. A gate control entry's interval ends and the next entry applies (R444). -/
  | gclEntryAdvance (link : Fin 2)
  /-- `AS_SYNC_SEND`. As grandmaster the port sends Sync and Follow_Up (R451). -/
  | asSyncSend (link : Fin 2)
  /-- `AS_ANNOUNCE_SEND`. As grandmaster the port sends Announce (R451). -/
  | asAnnounceSend (link : Fin 2)
  /-- `AS_PDELAY_SEND`. As end station the agent sends Pdelay_Req (R452). -/
  | asPdelaySend (link : Fin 2)
  /-- `AS_MESSAGE_RECEIVE`. The 802.1AS agent processes a received Sync, Follow_Up or Pdelay message (R452). -/
  | asMessageReceive (link : Fin 2)
  /-- `HTP_OPEN`. An HTP OPEN frame is received and answered (R456). -/
  | htpOpen
  /-- `HTP_OPEN_ACK`. An HTP OPEN_ACK frame brings the session up (R456). -/
  | htpOpenAck
  /-- `HTP_ACK`. An HTP ACK frame advances the sender's acknowledgement (R459). -/
  | htpAck
  /-- `HTP_DATA`. An HTP DATA frame applies Hatch pieces and is answered (R461). -/
  | htpData
  /-- `HTP_ANSWER`. An HTP ANSWER frame answers originating HPUTs (R461). -/
  | htpAnswer
  /-- `HTP_NOTICE`. An HTP NOTICE frame updates a Partner Hatch directory entry (R462). -/
  | htpNotice
  /-- `HTP_NOTICE_REPLY`. An HTP NOTICE_REPLY frame replies to a CLOSE notice (R462). -/
  | htpNoticeReply
  /-- `MIRROR`. A MIRROR frame's data is written into the unused bank (R474). -/
  | mirror (entry : List Byte)
  /-- `MIRROR_COMMIT`. A MIRROR_COMMIT frame commits a mirror epoch when counts and CRC match (R474). -/
  | mirrorCommit (table : List (List Byte))
  /-- `HEARTBEAT`. A received HEARTBEAT updates epoch offset, Partner state and role (R469). -/
  | heartbeat
  /-- `CUT_ARRIVE`. A CUT_ARRIVE frame gives the Partner's arrival time for a Partnership Cut (R477). -/
  | cutArrive
  /-- `OP_DESIRE`. An OP_EXCHANGE DESIRE reports the Partner's desired point (R569). -/
  | opDesire
  /-- `OP_PROPOSE`. An OP_EXCHANGE PROPOSE asks for a point change at a switch time (R569). -/
  | opPropose
  /-- `OP_READY`. An OP_EXCHANGE READY reports the Follow is prepared (R569). -/
  | opReady
  /-- `OP_CONFIRM`. An OP_EXCHANGE CONFIRM confirms the agreed switch (R569). -/
  | opConfirm
  /-- `OP_ALERT`. An OP_EXCHANGE ALERT drops the Partner to OP0 (R571). -/
  | opAlert
  /-- `HTP_OPEN_TIMER`. Every 1 ms with no session up the engine sends OPEN (R456). -/
  | htpOpenTimer
  /-- `HTP_ACK_TIMER`. Within 2 µs of accepting a frame the receiver sends its acknowledgement (R457). -/
  | htpAckTimer
  /-- `HTP_RTO_EXPIRY`. The retransmission timer expires and unacknowledged frames are resent (R458). -/
  | htpRtoExpiry
  /-- `TAKEOVER_WRITE`. A safety-class write of PTN_CTRL.TAKEOVER requests takeover (R471). -/
  | takeoverWrite
  /-- `CUT_PTN_RELEASE`. A Partnership or Counted Launch Cut releases when corrected time reaches its target (R477). -/
  | cutPtnRelease (part barrier : Fin 16)
  /-- `INJ_ENABLE`. A write of INJ_CTRL.EN starts link fault injection or is denied (R465). -/
  | injEnable (link : Fin 2) (v : Word)
  /-- `JOKER_SEGMENT_START`. A core begins a Joker segment at its scheduled time (R488). -/
  | jokerSegmentStart (logical : Fin 64)
  /-- `JOKER_SEGMENT_END`. A Joker segment ends and its signature is compared (R493). -/
  | jokerSegmentEnd (logical : Fin 64) (flip : Word)
  /-- `REDEAL_COPY_START`. A Redeal copy starts on the copy partition at its kernel boundary (R497). -/
  | redealCopyStart (part : Fin 16)
  /-- `REDEAL_COMPARE`. The Safety Monitor compares primary and copy signatures (R501). -/
  | redealCompare (part : Fin 16)
  /-- `CLASS_A_REACTION`. A class A fault stops SAFE_ERR and holds every core (R485). -/
  | classAReaction (code : BitVec 8) (detail : Half)
  /-- `SAFETY_RING_WRITE`. An Age Tag or Verdict Record is written to its ring when there is room (R509). -/
  | safetyRingWrite (verdict : Bool)
  /-- `SAFETY_RING_HEAD_WRITE`. A write of AGE_HEAD or VERDICT_HEAD frees ring slots (R509). -/
  | safetyRingHeadWrite (verdict : Bool) (v : Word)
  /-- `VERDICT_WRITE`. The Safety Monitor writes an epoch's Verdict Record once its conditions hold or at its deadline (R510). -/
  | verdictWrite (part : Fin 16)
  /-- `SAFE_ERR_TOGGLE`. Every 600 FCLK the SAFE_ERR outputs toggle while healthy (R512). -/
  | safeErrToggle
  /-- `SAFE_ERR_READBACK_FAIL`. A SAFE_ERR pad differing for 1 µs raises a class A cause (R514). -/
  | safeErrReadbackFail
  /-- `LATENT_FAULT_CHECK`. The Latent Fault Check runs its injections and records pass or fail (R515). -/
  | latentFaultCheck (results : BitVec 17) (us ended : Word)
  /-- `INJECT_JOKER`. SM_INJ_CTRL GO with kind JOKER inverts a signature bit (R518). -/
  | injectJoker (target : BitVec 7) (segment : Fin 8)
  /-- `INJECT_REDEAL`. SM_INJ_CTRL GO with kind REDEAL inverts a compared window bit (R518). -/
  | injectRedeal (part : Fin 16)
  /-- `INJECT_AGE`. SM_INJ_CTRL GO with kind AGE makes the next publication stale (R518). -/
  | injectAge (slot : Fin 32)
  /-- `INJECT_CLASS_A`. SM_INJ_CTRL GO with kind CLASS_A raises class A cause 0x0C (R518). -/
  | injectClassA
  /-- `POWER_ESTIMATE`. Every 512 DCLK the Power Manager estimates power and sets allocations and bubbles (R562). -/
  | powerEstimate (events : List (List Nat))
  /-- `OP_CHANGE`. The engine changes operating point with a voltage request and a CCLK switch (R552). -/
  | opChange
  /-- `PWR_ACK`. The regulator acknowledges a settled rail and the handshake proceeds (R551). -/
  | pwrAck (level : Bool)
  /-- `PWR_ACK_TIMEOUT`. No acknowledgement within 1 ms sets REG_FAULT (R553). -/
  | pwrAckTimeout
  /-- `PWR_ALERT`. PWR_ALERT_N low switches CCLK to OP0 within 100 ns (R555). -/
  | pwrAlert
  /-- `ALERT_RELEASE`. PWR_ALERT_N high for 1 ms ends the OP0 restriction (R555). -/
  | alertRelease
  /-- `THERMAL_SAMPLE`. Sensors are read and the thermal point falls, rises or trips (R556). -/
  | thermalSample (temps : List (BitVec 16))
  /-- `DROOP_DETECT`. A droop detector fires and CCLK stretches (R557). -/
  | droopDetect
  /-- `DROOP_STRETCH_END`. The stretch ends after MIN_STRETCH cycles with no detector firing (R557). -/
  | droopStretchEnd
  /-- `AGEING_CHECK`. Delay monitors measure margin and raise a trim or lower OP_LIMIT (R559). -/
  | ageingCheck (low : Bool)
  /-- `LEARN_CLEAR`. PWR_CTRL LEARN_CLEAR clears the learning table (R564). -/
  | learnClear
  /-- `DOMAIN_POWER_UP_DONE`. A switched domain completes its power-up and clearing (R561). -/
  | domainPowerUpDone (domain : Fin 128)
  /-- `STORE_OPEN`. COF_STORE_CTRL OPEN erases the target copy and opens a session (R580). -/
  | storeOpen (kind : BitVec 4) (busy : Bool)
  /-- `STORE_CHUNK`. COF_STORE_CTRL CHUNK writes the staging buffer to one sector and verifies it (R581). -/
  | storeChunk (index : Byte) (busy verify : Bool)
  /-- `STORE_CLOSE`. COF_STORE_CTRL CLOSE writes the header and makes the copy active (R582). -/
  | storeClose (busy verify : Bool)
  /-- `STORE_ABORT`. COF_STORE_CTRL ABORT ends the session leaving the active copy unchanged (R583). -/
  | storeAbort (busy : Bool)
  /-- `STAGE_WRITE`. A write to the staging buffer, refused while a CHUNK runs (R581). -/
  | stageWrite (word : Fin 1024) (v : Word) (running : Bool)
  /-- `ENGINE_STORE`. The engine stores repair, trim, error-log or dump content to the Coffer (R585). -/
  | engineStore (kind : Fin 8) (verify : Bool)
  /-- `BOOT_PHASE_END`. A Boot Sequencer phase ends and the next begins (R589). -/
  | bootPhaseEnd (us : Word)
  /-- `IMAGE_FETCH_DONE`. A model image finishes fetching and its digest is checked (R588). -/
  | imageFetchDone (image : MemAnswer) (wrote : Bool)
  /-- `IRQ_MESSAGE`. The lowest pending vector transfers as an interrupt message (R612). -/
  | irqMessage
  /-- `IRQ_TEST`. IRQ_TEST GO sends a vector (R612). -/
  | irqTest (vector : BitVec 6)
  /-- `AON_PWRGD_RISE`. The always-on island becomes powered (R616). -/
  | aonPwrgdRise
  /-- `AON_PWRGD_FALL`. The always-on island loses power, the Dealer included (R617). -/
  | aonPwrgdFall
  /-- `PWR_GOOD_RISE`. Power-good rises and the Boot Sequencer starts (R589). -/
  | pwrGoodRise (testEn : Bool)
  /-- `PWR_GOOD_FALL`. Power-good falls and every unit except the Dealer loses power (R617). -/
  | pwrGoodFall
  /-- `ENG_RST_N_ASSERT`. The engine reset input asserts and begins or joins an engine reset (R618). -/
  | engRstNAssert
  /-- `ENG_RST_N_DEASSERT`. The engine reset input deasserts and the held reset continues with self-test (R618). -/
  | engRstNDeassert
  /-- `DLR_RST_N_ASSERT`. The Dealer reset asserts; while powered this is class A cause 0x04 (R619). -/
  | dlrRstNAssert
  /-- `TEST_WRAPPER_UPDATE`. An IEEE 1500 wrapper instruction update takes effect or acts as bypass (R620). -/
  | testWrapperUpdate (update : TestUpdate)
  /-- `TEST_WRAPPER_RESET`. WRSTN resets the test wrapper to WS_BYPASS (R620). -/
  | testWrapperReset
  /-- `BIT_ERROR`. A stored word of a Pantry, Loft, Instruction Store or Coffer takes one or more bit errors and becomes correctable or uncorrectable (R228). -/
  | bitError (target : BitTarget)
  /-- `BUBBLE_FRAME_START`. At each 64-CCLK frame start the bubble count in force for a partition applies and its held groups become hold cycles (R565). -/
  | bubbleFrameStart (part : Fin 16)
  /-- `REORDER_HOLD_EXPIRY`. A frame held by REORDER injection is released after 100 µs when INJ_DEPTH further frames have not passed (R467). -/
  | reorderHoldExpiry (link : Fin 2) (receive : Bool) (desc : MemAnswer)
deriving DecidableEq, Repr

end Sys2Proof
end

