-- ==== Sys2Proof/Decode.lean ====
section
/-!
DEFINITION. Commands from words. No row of the command table gives bits, so no table word spells a command; the words of a
program do: its bundles and syllables are decoded by the encodings of 05_core_program.md (R169, R170, R175, R186, R198, R201).
-/
namespace Sys2Proof

/-- The command that a table word spells: none, since the table gives no row any bits. -/
def decodeTableWord (_nbits _w : Nat) : Option Instr := none

/-! ### Syllables (R170) -/

/-- The field of a syllable from bit `lo` on that has `n` values. -/
def field (n : Nat) [NeZero n] (w : Word) (lo : Nat) : Fin n := Fin.ofNat n (w.toNat / 2 ^ lo)

/-- A syllable whose reserved bits are zero. -/
def reserved (w zero : Word) (i : Instr) : Option Instr := if w &&& zero = 0 then some i else none

/-- A syllable of slot 0: control and scalar (R175). -/
def decodeSlot0 (p : CoreIx) (w : Word) : Option Instr :=
  match w.toNat / 2 ^ 24 with
  | 0x00 => reserved w 0xFFFFFF (.nop p 0 false)
  | 0x01 => reserved w 0x0001FF (.add p (field 32 w 19) (field 32 w 14) (field 32 w 9))
  | 0x02 => reserved w 0x0001FF (.sub p (field 32 w 19) (field 32 w 14) (field 32 w 9))
  | 0x03 => reserved w 0x0001FF (.and p (field 32 w 19) (field 32 w 14) (field 32 w 9))
  | 0x04 => reserved w 0x0001FF (.or p (field 32 w 19) (field 32 w 14) (field 32 w 9))
  | 0x05 => reserved w 0x0001FF (.xor p (field 32 w 19) (field 32 w 14) (field 32 w 9))
  | 0x06 => reserved w 0x0001FF (.shl p (field 32 w 19) (field 32 w 14) (field 32 w 9))
  | 0x07 => reserved w 0x0001FF (.shr p (field 32 w 19) (field 32 w 14) (field 32 w 9))
  | 0x08 => reserved w 0x0001FF (.sra p (field 32 w 19) (field 32 w 14) (field 32 w 9))
  | 0x09 => reserved w 0x0001FF (.mul p (field 32 w 19) (field 32 w 14) (field 32 w 9))
  | 0x0A => reserved w 0x0001FF (.min p (field 32 w 19) (field 32 w 14) (field 32 w 9))
  | 0x0B => reserved w 0x0001FF (.max p (field 32 w 19) (field 32 w 14) (field 32 w 9))
  | 0x0C => reserved w 0x0001FF (.minu p (field 32 w 19) (field 32 w 14) (field 32 w 9))
  | 0x0D => reserved w 0x0001FF (.maxu p (field 32 w 19) (field 32 w 14) (field 32 w 9))
  | 0x11 => reserved w 0x000000 (.addi p (field 32 w 19) (field 32 w 14) (w.extractLsb' 0 14))
  | 0x13 => reserved w 0x000000 (.andi p (field 32 w 19) (field 32 w 14) (w.extractLsb' 0 14))
  | 0x14 => reserved w 0x000000 (.ori p (field 32 w 19) (field 32 w 14) (w.extractLsb' 0 14))
  | 0x15 => reserved w 0x000000 (.xori p (field 32 w 19) (field 32 w 14) (w.extractLsb' 0 14))
  | 0x16 => reserved w 0x003FE0 (.shli p (field 32 w 19) (field 32 w 14) (w.extractLsb' 0 14))
  | 0x17 => reserved w 0x003FE0 (.shri p (field 32 w 19) (field 32 w 14) (w.extractLsb' 0 14))
  | 0x18 => reserved w 0x003FE0 (.srai p (field 32 w 19) (field 32 w 14) (w.extractLsb' 0 14))
  | 0x1A => reserved w 0x070000 (.li p (field 32 w 19) (w.extractLsb' 0 16))
  | 0x1B => reserved w 0x070000 (.lui p (field 32 w 19) (w.extractLsb' 0 16))
  | 0x20 => reserved w 0x1801F8 (.cmp p (field 8 w 21) (field 32 w 14) (field 32 w 9) (field 8 w 0))
  | 0x22 => reserved w 0x18C7FF (.pand p (field 8 w 21) (field 8 w 16) (field 8 w 11))
  | 0x23 => reserved w 0x18C7FF (.por p (field 8 w 21) (field 8 w 16) (field 8 w 11))
  | 0x24 => reserved w 0x18C7FF (.pxor p (field 8 w 21) (field 8 w 16) (field 8 w 11))
  | 0x25 => reserved w 0x18FFFF (.pnot p (field 8 w 21) (field 8 w 16))
  | 0x30 => reserved w 0x07C000 (.br p (field 8 w 21) (field 4 w 19) (w.extractLsb' 0 14))
  | 0x31 => reserved w 0xFFC000 (.callb p (w.extractLsb' 0 14))
  | 0x32 => reserved w 0xFFFFFF (.retb p)
  | 0x34 => reserved w 0xF80000 (.loop p (field 32 w 14) (w.extractLsb' 0 14))
  | 0x35 => reserved w 0x000000 (.loopi p (w.extractLsb' 14 10) (w.extractLsb' 0 14))
  | 0x38 => reserved w 0x003FFF (.wait p (field 32 w 19) (field 32 w 14))
  | 0x39 => reserved w 0x07C000 (.waiti p (field 32 w 19) (w.extractLsb' 0 14))
  | 0x3A => reserved w 0xF801FF (.waitg p (field 32 w 14) (field 32 w 9))
  | 0x3B => reserved w 0x07FFFF (.cut p (field 16 w 20) (w.getLsbD 19))
  | 0x3C => reserved w 0xFFFFFF (.trick p)
  | 0x3D => reserved w 0xFFFFFF (.halt p)
  | 0x40 => reserved w 0x003FFF (.cntset p (field 32 w 19) (field 32 w 14))
  | 0x41 => reserved w 0x003FFF (.cntadd p (field 32 w 19) (field 32 w 14))
  | 0x42 => reserved w 0x003FFF (.cntrd p (field 32 w 19) (field 32 w 14))
  | 0x48 => reserved w 0x07FFFF (.rdstat p (field 32 w 19))
  | 0x49 => reserved w 0x07FFF0 (.rdspec p (field 32 w 19) (field 16 w 0))
  | 0x4A => reserved w 0xF83FF8 (.setrs p (field 32 w 14) (field 8 w 0))
  | _ => none

/-- A syllable of slot 1: address, load, generator, DMA and Hatch (R186). -/
def decodeSlot1 (p : CoreIx) (w : Word) : Option Instr :=
  match w.toNat / 2 ^ 24 with
  | 0x00 => reserved w 0xFFFFFF (.nop p 1 false)
  | 0x01 => reserved w 0x0F07FF (.amov p (field 16 w 20) (field 32 w 11))
  | 0x02 => reserved w 0x0F07FF (.amovh p (field 16 w 20) (field 32 w 11))
  | 0x03 => reserved w 0x0007FF (.aadd p (field 16 w 20) (field 16 w 16) (field 32 w 11))
  | 0x04 => reserved w 0x000000 (.aaddi p (field 16 w 20) (field 16 w 16) (w.extractLsb' 0 16))
  | 0x05 => reserved w 0x007FFF (.amovs p (field 32 w 19) (field 16 w 15))
  | 0x08 => reserved w 0x000000 (.vld p (field 32 w 19) (field 16 w 15) (w.getLsbD 14) (w.extractLsb' 0 14))
  | 0x09 => reserved w 0x000000 (.sld p (field 32 w 19) (field 16 w 15) (w.getLsbD 14) (w.extractLsb' 0 14))
  | 0x10 => reserved w 0x001FFF (.agset p (field 64 w 18) (field 32 w 13))
  | 0x11 => reserved w 0x000000 (.agseti p (field 64 w 18) (w.extractLsb' 0 18))
  | 0x12 => reserved w 0xFFFFFF (.aggo p)
  | 0x18 => reserved w 0x007FFF (.dmaq p (field 16 w 20) (field 32 w 15))
  | 0x19 => reserved w 0x00001F (.fill p (field 16 w 20) (field 32 w 15) (field 32 w 10) (field 32 w 5))
  | 0x1A => reserved w 0x00003F (.copy p (field 16 w 20) (field 16 w 16) (field 32 w 11) (field 32 w 6))
  | 0x20 => reserved w 0x00003F (.hopen p (field 16 w 20) (field 16 w 16) (field 32 w 11) (field 32 w 6))
  | 0x21 => reserved w 0x0FFFFF (.hclose p (field 16 w 20))
  | 0x22 => reserved w 0x0001FF (.hput p (field 32 w 19) (field 32 w 14) (field 32 w 9))
  | 0x28 => reserved w 0xFFFFFF (.pfence p)
  | _ => none

/-- A syllable of slot 2: matrix and store (R198). -/
def decodeSlot2 (p : CoreIx) (w : Word) : Option Instr :=
  match w.toNat / 2 ^ 24 with
  | 0x00 => reserved w 0xFFFFFF (.nop p 2 false)
  | 0x01 => reserved w 0x0003FF (.dload p (field 16 w 20) (w.extractLsb' 13 7) (field 4 w 11) (w.getLsbD 10))
  | 0x02 => reserved w 0xFFFFFF (.swap p)
  | 0x03 => reserved w 0x0001FF (.mma p (w.getLsbD 23) (w.getLsbD 22) (field 64 w 16) (w.extractLsb' 9 7))
  | 0x04 => reserved w 0x0007FF
      (.drain p (w.getLsbD 23) (field 4 w 21) (w.getLsbD 20) (field 16 w 16) (w.getLsbD 15) (field 16 w 11))
  | 0x05 => reserved w 0x00FFFF (.seteacc p (w.extractLsb' 16 8))
  | 0x06 => reserved w 0x0FFFFF (.setfmt p (w.extractLsb' 20 4))
  | 0x08 => reserved w 0x000000
      (.vst p (field 32 w 19) (field 16 w 15) (w.getLsbD 14) (field 8 w 11) (w.extractLsb' 0 11))
  | 0x09 => reserved w 0x000000 (.sst p (field 32 w 19) (field 16 w 15) (w.getLsbD 14) (w.extractLsb' 0 14))
  | _ => none

/-- A syllable of slot 3: vector (R201). -/
def decodeSlot3 (p : CoreIx) (w : Word) : Option Instr :=
  match w.toNat / 2 ^ 24 with
  | 0x00 => reserved w 0xFFFFFF (.nop p 3 false)
  | 0x01 => reserved w 0x00000F (.vadd p (field 4 w 4) (field 32 w 19) (field 32 w 14) (field 32 w 9) (field 8 w 6))
  | 0x02 => reserved w 0x00000F (.vsub p (field 4 w 4) (field 32 w 19) (field 32 w 14) (field 32 w 9) (field 8 w 6))
  | 0x03 => reserved w 0x00000F (.vmul p (field 4 w 4) (field 32 w 19) (field 32 w 14) (field 32 w 9) (field 8 w 6))
  | 0x04 => reserved w 0x00000F (.vfma p (field 4 w 4) (field 32 w 19) (field 32 w 14) (field 32 w 9) (field 8 w 6))
  | 0x05 => reserved w 0x00000F (.vmax p (field 4 w 4) (field 32 w 19) (field 32 w 14) (field 32 w 9) (field 8 w 6))
  | 0x06 => reserved w 0x00000F (.vmin p (field 4 w 4) (field 32 w 19) (field 32 w 14) (field 32 w 9) (field 8 w 6))
  | 0x07 => reserved w 0x003E0F (.vabs p (field 4 w 4) (field 32 w 19) (field 32 w 14) (field 8 w 6))
  | 0x08 => reserved w 0x003E0F (.vneg p (field 4 w 4) (field 32 w 19) (field 32 w 14) (field 8 w 6))
  | 0x09 => reserved w 0x00003F (.vand p (field 32 w 19) (field 32 w 14) (field 32 w 9) (field 8 w 6))
  | 0x0A => reserved w 0x00003F (.vor p (field 32 w 19) (field 32 w 14) (field 32 w 9) (field 8 w 6))
  | 0x0B => reserved w 0x00003F (.vxor p (field 32 w 19) (field 32 w 14) (field 32 w 9) (field 8 w 6))
  | 0x0C => reserved w 0x00003F (.vshl p (field 32 w 19) (field 32 w 14) (field 32 w 9) (field 8 w 6))
  | 0x0D => reserved w 0x00003E (.vshr p (w.getLsbD 0) (field 32 w 19) (field 32 w 14) (field 32 w 9) (field 8 w 6))
  | 0x10 => reserved w 0x180000
      (.vcmp p (field 4 w 4) (field 8 w 21) (field 32 w 14) (field 32 w 9) (field 8 w 6) (field 16 w 0))
  | 0x11 => reserved w 0x00003F (.vsel p (field 32 w 19) (field 32 w 14) (field 32 w 9) (field 8 w 6))
  | 0x12 => reserved w 0x003E3F (.vbcs p (field 32 w 19) (field 32 w 14) (field 8 w 6))
  | 0x13 => reserved w 0x003FC0 (.vlane p (field 32 w 19) (field 32 w 14) (field 64 w 0))
  | 0x14 => reserved w 0x003E00 (.vred p (field 4 w 4) (field 16 w 0) (field 32 w 19) (field 32 w 14) (field 8 w 6))
  | 0x18 => reserved w 0x003E00 (.vcvt p (field 8 w 3) (field 8 w 0) (field 32 w 19) (field 32 w 14) (field 8 w 6))
  | 0x19 => reserved w 0x000007 (.vrq p (field 32 w 19) (field 32 w 14) (field 32 w 9) (field 32 w 4) (w.getLsbD 3))
  | 0x1A => reserved w 0x003E00 (.vfq p (field 32 w 19) (field 32 w 14) (field 8 w 6) (field 16 w 2) (field 4 w 0))
  | 0x1B => reserved w 0x000007 (.vmxq p (field 32 w 19) (field 32 w 14) (field 32 w 9) (field 16 w 5) (field 4 w 3))
  | 0x1C => reserved w 0x000030
      (.vpack p (field 32 w 19) (field 32 w 14) (field 8 w 6) (field 16 w 0) (field 16 w 9) (w.getLsbD 13))
  | 0x20 => reserved w 0x003E3F (.vexp2 p (field 32 w 19) (field 32 w 14) (field 8 w 6))
  | 0x21 => reserved w 0x003E3F (.vlog2 p (field 32 w 19) (field 32 w 14) (field 8 w 6))
  | 0x22 => reserved w 0x003E3F (.vrcp p (field 32 w 19) (field 32 w 14) (field 8 w 6))
  | 0x23 => reserved w 0x003E3F (.vrsqrt p (field 32 w 19) (field 32 w 14) (field 8 w 6))
  | 0x24 => reserved w 0x003E3F (.vexp p (field 32 w 19) (field 32 w 14) (field 8 w 6))
  | 0x25 => reserved w 0x003E3F (.vsigm p (field 32 w 19) (field 32 w 14) (field 8 w 6))
  | 0x26 => reserved w 0x003E3F (.vtanh p (field 32 w 19) (field 32 w 14) (field 8 w 6))
  | 0x28 => reserved w 0x00003F (.v72add p (field 32 w 19) (field 32 w 14) (field 32 w 9) (field 8 w 6))
  | 0x29 => reserved w 0x00003C (.v72cvt p (field 32 w 19) (field 32 w 14) (field 32 w 9) (field 8 w 6) (field 4 w 0))
  | 0x2A => reserved w 0x00003F (.vfixsum p (field 32 w 19) (field 32 w 14) (field 32 w 9) (field 8 w 6))
  | 0x2B => reserved w 0x003FFF (.vexpmax p (field 32 w 19) (field 32 w 14))
  | 0x30 => reserved w 0x07FE3F (.vwld p (field 32 w 19) (field 8 w 6))
  | 0x31 => reserved w 0x07FE3F (.vpop p (field 32 w 19) (field 8 w 6))
  | _ => none
/-- The syllable of slot `k` that a word spells. An opcode that the slot does not define and a reserved bit that is set spell
one that raises ILLEGAL_ENCODING; reserved field values do so as they issue. -/
def decodeSyllable (p : CoreIx) (k : Fin 4) (w : Word) : Instr :=
  let i := match k with
    | 0 => decodeSlot0 p w
    | 1 => decodeSlot1 p w
    | 2 => decodeSlot2 p w
    | 3 => decodeSlot3 p w
  i.getD (.nop p k true)

/-! ### Bundles (R169) -/

/-- The word of slot `k` of a bundle. -/
def slotWord (b : BitVec 128) (k : Fin 4) : Word := b.extractLsb' (32 * k) 32

/-- The four syllables of a bundle, slot 0 first. -/
def decodeBundle (p : CoreIx) (b : BitVec 128) : List Instr :=
  [decodeSyllable p 0 (slotWord b 0), decodeSyllable p 1 (slotWord b 1), decodeSyllable p 2 (slotWord b 2),
   decodeSyllable p 3 (slotWord b 3)]

end Sys2Proof
end

