-- ==== Sys2Proof/Machine/Bits.lean ====
section
/-!
DEFINITION. Bit fields, sign extension, saturation and little-endian byte order (00_scope.md R21).
-/
namespace Sys2Proof

/-- Bits [hi:lo] of a word, as a number (R21). -/
def fld (w : Word) (hi lo : Nat) : Nat := (w.toNat >>> lo) % 2 ^ (hi - lo + 1)

/-- The word with bits [hi:lo] replaced by the low bits of `v` (R21). -/
def setFld (w : Word) (hi lo v : Nat) : Word :=
  let m := BitVec.ofNat 32 ((2 ^ (hi - lo + 1) - 1) <<< lo)
  (w &&& ~~~m) ||| (BitVec.ofNat 32 (v <<< lo) &&& m)

/-- Bit `i` of a word. -/
def bitOf (w : Word) (i : Nat) : Bool := w.getLsbD i

/-- The word with bit `i` set to `b`. -/
def setBit (w : Word) (i : Nat) (b : Bool) : Word := setFld w i i b.toNat

/-- Bits [hi:lo] of a natural number. -/
def nbits (n hi lo : Nat) : Nat := (n >>> lo) % 2 ^ (hi - lo + 1)

/-- The two's-complement reading of the low `w` bits of `n`. -/
def signed (w n : Nat) : Int :=
  let m := n % 2 ^ w
  if m < 2 ^ (w - 1) then (m : Int) else (m : Int) - (2 ^ w : Nat)

/-- The low `w` bits of an integer, as a natural number. -/
def wrap (w : Nat) (z : Int) : Nat := (z % ((2 ^ w : Nat) : Int)).toNat

/-- An integer clamped to [lo, hi]. -/
def clampInt (lo hi z : Int) : Int := if z < lo then lo else if hi < z then hi else z

/-- The ceiling of n / d. -/
def ceilDiv (n d : Nat) : Nat := (n + d - 1) / d

/-- One saturating count up to the width's largest value (R235, R303). -/
def satInc (w : Nat) {n : Nat} (v : BitVec n) (by_ : Nat) : BitVec n :=
  BitVec.ofNat n (min (2 ^ w - 1) (v.toNat + by_))

/-- The `n` bytes of a number, least significant first (R21). -/
def leBytes : Nat → Nat → List Byte
  | 0, _ => []
  | n + 1, v => BitVec.ofNat 8 v :: leBytes n (v / 256)

/-- The number that bytes spell, least significant first (R21). -/
def leNat : List Byte → Nat
  | [] => 0
  | b :: bs => b.toNat + 256 * leNat bs

/-- The number that bytes spell, most significant first (network order). -/
def beNat (bs : List Byte) : Nat := bs.foldl (fun acc b => acc * 256 + b.toNat) 0

/-- The `n` bytes of a number, most significant first (network order). -/
def beBytes (n v : Nat) : List Byte := (leBytes n v).reverse

/-- `n` bytes of a structure from offset `off`; bytes beyond its end read as zero. -/
def sliceBytes (bs : List Byte) (off n : Nat) : List Byte :=
  (List.range n).map fun i => bs.getD (off + i) 0

/-- The little-endian field of `n` bytes at `off` of a structure (R21, R22). -/
def leField (bs : List Byte) (off n : Nat) : Nat := leNat (sliceBytes bs off n)

/-- The network-order field of `n` bytes at `off`. -/
def beField (bs : List Byte) (off n : Nat) : Nat := beNat (sliceBytes bs off n)

/-- Whether `n` bytes at `off` are all zero (reserved fields, R26). -/
def zeroAt (bs : List Byte) (off n : Nat) : Bool := (sliceBytes bs off n).all (· == 0)

/-- The list with `new` written over it from index `off`; what lies beyond its end is dropped. -/
def overwrite {α : Type} (xs : List α) (off : Nat) (new : List α) : List α :=
  xs.take off ++ (new.take (xs.length - off)) ++ xs.drop (off + new.length)

end Sys2Proof
end

