-- ==== Sys2Proof/Machine/Float.lean ====
section
/-!
DEFINITION. Element formats, rounding and the exact arithmetic of 02_arithmetic.md: every finite value is an exact
dyadic, and each rule rounds where it says so and nowhere else.
-/
namespace Sys2Proof

/-! ### Rounding -/

/-- `m / 2^k` to the nearest integer, ties to even, on magnitudes (R73, R86). -/
def rneNat (m k : Nat) : Nat :=
  let f := m >>> k
  let rem := m % 2 ^ k
  if k = 0 then m
  else if rem > 2 ^ (k - 1) || (rem == 2 ^ (k - 1) && f % 2 == 1) then f + 1 else f

/-- `m / 2^k` to the nearest integer, ties to even (R73, round_half_even). -/
def rneInt (m : Int) (k : Nat) : Int :=
  if m < 0 then -(Int.ofNat (rneNat m.natAbs k)) else Int.ofNat (rneNat m.natAbs k)

/-- The rounding modes of Table "Rounding modes"; RSR carries its 24-bit draw (R86). -/
inductive RMode where
  | rne
  | rtz
  | rsr (u24 : Nat)
deriving DecidableEq, Repr

/-- The fraction of `m / 2^k`, truncated to 24 bits (R86). -/
def frac24 (m k : Nat) : Nat :=
  let f := m % 2 ^ k
  if 24 ≤ k then f >>> (k - 24) else f <<< (24 - k)

/-- A magnitude `m / 2^k` rounded to an integer under a mode (R86, float path). -/
def roundMag (mode : RMode) (m k : Nat) : Nat :=
  match mode with
  | .rne => rneNat m k
  | .rtz => m >>> k
  | .rsr u => (m >>> k) + (if 2 ^ 24 ≤ frac24 m k + u then 1 else 0)

/-- A magnitude `m * 2^e` on the grid `2^u`, rounded under a mode. -/
def gridMag (mode : RMode) (m : Nat) (e u : Int) : Nat :=
  if u ≤ e then m <<< (e - u).toNat else roundMag mode m (u - e).toNat

/-! ### Element formats (R63) -/

/-- A decoded matrix element: the value m * 2^e, or special (NaN or infinity), R63 and R65. -/
structure Elem where
  m : Int
  e : Int
  special : Bool
deriving DecidableEq, Repr

/-- A minifloat element with `eb` exponent bits, `mb` mantissa bits and exponent bias `bias`. -/
def decodeMini (eb mb bias raw : Nat) (special : Nat → Nat → Bool) : Elem :=
  let s := nbits raw (eb + mb) (eb + mb)
  let ex := (raw >>> mb) % 2 ^ eb
  let man := raw % 2 ^ mb
  let mag : Int := if ex = 0 then man else 2 ^ mb + man
  let e : Int := (if ex = 0 then 1 else (ex : Int)) - bias - mb
  ⟨if s = 1 then -mag else mag, e, special ex man⟩

/-- Decode an element under a format code of Table "Format codes" (R63, R168). FP32 and INT32 are no matrix
formats; their codes decode as special here and are refused before use (R200). -/
def decodeElem (fmt raw : Nat) : Elem :=
  match fmt with
  | 0 => ⟨signed 8 raw, 0, false⟩
  | 1 => ⟨(raw % 256 : Nat), 0, false⟩
  | 2 => ⟨signed 4 raw, 0, false⟩
  | 3 => ⟨(raw % 16 : Nat), 0, false⟩
  | 4 => decodeMini 4 3 7 raw fun ex man => ex == 15 && man == 7
  | 5 => decodeMini 5 2 15 raw fun ex _ => ex == 31
  | 6 => decodeMini 4 3 7 raw fun ex man => ex == 15 && man == 7
  | 7 => decodeMini 5 2 15 raw fun ex _ => ex == 31
  | 8 => decodeMini 2 3 1 raw fun _ _ => false
  | 9 => decodeMini 3 2 3 raw fun _ _ => false
  | 10 => decodeMini 2 1 1 raw fun _ _ => false
  | 11 => ⟨signed 8 raw, -6, false⟩
  | 12 => decodeMini 8 7 127 raw fun ex _ => ex == 255
  | 13 => decodeMini 5 10 15 raw fun ex _ => ex == 31
  | _ => ⟨0, 0, true⟩

/-- Whether a format code names a block-scaled format (R168). -/
def fmtIsMx (fmt : Nat) : Bool := decide (6 ≤ fmt) && decide (fmt ≤ 11)

/-- Bits of one element in storage under a format code (R66). -/
def fmtBits (fmt : Nat) : Nat :=
  match fmt with
  | 2 | 3 | 10 => 4
  | 8 | 9 => 6
  | 12 | 13 => 16
  | 14 | 15 => 32
  | _ => 8

/-- The operand class of Table "Operand pairs": 0 the 8-bit class, 1 the 4-bit class, 2 the 16-bit class, 3 none. -/
def fmtClass (fmt : Nat) : Nat :=
  match fmt with
  | 2 | 3 | 10 => 1
  | 12 | 13 => 2
  | 14 | 15 => 3
  | _ => 0

/-! ### Windowed Exact Accumulation (R71 to R84) -/

/-- One accumulator cell of one bank: 72 bits and a poison bit (R71). -/
structure Acc where
  a : BitVec 72
  poison : Bool
deriving DecidableEq, Repr

/-- A cleared cell. -/
def Acc.zero : Acc := ⟨0, false⟩

/-- The exact product of two elements rounded onto the grid 2^eacc (R68, R73). -/
def macQ (x y : Elem) (sx sy : Nat) (eacc : Int) : Int :=
  let m := x.m * y.m
  let sh : Int := x.e + y.e + sx + sy - 254 - eacc
  if 0 ≤ sh then m * (2 ^ sh.toNat : Nat) else rneInt m (-sh).toNat

/-- Add one product into a cell: the cell, and whether the product lay outside the 64-bit window (R65, R69, R73,
R74, R82). -/
def mac (c : Acc) (x y : Elem) (sx sy : Nat) (eacc : Int) : Acc × Bool :=
  if x.special || y.special || sx == 255 || sy == 255 then ({ c with poison := true }, false)
  else
    let q := macQ x y sx sy eacc
    ({ c with a := c.a + BitVec.ofInt 72 q }, decide (q < -(2 ^ 63 : Int)) || decide ((2 ^ 63 : Int) ≤ q))

/-- The negated value of a drain with its negate option (R78). -/
def Acc.neg (c : Acc) (neg : Bool) : Acc := if neg then { c with a := -c.a } else c

/-! ### ARITH_STATUS flags (R99) -/

/-- A set of ARITH_STATUS flags, in the bit places of the register. -/
abbrev AFlags := BitVec 7

def AFlags.accSat : AFlags := 1
def AFlags.accPoison : AFlags := 2
def AFlags.prodRange : AFlags := 4
def AFlags.rqSat : AFlags := 8
def AFlags.rqNan : AFlags := 16
def AFlags.vecInvalid : AFlags := 32
def AFlags.vecOvf : AFlags := 64

/-- A flag set that holds `f` when `b`. -/
def flagIf (b : Bool) (f : AFlags) : AFlags := if b then f else 0

/-! ### IEEE values (R93, R94) -/

/-- A floating value: NaN, an infinity, or the exact dyadic (-1)^neg * m * 2^e; zero keeps its sign. -/
inductive Fp where
  | nan
  | inf (neg : Bool)
  | fin (neg : Bool) (m : Nat) (e : Int)
deriving DecidableEq, Repr

/-- Decode an IEEE-shaped encoding with `eb` exponent and `mb` mantissa bits. -/
def fpDecode (eb mb raw : Nat) : Fp :=
  let neg := nbits raw (eb + mb) (eb + mb) == 1
  let ex := (raw >>> mb) % 2 ^ eb
  let man := raw % 2 ^ mb
  let bias : Int := (2 ^ (eb - 1) - 1 : Nat)
  if ex = 2 ^ eb - 1 then (if man = 0 then .inf neg else .nan)
  else if ex = 0 then .fin neg man (1 - bias - mb)
  else .fin neg (2 ^ mb + man) (ex - bias - mb)

def fp32 (w : Word) : Fp := fpDecode 8 23 w.toNat
def bf16 (n : Nat) : Fp := fpDecode 8 7 (n % 65536)
def fp16 (n : Nat) : Fp := fpDecode 5 10 (n % 65536)

/-- The exponent floor(log2) of a non-zero magnitude m * 2^e. -/
def magLog (m : Nat) (e : Int) : Int := (Nat.log2 m : Int) + e

/-- A magnitude rounded to `mb` fraction bits with least exponent `emin` (the exponent of the least bit of a
subnormal): the integer significand and its exponent. -/
def roundSig (mode : RMode) (mb : Nat) (emin : Int) (m : Nat) (e : Int) : Nat × Int :=
  if m = 0 then (0, emin)
  else
    let u := max (magLog m e - mb) emin
    let q := gridMag mode m e u
    if q = 2 ^ (mb + 1) then (2 ^ mb, u + 1) else (q, u)

/-- The encoding, without sign, of a rounded significand q * 2^u that fits the format. -/
def packMag (mb : Nat) (emin : Int) (q : Nat) (u : Int) : Nat :=
  if q < 2 ^ mb then q else ((u - emin + 1).toNat <<< mb) + (q - 2 ^ mb)

/-- The bits of a value in an IEEE-shaped format under RNE, canonical NaN, overflow to infinity: bits and
whether it overflowed (R93, R94). -/
def fpEncode (eb mb : Nat) (v : Fp) : Nat × Bool :=
  let sgn (neg : Bool) := if neg then 2 ^ (eb + mb) else 0
  let infBits := (2 ^ eb - 1) * 2 ^ mb
  match v with
  | .nan => (infBits + 2 ^ (mb - 1), false)
  | .inf neg => (sgn neg + infBits, false)
  | .fin neg m e =>
    let emin : Int := 2 - (2 ^ (eb - 1) : Nat) - mb
    let (q, u) := roundSig .rne mb emin m e
    let b := packMag mb emin q u
    if infBits ≤ b then (sgn neg + infBits, true) else (sgn neg + b, false)

/-- The canonical NaN of FP32 (R93). -/
def nan32 : Word := 0x7FC00000

/-- A result word and the flags that making it set. -/
abbrev Lane := Word × AFlags

/-- FP32 result of an exact value: bits and VEC_OVF (R93). -/
def toF32 (v : Fp) : Lane :=
  let (b, o) := fpEncode 8 23 v
  (BitVec.ofNat 32 b, flagIf o AFlags.vecOvf)

/-- BF16 result in bits [15:0] (R94). -/
def toB16 (v : Fp) : Lane :=
  let (b, o) := fpEncode 8 7 v
  (BitVec.ofNat 32 b, flagIf o AFlags.vecOvf)

def Fp.isNan : Fp → Bool
  | .nan => true
  | _ => false

/-- Signed mantissa of a finite value. -/
def sm (neg : Bool) (m : Nat) : Int := if neg then -(m : Int) else m

/-- The exact sum; an exact zero from non-zero terms is +0, equal signed zeros keep their sign (IEEE 754, R93). -/
def fpAdd : Fp → Fp → Fp
  | .nan, _ => .nan
  | _, .nan => .nan
  | .inf a, .inf b => if a = b then .inf a else .nan
  | .inf a, .fin .. => .inf a
  | .fin .., .inf b => .inf b
  | .fin na ma ea, .fin nb mb eb =>
    let e := min ea eb
    let z : Int := sm na (ma <<< (ea - e).toNat) + sm nb (mb <<< (eb - e).toNat)
    if z = 0 then .fin (na && nb) 0 e else .fin (decide (z < 0)) z.natAbs e

/-- The exact product (R93). -/
def fpMul : Fp → Fp → Fp
  | .nan, _ => .nan
  | _, .nan => .nan
  | .inf a, .inf b => .inf (a != b)
  | .inf a, .fin b m _ => if m = 0 then .nan else .inf (a != b)
  | .fin a m _, .inf b => if m = 0 then .nan else .inf (a != b)
  | .fin a ma ea, .fin b mb eb => .fin (a != b) (ma * mb) (ea + eb)

def fpNeg : Fp → Fp
  | .nan => .nan
  | .inf a => .inf (!a)
  | .fin a m e => .fin (!a) m e

/-- The exact fused multiply-add (R93). -/
def fpFma (x y z : Fp) : Fp := fpAdd (fpMul x y) z

/-- Whether a value is less than another; NaN compares false; -0 equals +0. -/
def fpLt : Fp → Fp → Bool
  | .nan, _ => false
  | _, .nan => false
  | .inf a, .inf b => a && !b
  | .inf a, .fin .. => a
  | .fin .., .inf b => !b
  | .fin na ma ea, .fin nb mb eb =>
    let e := min ea eb
    decide (sm na (ma <<< (ea - e).toNat) < sm nb (mb <<< (eb - e).toNat))

/-- Whether two values compare equal; NaN compares false. -/
def fpEq (x y : Fp) : Bool := !x.isNan && !y.isNan && !fpLt x y && !fpLt y x

def Fp.isNeg : Fp → Bool
  | .nan => false
  | .inf a => a
  | .fin a _ _ => a

/-- IEEE 754-2019 maximum, -0 below +0 (R93). -/
def fpMax (x y : Fp) : Fp :=
  if x.isNan || y.isNan then .nan
  else if fpLt x y then y else if fpLt y x then x else if x.isNeg then y else x

/-- IEEE 754-2019 minimum, -0 below +0 (R93). -/
def fpMin (x y : Fp) : Fp :=
  if x.isNan || y.isNan then .nan
  else if fpLt x y then x else if fpLt y x then y else if x.isNeg then x else y

/-- VEC_INVALID when the result is NaN and no input was (R93, R99). -/
def invalidFlag (inputs : List Fp) (r : Fp) : AFlags :=
  flagIf (r.isNan && !(inputs.any Fp.isNan)) AFlags.vecInvalid

/-! ### Drain forms (R77 to R80) -/

/-- The 64-bit value of a cell, and its flags: Table "Drain forms", I64. -/
def drainI64 (c : Acc) : BitVec 64 × AFlags :=
  let v := c.a.toInt
  if c.poison then (0x7FFFFFFFFFFFFFFF, AFlags.accPoison ||| AFlags.accSat)
  else if (2 ^ 63 : Int) ≤ v then (0x7FFFFFFFFFFFFFFF, AFlags.accSat)
  else if v < -(2 ^ 63 : Int) then (0x8000000000000000, AFlags.accSat)
  else (BitVec.ofInt 64 v, 0)

/-- An exact integer times 2^e as a value; zero is +0. -/
def fpOfInt (z e : Int) : Fp := .fin (decide (z < 0)) z.natAbs e

/-- Table "Drain forms", F32: the I64 result times 2^eacc, limited to the largest finite value. -/
def drainF32 (c : Acc) (eacc : Int) : Word × AFlags :=
  if c.poison then (nan32, AFlags.accPoison)
  else
    let (v, f) := drainI64 c
    let (b, o) := fpEncode 8 23 (fpOfInt v.toInt eacc)
    if o then ((if v.toInt < 0 then 0xFF7FFFFF else 0x7F7FFFFF), AFlags.accSat)
    else (BitVec.ofNat 32 b, f)

/-- F32I form: A itself times 2^eacc, infinity beyond the range, no ACC_SAT (R207). Whether an infinity sets VEC_OVF the
rule does not say; the model sets no flag (DESIGN CHOICE, log entry 99). -/
def drainF32I (c : Acc) (eacc : Int) : Word × AFlags :=
  if c.poison then (nan32, 0)
  else (BitVec.ofNat 32 (fpEncode 8 23 (fpOfInt c.a.toInt eacc)).1, 0)

/-- The P72 container of a cell (R79). -/
def container (c : Acc) : BitVec 128 :=
  BitVec.ofInt 128 ((c.a.toInt % ((2 ^ 120 : Nat) : Int)) + (if c.poison then ((2 ^ 120 : Nat) : Int) else 0))

/-- The cell that a container holds (R79). -/
def ofContainer (b : BitVec 128) : Acc := ⟨BitVec.ofNat 72 b.toNat, b.getLsbD 120⟩

/-! ### Requantisation (R85 to R90) -/

/-- The limits of an integer format code (R63). -/
def intLimits (fmt : Nat) : Int × Int :=
  match fmt with
  | 0 => (-128, 127)
  | 1 => (0, 255)
  | 2 => (-8, 7)
  | 3 => (0, 15)
  | _ => (-(2 ^ 31 : Int), 2 ^ 31 - 1)

/-- t / 2^sh rounded under a mode, integer path of Table "Rounding modes" (R86). -/
def roundInt (mode : RMode) (t : Int) (sh : Nat) : Int :=
  match mode with
  | .rne => rneInt t sh
  | .rtz => if t < 0 then -(Int.ofNat (t.natAbs >>> sh)) else Int.ofNat (t.natAbs >>> sh)
  | .rsr u =>
    let fl := Int.fdiv t ((2 ^ sh : Nat) : Int)
    let f := (t - fl * ((2 ^ sh : Nat) : Int)).toNat
    fl + (if 2 ^ 24 ≤ frac24 f sh + u then 1 else 0)

/-- Integer requantisation (R85): the output as a number and its flags. -/
def requantInt (mode : RMode) (x m : Int) (sh : Nat) (z : Int) (fmt : Nat) : Int × AFlags :=
  let q := roundInt mode (x * m) sh + z
  let (lo, hi) := intLimits fmt
  (clampInt lo hi q, flagIf (decide (q < lo) || decide (hi < q)) AFlags.rqSat)

/-- A floating value to an integer format, float path on the magnitude (R86, R87). -/
def floatToInt (mode : RMode) (v : Fp) (fmt : Nat) : Int × AFlags :=
  let (lo, hi) := intLimits fmt
  match v with
  | .nan => (0, AFlags.rqNan)
  | .inf neg => (if neg then lo else hi, AFlags.rqSat)
  | .fin neg m e =>
    let z := sm neg (gridMag mode m e 0)
    (clampInt lo hi z, flagIf (decide (z < lo) || decide (hi < z)) AFlags.rqSat)

/-- The shape of a minifloat output: exponent bits, mantissa bits, bias, and the encoding of the largest finite
magnitude (R63). -/
structure MiniFmt where
  eb : Nat
  mb : Nat
  bias : Nat
  maxMag : Nat
deriving DecidableEq, Repr

/-- The minifloat shape of a format code (R63, R168). -/
def miniFmt (fmt : Nat) : MiniFmt :=
  match fmt with
  | 4 | 6 => ⟨4, 3, 7, 0x7E⟩
  | 5 | 7 => ⟨5, 2, 15, 0x7B⟩
  | 8 => ⟨2, 3, 1, 0x1F⟩
  | 9 => ⟨3, 2, 3, 0x1F⟩
  | 10 => ⟨2, 1, 1, 0x7⟩
  | 12 => ⟨8, 7, 127, 0x7F7F⟩
  | 13 => ⟨5, 10, 15, 0x7BFF⟩
  | _ => ⟨8, 23, 127, 0x7F7FFFFF⟩

/-- A finite value in a minifloat shape, clamped to its largest magnitude: bits and whether it clamped (R87). -/
def packMini (mode : RMode) (f : MiniFmt) (neg : Bool) (m : Nat) (e : Int) : Nat × Bool :=
  let emin : Int := 1 - (f.bias : Int) - f.mb
  let (q, u) := roundSig mode f.mb emin m e
  let b := packMag f.mb emin q u
  let s := if neg then 2 ^ (f.eb + f.mb) else 0
  if f.maxMag < b then (s + f.maxMag, true) else (s + b, false)

/-- Float requantisation of one FP32 value to a format code (R87). -/
def requantFloat (mode : RMode) (v : Fp) (fmt : Nat) : Nat × AFlags :=
  if fmt ≤ 3 || fmt = 15 then
    let (z, f) := floatToInt mode v fmt
    (wrap (fmtBits fmt) z, f)
  else
    let f := miniFmt fmt
    let top := 2 ^ (f.eb + f.mb)
    let inf := (2 ^ f.eb - 1) * 2 ^ f.mb
    match v with
    | .nan => (if fmt = 4 then 0x7F else inf + 2 ^ (f.mb - 1), 0)
    | .inf neg =>
      if fmt = 4 then ((if neg then top else 0) + 0x7E, AFlags.rqSat)
      else ((if neg then top else 0) + inf, 0)
    | .fin neg m e =>
      let (b, c) := packMini mode f neg m e
      (b, flagIf c AFlags.rqSat)

/-- emax of a block-scaled output (R90). -/
def mxEmax (fmt : Nat) : Int :=
  match fmt with
  | 6 => 8
  | 7 => 15
  | 8 => 2
  | 9 => 4
  | 10 => 2
  | _ => 0

/-- The largest magnitude of a list of values: finite exponent of the largest, none when all are zero. -/
def maxLog : List Fp → Option Int
  | [] => none
  | .fin _ m e :: vs =>
    if m = 0 then maxLog vs
    else some (match maxLog vs with | none => magLog m e | some x => max x (magLog m e))
  | _ :: vs => maxLog vs

/-- One block-scaled output block (R89, R90): elements, scale byte, flags. `modes` gives each element's mode. -/
def requantMx (modes : List RMode) (vs : List Fp) (fmt : Nat) : List Nat × Nat × AFlags :=
  let isSpecial : Fp → Bool
    | .fin .. => false
    | _ => true
  if vs.any isSpecial then (vs.map fun _ => 0, 255, 0)
  else match maxLog vs with
    | none => (vs.map fun _ => 0, 0, 0)
    | some lg =>
      let raw := lg - mxEmax fmt + 127
      let scale := (clampInt 0 254 raw).toNat
      let one (mv : RMode × Fp) : Nat × Bool :=
        match mv.2 with
        | .fin neg m e =>
          let e' := e + 127 - scale
          if fmt = 11 then
            let z := sm neg (gridMag mv.1 m (e' + 6) 0)
            (wrap 8 (clampInt (-128) 127 z), decide (z < -128) || decide (127 < z))
          else packMini mv.1 (miniFmt fmt) neg m e'
        | _ => (0, false)
      let rs := (modes.zip vs).map one
      (rs.map Prod.fst, scale, flagIf (decide (254 < raw) && rs.any Prod.snd) AFlags.rqSat)

/-- An MX element with its scale converted to FP32 (R70). -/
def mxToF32 (fmt raw scale : Nat) : Lane :=
  let x := decodeElem fmt raw
  if x.special || scale = 255 then (nan32, 0) else toF32 (fpOfInt x.m (x.e + scale - 127))

/-! ### Shuffle (R91) -/

/-- One round: the words a and b under round constant k and rotation r. -/
def shuffleRound (ab : Word × Word) (kr : Word × Nat) : Word × Word :=
  let a := ab.1 + ab.2 + kr.1
  (a, ab.2.rotateLeft kr.2 ^^^ a)

/-- The counter-based random generator (R91). -/
def shuffle (seed step : DWord) (tid idx : Word) : Word :=
  let a := (seed.truncate 32 ^^^ idx) + step.truncate 32
  let b := ((seed >>> 32).truncate 32 ^^^ tid) + (step >>> 32).truncate 32
  let r := [((0x9E3779B9 : Word), 12), (0x3C6EF372, 8), (0xDAA66D2B, 20), (0x78DDE6E4, 16)].foldl shuffleRound (a, b)
  r.1 + r.2

/-- The 24-bit draw of RSR (R86). -/
def u24 (seed step : DWord) (tid idx : Word) : Nat := (shuffle seed step tid idx).toNat >>> 8

/-! ### Reductions (R95, R96) -/

/-- FP32 sum in the fixed pairwise tree of R95 over a power-of-two list, each addition rounded by `rnd`. -/
def treeSum (rnd : Fp → Lane) (dec : Word → Fp) : Nat → List Word → Lane
  | 0, xs => (xs.headD 0, 0)
  | n + 1, xs =>
    let h := 2 ^ n
    let rs := (List.range h).map fun i =>
      let x := dec (xs.getD i 0)
      let y := dec (xs.getD (i + h) 0)
      let z := fpAdd x y
      let (w, f) := rnd z
      (w, f ||| invalidFlag [x, y] z)
    let (r, f) := treeSum rnd dec n (rs.map Prod.fst)
    (r, rs.foldl (fun acc x => acc ||| x.2) f)

/-- The order-independent sum of R96. -/
def exactSum (vs : List Fp) : Fp :=
  let pos := vs.any fun v => v == .inf false
  let neg := vs.any fun v => v == .inf true
  if vs.any Fp.isNan || (pos && neg) then .nan
  else if pos then .inf false
  else if neg then .inf true
  else match maxLog vs with
    | none => .fin false 0 0
    | some lg =>
      let u := lg - 40
      let term : Fp → Int
        | .fin n m e => sm n (gridMag .rne m e u)
        | _ => 0
      let s : BitVec 72 := vs.foldl (fun (acc : BitVec 72) v => acc + BitVec.ofInt 72 (term v)) 0
      fpOfInt s.toInt u

end Sys2Proof
end

