-- ==== Sys2Proof/Machine/Memory.lean ====
section
/-!
DEFINITION. The on-chip memory: the Pantries of the 68 physical cores and the Loft as one byte-addressed store in
canonical form, with the error state of every 32-byte word (06_pantry_loft_gather.md R220, R228, R236, R240).
-/
namespace Sys2Proof.Machine

open Sys2Proof

/-- The states of Table "Word states" (R228). `single` is a word with one bit in error, which a read corrects. -/
inductive WState where
  | clean
  | single
  | uncorrectable
  | poisoned
deriving DecidableEq, Repr

/-- The on-chip memory: bytes by address, and word states by word index (address / 32). -/
structure Memory where
  cells : List Host.Cell
  words : Tbl WState
deriving DecidableEq, Repr

/-- What an unlisted byte reads as (log entry 4). -/
def byteDefault (_ : Nat) : Byte := 0

/-- What an unlisted word's state is (log entry 4). -/
def wordDefault (_ : Nat) : WState := .clean

/-- The memory with nothing listed. -/
def Memory.empty : Memory := ⟨[], []⟩

/-- The canonical form of the memory. -/
def Memory.wf (m : Memory) : Bool := Tbl.wf byteDefault m.cells && Tbl.wf wordDefault m.words

/-- Address of byte `b` of the Pantry of physical core `p` (R220). -/
def pantryAddr (p b : Nat) : Nat := p * 2 ^ 22 + b

/-- Address of byte 0 of Loft word `w` (R236). -/
def loftAddr (w : Nat) : Nat := 2 ^ 29 + 32 * w

/-- One byte as stored. -/
def Memory.byte (m : Memory) (a : Nat) : Byte := Tbl.get byteDefault m.cells a

/-- The state of the word that holds address `a`. -/
def Memory.state (m : Memory) (a : Nat) : WState := Tbl.get wordDefault m.words (a / 32)

/-- `n` bytes as stored from address `a`. -/
def Memory.bytes (m : Memory) (a n : Nat) : List Byte := (List.range n).map fun i => m.byte (a + i)

/-- A read of the word of `a` delivers poison (R228). -/
def WState.bad : WState → Bool
  | .uncorrectable => true
  | .poisoned => true
  | _ => false

/-- One write to the memory. -/
inductive MemWrite where
  /-- Bytes from an address; `poison` when the writer's data carries poison (R224, R228). -/
  | bytes (a : Nat) (bs : List Byte) (poison : Bool)
  /-- Bytes [lo, hi) return to zero with valid check bits (R233, R246). -/
  | clear (lo hi : Nat)
  /-- A word's state changes in place: an error appears or a scrub mends it (R230). -/
  | setState (word : Nat) (st : WState)
deriving DecidableEq, Repr

/-- The state of a word after a write that covers it wholly or in part: a whole word takes the state of the data, a merged
one keeps a poisoned state (R224). -/
def mergeState (old : WState) (whole poison : Bool) : WState :=
  if !whole && old.bad then old else if poison then .poisoned else .clean

/-- Write bytes at successive addresses. -/
def Memory.putBytes (m : Memory) (a : Nat) (bs : List Byte) : Memory :=
  { m with cells := Tbl.putAll byteDefault m.cells a bs }

/-- The word states after a write of `n` bytes at `a`. -/
def Memory.mergeWords (m : Memory) (a n : Nat) (poison : Bool) : Memory :=
  if n = 0 then m
  else
    let w0 := a / 32
    let w1 := (a + n - 1) / 32
    { m with words := (List.range (w1 + 1 - w0)).foldl (fun t i =>
        let w := w0 + i
        let whole := decide (a ≤ 32 * w) && decide (32 * w + 32 ≤ a + n)
        Tbl.upd wordDefault t w fun old => mergeState old whole poison) m.words }

/-- Make one write. -/
def Memory.apply (m : Memory) : MemWrite → Memory
  | .bytes a bs poison => (m.mergeWords a bs.length poison).putBytes a bs
  | .clear lo hi => { cells := Tbl.clear m.cells lo hi, words := Tbl.clear m.words (lo / 32) ((hi + 31) / 32) }
  | .setState w st => { m with words := Tbl.put wordDefault m.words w st }

/-- Make writes in order. -/
def Memory.applyAll (m : Memory) (ws : List MemWrite) : Memory := ws.foldl Memory.apply m

/-- The words of [a, a + n) in state `st`. -/
def Memory.countState (m : Memory) (a n : Nat) (st : WState) : Nat :=
  if n = 0 then 0
  else ((List.range ((a + n - 1) / 32 + 1 - a / 32)).filter fun i =>
    Tbl.get wordDefault m.words (a / 32 + i) == st).length

/-- Whether some word of [a, a + n) is in state `st`. -/
def Memory.anyState (m : Memory) (a n : Nat) (st : WState) : Bool := m.countState a n st != 0

/-- Whether a read of [a, a + n) delivers poison. -/
def Memory.anyBad (m : Memory) (a n : Nat) : Bool := m.anyState a n .uncorrectable || m.anyState a n .poisoned

end Sys2Proof.Machine
end

