-- ==== Sys2Proof/Machine/CoreState.lean ====
section
/-!
DEFINITION. What one physical core holds: the program-visible state of 05_core_program.md Table "Core state", its
queues, the matrix unit of 03_matrix_unit.md, and the address generator and Window Register of
04_convolution_and_operators.md.
-/
namespace Sys2Proof.Machine

open Sys2Proof

/-- A vector register: 64 lanes of 32 bits (R165). -/
abbrev Vec := List Word

/-- The vector of zeros. -/
def Vec.zero : Vec := List.replicate 64 0

/-- A loop stack entry: first bundle, last bundle, remaining count (R165). -/
structure LoopEntry where
  first : Nat
  last : Nat
  count : Nat
deriving DecidableEq, Repr

/-- The state codes of CORE_STATE.STATE (R219). -/
inductive CoreRun where
  | off
  | idle
  | issuing
  | waiting
  | halting
  | trapped
  | retired
deriving DecidableEq, Repr

/-- A queued load (R188): a vector or scalar destination, the physical byte offset and the issue cycle. -/
structure LoadEntry where
  vec : Bool
  reg : Nat
  addr : Nat
  cycle : Nat
deriving DecidableEq, Repr

/-- A queued store (R189): bytes to write, as runs of (physical byte offset, bytes), and the issue cycle. -/
structure StoreEntry where
  unit : Nat
  runs : List (Nat × List Byte)
  cycle : Nat
deriving DecidableEq, Repr

/-- What a core DMA queue entry is (R193, R194). -/
inductive DmaKind where
  /-- A DMAQ item with its captured 32-byte descriptor, and whether the capture read poison. -/
  | desc (d : List Byte) (poison : Bool)
  | fill (addr words : Nat) (v : Word)
  | copy (dst src words : Nat)
deriving DecidableEq, Repr

/-- An entry of the core DMA queue: its number, what it is, its counter, the bundle that queued it, whether it has
started, the bytes requested so far (of a FILL or COPY: the slot-5 cycles since its first access, 06 R227), and the byte
runs (offset, length) that have completed at the destination. -/
structure DmaEntry where
  id : Nat
  kind : DmaKind
  cnt : Nat
  pc : Nat
  started : Bool
  issued : Nat
  acked : List (Nat × Nat)
  /-- The item is paused on a translation fault (R216, R369). -/
  paused : Bool
  /-- Data read and not yet written or sent (offset, bytes, poison): of a COPY the chunks of the batch, of a transfer into
  the Pantry what waits for slot 5 (06 R225, R227), of TO_HATCH what has not left (R377). -/
  buf : List (Nat × List Byte × Bool)
  /-- TO_HATCH: pieces sent and not yet answered (R377). -/
  pieces : Nat
  /-- A GATHER item whose job has written its status (R261). -/
  jobDone : Bool
deriving DecidableEq, Repr

/-- An open or closed Hatch of a core (R195, R252, R258). -/
structure Hatch where
  isOpen : Bool
  /-- First physical word of the range. -/
  base : Nat
  words : Nat
  partner : Bool
  cnt : Nat
  gen : BitVec 8
  /-- Writes accepted under the current generation and not yet written. -/
  accepted : Nat
  /-- A close has begun: the logical cores whose replies are missing (64 stands for the Partner). -/
  closing : Bool
  awaiting : List Nat
deriving DecidableEq, Repr

/-- A closed Hatch of generation 0. -/
def Hatch.closed : Hatch := ⟨false, 0, 0, false, 0, 0, 0, false, []⟩

/-- A directory entry: the generation last announced and whether the Hatch is open (R252). -/
structure DirEntry where
  gen : BitVec 8
  isOpen : Bool
deriving DecidableEq, Repr

/-- The directory entry of a Hatch nothing has been announced for. -/
def DirEntry.none : DirEntry := ⟨0, false⟩

/-- Stochastic-rounding registers (R165, R205). -/
structure RsRegs where
  seed : DWord
  step : DWord
  tid : Word
  idxBase : Word
  idxStride : Word
deriving DecidableEq, Repr

/-! ### Matrix unit -/

/-- An entry of the Matrix Queue (R105, R199). -/
inductive MxOp where
  | dload (base rows width : Nat) (mx : Bool)
  | swap
  /-- MMA with the steps already started. -/
  | mma (bank : Bool) (clear : Bool) (j0 n started : Nat)
  | drain (bank : Bool) (form : Nat) (neg : Bool) (mask : Nat) (toPantry : Bool) (base : Nat)
  | setEacc (v : BitVec 8)
  | setFmt (v : BitVec 4)
deriving DecidableEq, Repr

/-- One Weight Deck of the four arrays: bytes and scale bytes, each with a poison mark (R104, R111, R121). -/
structure Deck where
  rows : Tbl (Byte × Bool)
  scales : Tbl (Byte × Bool)
deriving DecidableEq, Repr

/-- A Deck that holds zero (R109). -/
def Deck.zero : Deck := ⟨[], []⟩

/-- A Deck load that has been handed over (R107, R111, R112). -/
structure DloadJob where
  base : Nat
  rows : Nat
  width : Nat
  mx : Bool
  /-- Reduction indices per Deck row under the WFMT at handover (R111). -/
  perRow : Nat
  /-- Handed over in this cycle: it begins no earlier than the next (R112). -/
  fresh : Bool
  /-- The part of the image read so far, with poison marks: one 256-byte access in each cycle (R112). -/
  image : List (Byte × Bool)
  /-- Issued cycles since the load began (R112). -/
  cyc : Nat
deriving DecidableEq, Repr

/-- A drain that has been handed over (R107, R115). -/
structure DrainJob where
  bank : Bool
  form : Nat
  neg : Bool
  mask : Nat
  toPantry : Bool
  base : Nat
  /-- Rows read so far, in the order of R115. -/
  next : Nat
  /-- The second drain cycle of a P72 row is due. -/
  second : Bool
  /-- Handed over in this cycle: it reads no earlier than the next (R106, R119). -/
  fresh : Bool
deriving DecidableEq, Repr

/-- A drained row, or half of a P72 row, on its way (R115 to R117): its lanes, the physical byte offset of a Pantry
destination with the bytes it writes, and the cycles left until it is delivered. -/
structure DrainRow where
  lanes : Vec
  dest : Option Nat
  bytes : Nat
  left : Nat
deriving DecidableEq, Repr

/-- An element of an activation column or plane: raw encoding, scale byte, special by poison, and how it arose (R141). -/
inductive ElemKind where
  | stored
  | padding
  | inserted
deriving DecidableEq, Repr

/-- One element presented by the generator. -/
structure ColElem where
  raw : Nat
  scale : Nat
  bad : Bool
  kind : ElemKind
deriving DecidableEq, Repr

/-- A step in the arrays' pipeline (R100, R110, R123): its operands as taken and decoded in its start cycle. -/
structure StepFlight where
  bank : Bool
  clear : Bool
  eacc : BitVec 8
  afmt : Nat
  wfmt : Nat
  /-- The 64 rows' elements with their block scales, one or two reduction indices each. -/
  col : List (List (Elem × Nat))
  /-- Deck row: for each array and column, one or two (raw, scale, poison). -/
  wts : List (List (Nat × Nat × Bool))
  age : Nat
  passesLeft : Nat
deriving DecidableEq, Repr

/-- The stagger and ramp after a Cut release (R127): issued cycles since the release, and the window's first cycle. -/
structure Ramp where
  cycle : Nat
  windowAt : Option Nat
deriving DecidableEq, Repr

/-- The matrix unit of a core. -/
structure MatrixUnit where
  queue : List MxOp
  deck0 : Deck
  deck1 : Deck
  /-- true when D1 is active. -/
  activeD1 : Bool
  shadowOk : Bool
  loadRun : Option DloadJob
  loadPend : Option DloadJob
  drainRun : Option DrainJob
  drainPend : Option DrainJob
  rowsOut : List DrainRow
  /-- Rows delivered at the end of this cycle: in the Drain Queue from the next (05 R203). -/
  landed : List Vec
  drainQueue : List Vec
  flights : List StepFlight
  acc : Tbl Acc
  /-- E_acc latched for T0 and T1 (R71). -/
  latch0 : BitVec 8
  latch1 : BitVec 8
  eacc : BitVec 8
  wfmt : BitVec 4
  ramp : Option Ramp
  /-- What has happened in this issued cycle: the arrays' state has been decided (R122); the last step of an MMA has
  started, so that the third pass of R106 goes on; the drainer has read (R115); the bank that a step has written
  (R119); a DLOAD has completed (R112). -/
  cycled : Bool
  pass3 : Bool
  drained : Bool
  wrote : Option Bool
  loaded : Bool
  active : DWord
  frzFeed : DWord
  frzDeck : DWord
  frzBank : DWord
  frzDrain : DWord
  frzRamp : DWord
  hold : DWord
  /-- Negate mode of a Redeal copy: weights and drains are negated (12 R498). -/
  negate : Bool
deriving DecidableEq, Repr

/-- The matrix unit as the Caller sets it before a kernel (R109); counters as given. -/
def MatrixUnit.zero : MatrixUnit :=
  { queue := [], deck0 := Deck.zero, deck1 := Deck.zero, activeD1 := false, shadowOk := false, loadRun := none,
    loadPend := none, drainRun := none, drainPend := none, rowsOut := [], landed := [], drainQueue := [], flights := [],
    acc := [], latch0 := 0, latch1 := 0, eacc := 0, wfmt := 0, ramp := none, cycled := false, pass3 := false,
    drained := false, wrote := none, loaded := false, active := 0, frzFeed := 0, frzDeck := 0, frzBank := 0,
    frzDrain := 0, frzRamp := 0, hold := 0, negate := false }

/-- The matrix unit with everything but its counters as before a kernel: the counters go on (R109, R134). -/
def MatrixUnit.cleared (m : MatrixUnit) : MatrixUnit :=
  { MatrixUnit.zero with
    active := m.active, frzFeed := m.frzFeed, frzDeck := m.frzDeck, frzBank := m.frzBank, frzDrain := m.frzDrain,
    frzRamp := m.frzRamp, hold := m.hold }

/-! ### Address generator and Window Register -/

/-- A plane of the Window Register (R148 to R151): its place in the walk, issued cycles since its load began, the words
read so far as the Pantry gave them, and once it is ready its elements by position, one per lane. -/
structure Plane where
  index : Nat
  cyc : Nat
  words : Memory
  ready : Bool
  elems : List (List ColElem)
deriving DecidableEq, Repr

/-- A walk in progress (R192): the next plane to load, the two planes, the next column of the front plane, and the
plane after which the count column of R626 is due. -/
structure Walk where
  nextLoad : Nat
  front : Option Plane
  back : Option Plane
  col : Nat
  avgDue : Option Nat
deriving DecidableEq, Repr

/-! ### The core -/

/-- A Pantry write made in the cycle at issue, which takes effect at its end (06 R223): slot, physical byte offset, bytes,
whether they carry poison. -/
structure PantryWrite where
  slot : Nat
  addr : Nat
  data : List Byte
  poison : Bool
deriving DecidableEq, Repr

/-- A core that waits at a barrier (05 R182): the barrier, whether it spans the Partnership, the core's clock when it
arrived, and the clock of the release once that is set. -/
structure CutWait where
  id : Nat
  x : Bool
  arrived : Nat
  release : Option Nat
deriving DecidableEq, Repr

/-- A Hatch write in the arrival buffer (R226, R255): where its bytes go, the Hatch and the generation that accepted
it, and whom its answer goes to: mesh stop, HPUT counter, DMA entry, context, generation. -/
structure Arrival where
  addr : Nat
  data : List Byte
  /-- The poison of each 32-byte word. -/
  poison : List Bool
  hatch : Nat
  gen : BitVec 8
  src : Nat
  hput : Option Nat
  item : Nat
  ctx : Nat
  ctxGen : Nat
deriving DecidableEq, Repr

/-- Everything one core holds that a bundle can read or change. -/
structure CoreBody where
  run : CoreRun
  /-- CORE_CTX: valid, logical index, partition, generation, context (R219). -/
  ctx : Word
  detm : Bool
  s : Tbl Word
  a : Tbl (BitVec 48)
  v : Tbl Vec
  p : Tbl (BitVec 64)
  cnt : Tbl Word
  pc : Nat
  loops : List LoopEntry
  rets : List Nat
  rs : RsRegs
  hatches : Tbl Hatch
  dir : Tbl DirEntry
  gen : Tbl Word
  walk : Option Walk
  /-- First cycle in which a register's pending result may be read, by register key (R173). -/
  ready : Tbl Nat
  /-- Registers that a queued load will write (R188). -/
  loading : List Nat
  /-- Issued cycles since kernel start (R171, R175), and hold cycles since then. -/
  cycle : Nat
  held : Nat
  /-- The cycle at issue is the one that a taken branch or a skipped loop costs (R176, R177). -/
  dead : Bool
  /-- Pantry writes of the cycle at issue. -/
  writes : List PantryWrite
  loadQ : List LoadEntry
  storeQ : List StoreEntry
  /-- Cycle of the last load access; cycle and unit of the last store access. -/
  lastLoad : Option Nat
  lastStore : Option (Nat × Nat)
  dmaQ : List DmaEntry
  dmaNext : Nat
  /-- Counters of HPUTs that await their acknowledgement. -/
  hputs : List Nat
  mx : MatrixUnit
  pbase : Nat
  pbound : Nat
  ibase : Nat
  ibound : Nat
  /-- The Instruction Store: bundles by physical index (R169). -/
  istore : Tbl (BitVec 128)
  /-- Bundles of the region, by offset, whose SEC-DED word is uncorrectable (R169, R213). -/
  isBad : List Nat
  trapCause : Word
  trapAddr : Word
  retired : DWord
  tricks : DWord
  waitInfo : Word
  waitThresh : Word
  /-- The bundle at issue stalls on a full core DMA queue (09 R370). -/
  dmaStop : Bool
  flags : BitVec 4
  arith : AFlags
  /-- ARITH_STATUS as it stood when the issued cycle began, which RDSTAT reads (R175). -/
  arithSeen : AFlags
  /-- The barrier at which the core has arrived (R182). -/
  cut : Option CutWait
  /-- Arrival buffer of slot 6 (R226). -/
  arrivals : List Arrival
deriving DecidableEq, Repr

/-- A core that is powered down or before repair, with every register zero (log entry 3). -/
def CoreBody.reset : CoreBody :=
  { run := .off, ctx := 0, detm := false, s := [], a := [], v := [], p := [], cnt := [], pc := 0, loops := [],
    rets := [], rs := ⟨0, 0, 0, 0, 0⟩, hatches := [], dir := [], gen := [], walk := none, ready := [], loading := [],
    cycle := 0, held := 0, dead := false, writes := [], loadQ := [], storeQ := [], lastLoad := none, lastStore := none, dmaQ := [], dmaNext := 0, hputs := [],
    mx := MatrixUnit.zero, pbase := 0, pbound := 0, ibase := 0, ibound := 0, istore := [], isBad := [], trapCause := 0, trapAddr := 0,
    retired := 0, tricks := 0, waitInfo := 0, waitThresh := 0, dmaStop := false, flags := 0, arith := 0, arithSeen := 0, cut := none, arrivals := [] }

/-- What a syllable sends out of its core when its bundle issues. -/
inductive CoreOut where
  /-- HPUT: target word Ss, counter, the 256 bytes (R197). -/
  | hput (s : Word) (cnt : Nat) (data : List Byte)
  /-- A DMAQ has captured the descriptor at a physical byte offset (R193). -/
  | captured (addr : Nat)
  /-- OPEN notices for a Hatch (R252). -/
  | opened (h : Nat)
  /-- CLOSE notices for a Hatch (R258). -/
  | closing (h : Nat)
  /-- Arrival at a Cut: barrier and x (R182). -/
  | cut (id : Nat) (x : Bool)
  /-- The core has halted (R185). -/
  | halted
  /-- A WAITG has passed: stream and parity (12 R506). -/
  | gated (stream par : Nat)
  /-- A precise trap: slot and code (R214). -/
  | trapped (slot code : Nat)
deriving DecidableEq, Repr

/-- A trap found while a bundle is checked: slot, code, TRAP_ADDR (R213, R214). -/
structure TrapInfo where
  slot : Nat
  code : Nat
  addr : Word
deriving DecidableEq, Repr

/-- The control transfer a bundle asks for. -/
inductive Transfer where
  | none
  /-- A taken BR: the target, and it pops loops that it leaves (R177). -/
  | branch (target : Nat)
  /-- A CALLB to a target (R177). -/
  | call (target : Nat)
  /-- A RETB to a target (R177). -/
  | ret (target : Nat)
  /-- A loop opened with a non-zero count. -/
  | loop (e : LoopEntry)
  /-- A loop with count zero: skip its body. -/
  | skip (target : Nat)
deriving DecidableEq, Repr

/-- A bundle whose syllables are arriving in slot order: what the core held before it, the next slot, and what was
found so far. -/
structure Bundle where
  before : CoreBody
  next : Nat
  /-- Destination registers so far: key, slot, latency. -/
  dests : List (Nat × Nat × Nat)
  traps : List TrapInfo
  stall : Bool
  dmaStop : Bool
  /-- Conditions of the wait syllables so far: none, or whether all hold. -/
  wait : Option Bool
  wheel : Bool
  waitInfo : Word
  waitThresh : Word
  transfer : Transfer
  early : List CoreOut
  outs : List CoreOut
deriving DecidableEq, Repr

/-- A physical core: its body and the bundle at issue, if one has begun. -/
structure Core where
  body : CoreBody
  bundle : Option Bundle
deriving DecidableEq, Repr

/-- What the core holds, without the effects of a bundle whose fourth syllable has not come. -/
def Core.whole (c : Core) : CoreBody :=
  match c.bundle with
  | some d => d.before
  | none => c.body

/-- A core after reset. -/
def Core.reset : Core := ⟨CoreBody.reset, none⟩

end Sys2Proof.Machine
end

