-- ==== Sys2Proof/Machine/Operands.lean ====
section
/-!
DEFINITION. Every operand form of a syllable: the register files with their hard-wired registers, Pantry addresses
with base and bound, and the memory a unit reaches (05_core_program.md R166, R187, R209).
-/
namespace Sys2Proof.Machine

open Sys2Proof

/-! ### Register keys, for the scoreboard and for BUNDLE_CONFLICT (R173, R174) -/

def keyS (r : Nat) : Nat := r
def keyA (r : Nat) : Nat := 32 + r
def keyV (r : Nat) : Nat := 48 + r
def keyP (r : Nat) : Nat := 80 + r
def keyC (r : Nat) : Nat := 96 + r
def keyRS (sel : Nat) : Nat := 128 + sel

/-! ### Register files (R165, R166) -/

/-- Scalar register r; S0 reads as zero (R166). -/
def CoreBody.sr (b : CoreBody) (r : Nat) : Word := if r = 0 then 0 else Tbl.get (fun _ => 0) b.s r

/-- Write a scalar register; a write to S0 is discarded (R166). -/
def CoreBody.setS (b : CoreBody) (r : Nat) (v : Word) : CoreBody :=
  if r = 0 then b else { b with s := Tbl.put (fun _ => 0) b.s r v }

/-- Address register r (R165). -/
def CoreBody.ar (b : CoreBody) (r : Nat) : BitVec 48 := Tbl.get (fun _ => 0) b.a r

def CoreBody.setA (b : CoreBody) (r : Nat) (v : BitVec 48) : CoreBody :=
  { b with a := Tbl.put (fun _ => 0) b.a r v }

/-- Vector register r (R165). -/
def CoreBody.vr (b : CoreBody) (r : Nat) : Vec := Tbl.get (fun _ => Vec.zero) b.v r

def CoreBody.setV (b : CoreBody) (r : Nat) (x : Vec) : CoreBody :=
  { b with v := Tbl.put (fun _ => Vec.zero) b.v r x }

/-- Lane i of a vector. -/
def Vec.lane (x : Vec) (i : Nat) : Word := x.getD i 0

/-- The vector whose lane i is f i. -/
def Vec.tab (f : Nat → Word) : Vec := (List.range 64).map f

/-- Predicate register r; P0 reads as all ones (R166). -/
def CoreBody.pr (b : CoreBody) (r : Nat) : BitVec 64 :=
  if r = 0 then BitVec.allOnes 64 else Tbl.get (fun _ => 0) b.p r

/-- Write a predicate register; a write to P0 is discarded (R166). -/
def CoreBody.setP (b : CoreBody) (r : Nat) (v : BitVec 64) : CoreBody :=
  if r = 0 then b else { b with p := Tbl.put (fun _ => 0) b.p r v }

/-- Arrival counter c (R178). -/
def CoreBody.cr (b : CoreBody) (c : Nat) : Word := Tbl.get (fun _ => 0) b.cnt c

def CoreBody.setC (b : CoreBody) (c : Nat) (v : Word) : CoreBody :=
  { b with cnt := Tbl.put (fun _ => 0) b.cnt c v }

/-- One arrival on counter c, modulo 2^32 (R178, R179). -/
def CoreBody.countC (b : CoreBody) (c n : Nat) : CoreBody := b.setC c (b.cr c + BitVec.ofNat 32 n)

/-- A counter reaches a threshold (R178). -/
def reaches (cnt threshold : Word) : Bool := decide ((cnt - threshold).toNat < 2 ^ 31)

/-- Hatch h of the core (R165). -/
def CoreBody.hatch (b : CoreBody) (h : Nat) : Hatch := Tbl.get (fun _ => Hatch.closed) b.hatches h

def CoreBody.setHatch (b : CoreBody) (h : Nat) (x : Hatch) : CoreBody :=
  { b with hatches := Tbl.put (fun _ => Hatch.closed) b.hatches h x }

/-- Directory entry k (R252): key 16 * core + h for the engine's cores, 1024 + that for the Partner's, 2048 + h for a
Loft Hatch. -/
def CoreBody.dirAt (b : CoreBody) (k : Nat) : DirEntry := Tbl.get (fun _ => DirEntry.none) b.dir k

def CoreBody.setDir (b : CoreBody) (k : Nat) (e : DirEntry) : CoreBody :=
  { b with dir := Tbl.put (fun _ => DirEntry.none) b.dir k e }

/-- Generator field i (R191). -/
def CoreBody.field (b : CoreBody) (i : Nat) : Nat := (Tbl.get (fun _ => (0 : Word)) b.gen i).toNat

/-- The kernel's logical core index, partition and context, from CORE_CTX (R219). -/
def CoreBody.logical (b : CoreBody) : Nat := fld b.ctx 25 20
def CoreBody.part (b : CoreBody) : Nat := fld b.ctx 19 16
def CoreBody.genOf (b : CoreBody) : Nat := fld b.ctx 15 12
def CoreBody.ctxId (b : CoreBody) : Nat := fld b.ctx 11 0
def CoreBody.loaded (b : CoreBody) : Bool := bitOf b.ctx 31

/-- Whether a core issues bundles: a kernel runs on it and it has neither halted nor trapped. -/
def CoreBody.canIssue (b : CoreBody) : Bool :=
  b.run == .issuing || b.run == .waiting || b.run == .halting

/-- The core's clock: CCLK cycles since its kernel started, issued and hold (R171). Every core of a kernel starts in the
same cycle, so the clocks of its cores count the same cycles (log entry 98). -/
def CoreBody.clock (b : CoreBody) : Nat := b.cycle + b.held

/-! ### Pantry addresses (R187, R209, R211) -/

/-- The trap codes of Table "Trap causes". -/
def trapIllegal : Nat := 0x01
def trapConflict : Nat := 0x02
def trapIsBound : Nat := 0x03
def trapPantryBound : Nat := 0x04
def trapGranule : Nat := 0x05
def trapMisaligned : Nat := 0x06
def trapAgParam : Nat := 0x07
def trapMatrix : Nat := 0x08
def trapRange : Nat := 0x09
def trapStack : Nat := 0x0A
def trapGate : Nat := 0x0B
def trapHatch : Nat := 0x0C
def trapDrainEmpty : Nat := 0x0D
def trapCopyOverlap : Nat := 0x0E
def trapCutAbandoned : Nat := 0x0F
def trapIsEcc : Nat := 0x10

/-- Whether `n` bytes at region offset `off` lie within the bound (R209); an address register's bits [47:22] must be
zero (R166). -/
def CoreBody.inBound (b : CoreBody) (off n : Nat) : Bool :=
  decide (off < 2 ^ 22) && decide (off + n ≤ 32 * b.pbound)

/-- The physical byte of the Pantry that a region offset reaches (R209). -/
def CoreBody.phys (b : CoreBody) (off : Nat) : Nat := 32 * b.pbase + off

/-- Whether every granule that the physical bytes [a, a + n) reach is powered, given the UP bits (R211). -/
def granulesUp (up : Nat) (a n : Nat) : Bool :=
  n == 0 || ((List.range ((a + n - 1) / 2 ^ 18 + 1 - a / 2 ^ 18)).all fun i => up.testBit (a / 2 ^ 18 + i))

/-- The traps of an access of `n` bytes at region offset `off` with alignment `al`: bound, granule, alignment, each
with the byte offset in TRAP_ADDR (R187, R209, R211, R214). -/
def CoreBody.accessTraps (b : CoreBody) (up off n al : Nat) : List (Nat × Word) :=
  let w := BitVec.ofNat 32 off
  (if b.inBound off n then
      (if granulesUp up (b.phys off) n then [] else [(trapGranule, w)])
    else [(trapPantryBound, w)]) ++
  (if off % al = 0 then [] else [(trapMisaligned, w)])

/-- An address register plus a signed displacement, modulo 2^48 (R186). -/
def addrPlus (a : BitVec 48) (d : Int) : BitVec 48 := a + BitVec.ofInt 48 d

end Sys2Proof.Machine
end

