-- ==== Sys2Proof/Machine/DmaDesc.lean ====
section
/-!
DEFINITION. Core DMA descriptors: their fields and checks, and where each byte of a transfer lies
(09_translation_dma_memory_ports.md R376; 06_pantry_loft_gather.md R237, R241).
-/
namespace Sys2Proof.Machine

open Sys2Proof

/-- Words per way. -/
def wayWords : Nat := 8192

/-- A core DMA descriptor (Table "Core DMA descriptor"). -/
structure Desc where
  kind : Nat
  flags : Nat
  rows : Nat
  rowBytes : Nat
  memVa : Nat
  pantry : Nat
  loft : Nat
  srcPitch : Nat
  dstPitch : Nat
deriving DecidableEq, Repr

def descOf (d : List Byte) : Desc :=
  { kind := leField d 0 1, flags := leField d 1 1, rows := leField d 2 2, rowBytes := leField d 4 4,
    memVa := leField d 8 8, pantry := leField d 16 4, loft := leField d 20 4, srcPitch := leField d 24 4,
    dstPitch := leField d 28 4 }

def Desc.cache (d : Desc) : Bool := d.flags.testBit 0
def Desc.srcPantry (d : Desc) : Bool := d.flags.testBit 1
def Desc.total (d : Desc) : Nat := d.rows * d.rowBytes

/-- The descriptor names a memory side: kinds 0, 1, 4, 5, and TO_HATCH from memory. -/
def Desc.hasMem (d : Desc) : Bool := d.kind == 0 || d.kind == 1 || d.kind == 4 || d.kind == 5 || (d.kind == 6 && !d.srcPantry)

/-- The descriptor names a Pantry side. -/
def Desc.hasPantry (d : Desc) : Bool := decide (d.kind ≤ 3) || (d.kind == 6 && d.srcPantry) || d.kind == 7

/-- Whether a descriptor passes the checks of R376. DEDUCED (log 43): SRC_PANTRY and LOFT, which the table defines for some
kinds only, are zero in the others. -/
def Desc.ok (d : Desc) : Bool :=
  let al := if d.kind = 6 then 256 else 32
  decide (d.kind ≤ 7) && decide (d.flags < 4) && (!d.srcPantry || d.kind == 6) &&
  decide (d.pantry < 2 ^ 22) &&
  (if d.kind = 7 then
    d.flags == 0 && d.rows == 0 && d.rowBytes == 0 && d.memVa == 0 && d.loft == 0 && d.srcPitch == 0 &&
      d.dstPitch == 0 && d.pantry % 128 == 0
  else
    d.pantry % 32 == 0 && decide (d.rowBytes < 2 ^ 24) && d.rowBytes % al == 0 && decide (d.memVa < 2 ^ 48) && d.memVa % 32 == 0 &&
      (d.hasMem || d.memVa == 0) && d.srcPitch % 32 == 0 && d.dstPitch % al == 0 &&
      (if 2 ≤ d.kind && d.kind ≤ 5 then decide (d.loft < 2 ^ 21)
       else if d.kind = 6 then nbits d.loft 15 6 == 0 && nbits d.loft 31 29 == 0 && nbits d.loft 28 16 % 8 == 0
       else d.loft == 0))

/-- Byte offset of transfer byte `o` from the first byte of a side with a pitch. -/
def Desc.at_ (d : Desc) (pitch o : Nat) : Nat := o / d.rowBytes * pitch + o % d.rowBytes

/-- Bytes from the first to the last of a side (R376). -/
def Desc.extent (d : Desc) (pitch : Nat) : Nat := (d.rows - 1) * pitch + d.rowBytes

/-- The pitch of the Pantry side: the source's when it is the source. -/
def Desc.pantryPitch (d : Desc) : Nat := if d.kind = 0 ∨ d.kind = 2 then d.dstPitch else d.srcPitch

/-- The memory address and the Loft word of transfer byte `o`. -/
def Desc.va (d : Desc) (o : Nat) : Nat :=
  (d.memVa + d.at_ (if d.kind = 1 ∨ d.kind = 5 then d.dstPitch else d.srcPitch) o) % 2 ^ 48

def Desc.loftWord (d : Desc) (o : Nat) : Nat :=
  d.loft % 2 ^ 21 + d.at_ (if d.kind = 3 ∨ d.kind = 4 then d.dstPitch else d.srcPitch) o / 32

/-- Bytes of the piece at `o`: within a row; on the memory side within a 256-byte block, and within a line when the read
may use the cache (R241, R355); on the Loft side 128 words within one way (R237). -/
def Desc.piece (d : Desc) (o : Nat) : Nat :=
  let row := d.rowBytes - o % d.rowBytes
  let mem := if d.hasMem then 256 - d.va o % 256 else row
  let line := if d.cache && (d.kind == 0 || d.kind == 4 || (d.kind == 6 && !d.srcPantry)) then 128 - d.va o % 128 else row
  let loft := if 2 ≤ d.kind ∧ d.kind ≤ 5 then 32 * min 128 (wayWords - d.loftWord o % wayWords) else row
  min (min row mem) (min line loft)

/-! ### Entries of a core's queue -/

def CoreBody.dma (b : CoreBody) (id : Nat) : Option DmaEntry := b.dmaQ.find? fun x => x.id == id

def CoreBody.updDma (b : CoreBody) (id : Nat) (f : DmaEntry → DmaEntry) : CoreBody :=
  { b with dmaQ := b.dmaQ.map fun x => if x.id = id then f x else x }

/-- The descriptor of an entry that carries one. -/
def DmaEntry.desc (x : DmaEntry) : Option Desc :=
  match x.kind with
  | .desc d _ => some (descOf d)
  | _ => none

/-- Physical Pantry byte of transfer byte `o`. -/
def CoreBody.dmaByte (b : CoreBody) (d : Desc) (o : Nat) : Nat := b.phys (d.pantry + d.at_ d.pantryPitch o)

end Sys2Proof.Machine
end

