-- ==== Sys2Proof/Config.lean ====
section
/-!
DEFINITION. Free values: constants without a body, so that no proof can lean on what they are (log entry 5). Each is
used where the spec leaves a value open and the machine goes on.
-/
namespace Sys2Proof.Config

/-- The n-th open value that a step meets: applied to the counter `Hw.free` of the state. -/
opaque freeValue : Nat → BitVec 64

/-- TARGET (bits 7 to 0) and HATCH (bits 15 to 8) by which the HTP frames of Loft Hatch `n` name it: Table "HTP types" has a
logical core and one of its sixteen Hatches there and says nothing of a Loft Hatch (log entry 102). -/
opaque loftTarget : Nat → BitVec 16

end Sys2Proof.Config
end

