-- ==== Sys2Proof/Machine/Crc.lean ====
section
/-!
DEFINITION. The CRC-32 of 06_pantry_loft_gather.md R248 (IEEE 802.3) and the CRC-16 of LPI packets
(07_streams_and_line_lock.md R277), and the CRC-64 of the Tally (15_coffer_boot_configuration.md R601).
-/
namespace Sys2Proof

/-- One bit of the reflected CRC-32. -/
def crc32Bit (c : Word) : Word := if c.getLsbD 0 then (c >>> 1) ^^^ 0xEDB88320 else c >>> 1

/-- One byte of the reflected CRC-32. -/
def crc32Byte (c : Word) (b : Byte) : Word :=
  (List.range 8).foldl (fun c _ => crc32Bit c) (c ^^^ b.zeroExtend 32)

/-- The running CRC-32 before its final XOR. -/
def crc32Run (c : Word) (bs : List Byte) : Word := bs.foldl crc32Byte c

/-- CRC-32 of bytes (R248): initial value and final XOR all ones. -/
def crc32 (bs : List Byte) : Word := crc32Run 0xFFFFFFFF bs ^^^ 0xFFFFFFFF

/-- One bit of the CRC-16 of R277: polynomial 0x1021, most significant bit first. -/
def crc16Bit (c : Half) : Half := if c.getLsbD 15 then (c <<< 1) ^^^ 0x1021 else c <<< 1

/-- CRC-16 of bytes, from 0xFFFF (R277). -/
def crc16 (bs : List Byte) : Half :=
  bs.foldl (fun c b => (List.range 8).foldl (fun c _ => crc16Bit c) (c ^^^ ((b.zeroExtend 16 : Half) <<< (8 : Nat)))) 0xFFFF

/-- One bit of the reflected CRC-64, polynomial 0x42F0_E1EB_A9EA_3693. -/
def crc64Bit (c : DWord) : DWord := if c.getLsbD 0 then (c >>> 1) ^^^ 0xC96C5795D7870F42 else c >>> 1

/-- CRC-64 of bytes (R601): initial value and final XOR all ones. -/
def crc64 (bs : List Byte) : DWord :=
  bs.foldl (fun c b => (List.range 8).foldl (fun c _ => crc64Bit c) (c ^^^ b.zeroExtend 64)) 0xFFFFFFFFFFFFFFFF ^^^ 0xFFFFFFFFFFFFFFFF

end Sys2Proof
end

