-- ==== Sys2Proof/Machine/CallerState.lean ====
section
/-!
DEFINITION. What the Caller holds: contexts, queues and their front ends, items and records, kernels on partitions,
context resets, the error log and the crash dump (08_caller_and_queues.md, 13_faults_reset_recovery.md), Redeal and age
(12_functional_safety.md).
-/
namespace Sys2Proof.Machine

open Sys2Proof

/-- Status codes (13 R521). -/
abbrev Status := Nat

namespace Status
def ok : Status := 0
def cancelled : Status := 1
def skipped : Status := 2
def invalidPacket : Status := 0x10
def invalidZero : Status := 0x11
def unsupported : Status := 0x12
def faultTranslation : Status := 0x20
def faultPermission : Status := 0x21
def faultFirewall : Status := 0x22
def ecc : Status := 0x30
def poison : Status := 0x31
def staleHatch : Status := 0x40
def undelivered : Status := 0x41
def redealMismatch : Status := 0x50
def staleResult : Status := 0x51
def jokerFail : Status := 0x52
def hangReset : Status := 0x60
def contextReset : Status := 0x61
def conflict : Status := 0x70
def tallyMismatch : Status := 0x71
end Status

/-- A fault record as written to the Fault Ring (09 R367), with its sequence number. -/
structure FaultRec where
  ctx : Nat
  gen : Nat
  part : Nat
  cause : Nat
  unit_ : Nat
  index : Nat
  flags : Nat
  port : Nat
  va : Nat
  pa : Nat
  entry : DWord
  tag : DWord
  bytesDone : Nat
  time : DWord
  seq : Word
  /-- The transfer that faulted; its BYTES_DONE is fixed once it has no request outstanding (09 R368). -/
  who : Option Requester
  status : Status
deriving DecidableEq, Repr

/-- A context (08 R308, 09 R353, R370, 13 R527). -/
structure Ctx where
  gen : Nat
  root : Nat
  cellarBase : Nat
  cellarStride : Nat
  plan : Bool
  slot : Option Nat
  /-- Fault records of the current pause; the context is paused while it is not empty (R368, R374). -/
  pause : List FaultRec
  /-- The record that began the current pause (13 R531). -/
  pauseFirst : Option FaultRec := none
  /-- Record-write faults have been reported since the last success (R345). -/
  recFaultSaid : Bool
  /-- The context was reset while it was not resident (13 R529). -/
  resetMark : Bool
  /-- An eviction is in progress, and its front ends go to their save areas (R343). -/
  evicting : Bool
  saving : Bool := false
  /-- Elapsed time at which the context became blocked (R342). -/
  blockedAt : Option Nat
  /-- Boundaries of generator 0 without a completed item, and whether one completed since the last (13 R525). -/
  idleEpochs : Nat
  completed : Bool
  /-- A DB_TAIL write was accepted while the context was not resident (R341). -/
  wants : Bool
  /-- An engine reset destroys the context once its queues are unregistered (13 R536). -/
  leaving : Bool
deriving DecidableEq, Repr

/-- A frame of a front end: the ring, or a nested buffer (08 R315, R329). -/
structure Frame where
  /-- none for the ring; the buffer's address and packets otherwise. -/
  buf : Option (Nat × Nat)
  /-- Next packet: a ring index, or a packet of the buffer. -/
  pos : Nat
  /-- Commands still to skip (R327, R328). -/
  skip : Nat
  /-- The item that completes when the buffer returns. -/
  item : Option Nat
deriving DecidableEq, Repr

/-- An open loop of a queue (R328): the depth of its frame, first packet and commands of its body, iterations, the
iteration at work, and body commands still to pass. -/
structure LoopRun where
  depth : Nat
  start : Nat
  body : Nat
  count : Nat
  iter : Nat
  left : Nat
deriving DecidableEq, Repr

/-- What holds a front end (R323, R326, R332, R333, R347): a command that waits for every earlier item, with its packets
and the status of a second packet that came bad; a condition; or a BATCH whose step buffer has returned. -/
inductive Hold where
  | ordered (packets : List Byte) (bad : Option Status)
  | fence (va : Nat) (threshold : Nat)
  | hatch (h : Nat) (threshold : Word)
  | gate (stream par : Nat) (threshold : Word)
  | hatchClose (h : Nat)
  /-- The command's write is under way: a SIGNAL's, a TIMESTAMP's, or a BATCH's composition table. -/
  | write
  | batch
deriving DecidableEq, Repr

/-- A sequence of the Batch Composer (R347). -/
structure Seq where
  id : Nat
  prompt : Nat
  pos : Nat
  remain : Nat
deriving DecidableEq, Repr

/-- A segment of a step: index of its sequence, first token position, first row, tokens, decode. -/
structure Segment where
  seq : Nat
  position : Nat
  row : Nat
  count : Nat
  decode : Bool
deriving DecidableEq, Repr

/-- A BATCH at work (R347, R348). -/
structure Batch where
  item : Nat
  seqVa : Nat
  stepRows : Nat
  chunkMax : Nat
  bufVa : Nat
  packets : Nat
  maxSteps : Nat
  compVa : Nat
  decodeMax : Nat
  seqs : List Seq
  /-- Index after the sequence that took the last decode row. -/
  rotor : Nat
  step : Nat
  segments : List Segment
  /-- First status other than OK, SKIPPED or CANCELLED of an item of the step buffer. -/
  bad : Option Status
  /-- Sequences that finished. -/
  finished : Nat
deriving DecidableEq, Repr

/-- A queue: its descriptor, its doorbell page, and its front end (R309 to R316). -/
structure Queue where
  ctx : Nat
  part : Nat
  prio : Nat
  major : Nat
  irq : Nat
  ringVa : Nat
  ringLog : Nat
  recLog : Nat
  recVa : Nat
  saveVa : Nat
  tail : Word
  head : Word
  recHead : Word
  recTail : Word
  tailErr : Bool
  recHeadErr : Bool
  /-- A destroy is in progress: the final record's tag, and the items cancelled so far (R346). -/
  destroying : Option (DWord × Nat)
  /-- A plan queue: buffer address, packets, and Epoch Generator (R351). -/
  plan : Option (Nat × Nat × Nat)
  frames : List Frame
  loops : List LoopRun
  hold : Option Hold
  /-- The item of the command that holds the front end. -/
  holdItem : Option Nat
  heldSince : Nat
  /-- BATCHes at work, the innermost first. -/
  batch : List Batch
  /-- The minor that a plan queue's packets are checked against (00 R16). -/
  minor : Option Nat
deriving DecidableEq, Repr

/-- The state of an outstanding item (R333, R334). -/
inductive ItemState where
  | waiting
  | dispatched
  | done
deriving DecidableEq, Repr

/-- An outstanding item (R334) and, once done, its record (R344). -/
structure Item where
  id : Nat
  queue : Nat
  tag : DWord
  op : Nat
  irq : Bool
  quiet : Bool
  nested : Bool
  plan : Bool
  /-- Items whose buffers enclose the command (R333). -/
  enclosing : List Nat
  state : ItemState
  status : Status
  detail : Word
  tricks : Word
  summary : Word
  time : DWord
  deferred : Bool
  held : Bool
  final : Bool
  /-- Its place in the order in which items completed (R344). -/
  doneSeq : Nat
deriving DecidableEq, Repr

/-- A dispatched LAUNCH (R318 to R320). -/
structure LaunchJob where
  item : Nat
  ctx : Nat
  part : Nat
  prio : Nat
  order : Nat
  args : List Word
  carries : List (Nat × Nat)
  codeVa : Nat
  bundles : Nat
  entry : Nat
  words : Nat
  fixed : Option Nat
  kernelId : Word
  kflags : Nat
deriving DecidableEq, Repr

/-- What the run of a kernel is (12 R497 to R501). -/
inductive RunKind where
  | plain
  | primary (id : Nat)
  | copy (id : Nat) (rot : Nat)
deriving DecidableEq, Repr

/-- A kernel on a partition, from selection to its end (R338, R339, R322). -/
structure Kernel where
  job : LaunchJob
  gen : Nat
  pbase : Nat
  kind : RunKind
  /-- 0 selected, 1 switched, 2 running. -/
  phase : Nat
  detm : Bool
  /-- The outgoing context's words have been cleared (R339). -/
  cleared : Bool := false
  /-- A restore is due before the start, and one has been made; code was loaded (R339, R321). -/
  restoreDue : Bool
  restored : Bool
  loaded : Bool
  /-- TRICKS of each rank at the start. -/
  tricks0 : List DWord
  started : Nat
  startEpoch : Nat
  jobsCancelled : Bool
  age : DWord
  /-- Hang detector: stalled boundaries, and the last snapshot of each rank (13 R522). -/
  stalled : Nat
  snaps : List (DWord × DWord × Word × Word × Word)
deriving DecidableEq, Repr

/-- The run is a copy. -/
def Kernel.isCopy (k : Kernel) : Bool :=
  match k.kind with
  | .copy .. => true
  | _ => false

/-- What a partition keeps between kernels (R339, R340, 13 R531). -/
structure PartKeep where
  lastCtx : Option Nat
  /-- That context has been destroyed: one of its number is another (R339). -/
  gone : Bool := false
  /-- A kernel that was cancelled before it started left that context's images unrestored (R346). -/
  restoreDue : Bool := false
  carries : List (Nat × Nat)
  lastPbase : Nat
  lo : Nat
  hi : Nat
  /-- Elapsed times of counted resets within the window (13 R531). -/
  resets : List Nat
  retired : Bool
  /-- No kernel starts before this count of generator-0 boundaries (12 R486). -/
  holdUntil : Nat
deriving DecidableEq, Repr

def PartKeep.none : PartKeep :=
  { lastCtx := Option.none, carries := [], lastPbase := 0, lo := 0, hi := 0, resets := [], retired := false, holdUntil := 0 }

/-- The code an Instruction Store holds (R321): address, bundles, context, generation. -/
structure CodeHeld where
  va : Nat
  bundles : Nat
  ctx : Nat
  gen : Nat
deriving DecidableEq, Repr

/-- A Cellar image of one rank (06 R248): region offsets and lengths, CRCs, poison spans, and the payload as spilled. -/
structure CellarImage where
  ctx : Nat
  part : Nat
  rank : Nat
  regions : List (Nat × Nat × Word × Option (Nat × Nat))
  payload : List (List Byte)
deriving DecidableEq, Repr

/-- A context reset in progress (13 R527). -/
structure CtxReset where
  seq : Word
  ctx : Nat
  status : Status
  cause : Nat
  /-- The clear of step 5: physical core, first and last Pantry word. -/
  clears : List (Nat × Nat × Nat)
  genDone : Bool
  /-- Its clear is done and every record of it has been written or held: BUSY no longer shows it. -/
  ended : Bool
  part : Nat
deriving DecidableEq, Repr

/-- A contribution to a core's signature, in issue order (12 R500): HPUT bytes, a core DMA item with the bytes that have
left so far by offset and whether it has completed, or the end of a window. -/
inductive SigPart where
  | bytes (bs : List Byte)
  | item (id : Nat) (chunks : List (Nat × List Byte)) (done : Bool)
  | mark
deriving DecidableEq, Repr

/-- The signature of a core in a Redeal run (12 R500): the running CRC, the closed windows, and what has been issued and
not yet entered. -/
structure SigRun where
  crc : Word
  windows : List Word
  parts : List SigPart
deriving DecidableEq, Repr

def SigRun.start : SigRun := ⟨0xFFFFFFFF, [], []⟩

/-- A Redeal primary that awaits its copy or its comparison (12 R497 to R501). -/
structure Primary where
  id : Nat
  part : Nat
  job : LaunchJob
  epoch : Nat
  ended : Bool
  /-- Signature windows of the primary by rank, and of the copy by rank once it has run. -/
  windows : List (List Word)
  copy : Option (List (List Word))
  /-- The rank at which the copy trapped. -/
  copyTrapped : Option Nat
  /-- The epoch in which the primary completed. -/
  doneEpoch : Nat
  phys : List Nat
  copyPhys : List Nat
  detm : Bool
deriving DecidableEq, Repr

/-- The Caller and what it keeps. -/
structure Caller where
  ctxs : Tbl (Option Ctx)
  queues : Tbl (Option Queue)
  items : List Item
  nextItem : Nat
  nextDone : Nat
  launches : List LaunchJob
  order : Nat
  kernels : Tbl (Option Kernel)
  keep : Tbl PartKeep
  /-- An admin operation that a register write has begun and that awaits its descriptor (R308). -/
  adminDue : Option Nat := none
  codes : Tbl (Option CodeHeld)
  cellar : List CellarImage
  carryCycles : Tbl Nat
  resets : List CtxReset
  retirements : List Nat
  elog : List (List Byte)
  elogSeq : Word
  /-- The crash dump: 64 KiB as a sparse list of bytes (13 R541). -/
  dump : Tbl Byte
  /-- Corrected errors of each unit in the current window of 3,600 s (13 R547): unit key to count, and the window. -/
  corr : Tbl Nat
  corrWindow : Nat
  primaries : List Primary
  nextPrimary : Nat
  /-- Signatures by physical core (12 R500). -/
  sig : Tbl SigRun
  /-- Age accumulators by queue (12 R505). -/
  ages : Tbl DWord
  /-- Plan queues whose generator has passed a boundary that their run has not answered (R351). -/
  planDue : List Nat
deriving DecidableEq, Repr

/-- The age value none (12 R505). -/
def ageNone : DWord := 0xFFFFFFFFFFFFFFFF

/-- A Caller with nothing registered. -/
def Caller.reset : Caller :=
  { ctxs := [], queues := [], items := [], nextItem := 1, nextDone := 0, launches := [], order := 0, kernels := [], keep := [],
    codes := [], cellar := [], carryCycles := [], resets := [], retirements := [], elog := [], elogSeq := 0,
    dump := [], corr := [], corrWindow := 0, primaries := [], nextPrimary := 1, sig := [], ages := [], planDue := [] }

end Sys2Proof.Machine
end

