-- ==== Sys2Proof/Machine/AtuState.lean ====
section
/-!
DEFINITION. What address translation, the memory ports, engine DMA and the Fault Ring hold
(09_translation_dma_memory_ports.md).
-/
namespace Sys2Proof.Machine

open Sys2Proof

/-- A translation-buffer entry of a port (R363): context, generation, virtual base, level, the leaf or the table entry,
and the physical address that it was read from. -/
structure TbEntry where
  ctx : Nat
  gen : Nat
  base : Nat
  level : Nat
  leaf : DWord
  pa : Nat
deriving DecidableEq, Repr

/-- One access that is to be translated: whose it is, its identifiers (R353), where and how long, and for a write its
data with the poison of each 32-byte word. -/
structure Access where
  who : Requester
  ctx : Nat
  gen : Nat
  part : Nat
  va : Nat
  bytes : Nat
  write : Bool
  cache : Bool := false
  nopause : Bool := false
  /-- TAG of a fault record: the item's tag, or 0 for a kernel's item (R367). -/
  tag : DWord := 0
  /-- A translation alone, for a page of a CACHE_INV range: nothing is read or written (08 R331). -/
  only : Bool := false
  data : List Byte := []
  poison : List Bool := []
deriving DecidableEq, Repr

/-- What a walk waits for: its entry read, a free tag for that read, or with its leaf found a free tag for its access. -/
inductive WalkStage where
  | reading
  | blocked
  | found (leaf : TbEntry)
deriving DecidableEq, Repr

/-- A walk in progress (R362): the access that it serves, the port of the access, the level and the table to read next,
and the table entries passed. -/
structure WalkRun where
  id : Nat
  port : Nat
  acc : Access
  level : Nat
  table : Nat
  path : List TbEntry
  stage : WalkStage
deriving DecidableEq, Repr

/-- An outstanding request of a port (R391, R398). -/
structure Req where
  tag : Nat
  ctx : Nat
  gen : Nat
  sys : Bool
  write : Bool
  pa : Nat
  bytes : Nat
  /-- Next beat expected of a read (R393). -/
  beat : Nat
  who : Requester
  orphan : Bool
  /-- The partition that it works for, and for a translated request the virtual address and log2 of the page that its
  entry maps (R365). -/
  part : Nat
  va : Nat
  page : Option Nat
  /-- The line address of a cache fill that this read makes (06 R242). -/
  fill : Option Nat
deriving DecidableEq, Repr

/-- An engine DMA item: waiting or on a channel (R380, R381). -/
structure EngineDma where
  item : Nat
  queue : Nat
  desc : List Byte
  channel : Option Nat
  prio : Nat
  order : Nat
  /-- Bytes of the transfer requested so far, runs completely written, and data read but not yet written (offset, bytes,
  poison). -/
  issued : Nat
  acked : List (Nat × Nat)
  buf : List (Nat × List Byte × Bool)
  paused : Bool
  resumes : Nat
  poison : Bool
  dataErr : Bool
deriving DecidableEq, Repr

/-- What follows when a transfer of the engine's own is complete. -/
inductive OwnGoal where
  | nothing
  /-- The item of a SIGNAL or TIMESTAMP completes; a SIGNAL publishes its value (08 R326, 12 R507). -/
  | fence (queue item : Nat) (publish : Option Nat)
  /-- The oldest record of a queue is in memory (08 R344). -/
  | record (queue : Nat)
  /-- The composition table of a BATCH is written: its step buffer runs (08 R348). -/
  | composition (queue : Nat)
  /-- The pages of a range are translated, and each is invalidated in the Loft's cache for a CACHE_INV (08 R331). -/
  | invalidate (item : Nat)
  /-- A queue of a context that is evicted has its front end in its save area (08 R343). -/
  | saveArea (ctx : Nat)
  /-- The payloads of a rank's Cellar image are written, and then its header (06 R249). -/
  | payload (i : CellarImage)
  | image (i : CellarImage)
  /-- A descriptor of ring `ring` (0 to 7 transmit, 8 receive) of a link port is written back, `back` after the frame's
  buffer: its HEAD advances, and with `irq` its vector is sent (11 R438, R439). -/
  | ring (port ring : Nat) (irq : Bool) (back : Option (Nat × List Byte))
  /-- Mirror data reaches its bank (11 R474). -/
  | mirror
  /-- The fault record of a sequence number, and the oldest record of the Age Ring or the Verdict Ring (R373, 12 R509). -/
  | faultRing (seq : Word)
  | safetyRing (verdict : Bool)
deriving DecidableEq, Repr

/-- A stretch of addresses of a transfer, and for a write its bytes with the poison of each 32-byte word. -/
structure OwnPart where
  at_ : Nat
  len : Nat
  data : List Byte
  poison : List Bool
deriving DecidableEq, Repr

/-- A transfer of the engine's own, by virtual address of a context, or for a system request by physical address (R353,
R354): a write, a read whose data comes with its own command, or translations alone. -/
structure OwnJob where
  id : Nat
  /-- UNIT and UNIT_INDEX of a fault record, as for `Requester.other` (R367). -/
  unit_ : Nat
  index : Nat
  ctx : Nat
  part : Nat
  sys : Bool
  write : Bool
  /-- A completion record: its faults do not pause the context (R372). -/
  nopause : Bool
  tag : DWord
  parts : List OwnPart
  /-- Bytes of the same transfer that an earlier job has written. -/
  before : Nat
  /-- Bytes requested so far, and the runs that have been answered. -/
  issued : Nat
  acked : List (Nat × Nat)
  dataErr : Bool
  paused : Bool
  goal : OwnGoal
deriving DecidableEq, Repr

/-- A port of the memory interface. -/
structure Port where
  reqs : List Req
  tb : List TbEntry
  walkCache : List TbEntry
deriving DecidableEq, Repr

def Port.idle : Port := ⟨[], [], []⟩

/-- An invalidation of translation buffers that has not finished (R365). -/
structure TbInv where
  scope : Nat
  ctx : Nat
  va : Nat
  size : Nat
  /-- Requests, as (port, tag), that were translated with an invalidated entry and await their responses. -/
  waits : List (Nat × Nat)
deriving DecidableEq, Repr

/-- The ATU and what hangs on it. -/
structure Atu where
  ports : Tbl Port
  walks : List WalkRun
  nextWalk : Nat
  inv : Option TbInv
  faults : List FaultRec
  faultSeq : Word
  engineDma : List EngineDma
  /-- Transfers of the engine's own that are under way, and the number of the next. -/
  own : List OwnJob
  nextOwn : Nat
deriving DecidableEq, Repr

def Atu.reset : Atu := ⟨[], [], 0, none, [], 0, [], [], 0⟩

end Sys2Proof.Machine
end

