-- ==== Sys2Proof/Machine/CofferState.lean ====
section
/-!
DEFINITION. What the Coffer, its controller, the Boot Sequencer, the resets and the test wrapper hold
(15_coffer_boot_configuration.md; 13_faults_reset_recovery.md R534 to R538; 16_boundary_and_register_map.md R616 to
R623).
-/
namespace Sys2Proof.Machine

open Sys2Proof

/-- An open STORE session (15 R579 to R582): kind, whether copy B is the target, its SEQ, the content's length, and the
chunks written. -/
structure StoreSession where
  kind : Nat
  copyB : Bool
  seq : Nat
  length : Nat
  chunks : List Nat
deriving DecidableEq, Repr

/-- The Coffer. Sectors 240 to 255 hold the Dealer's own data, which `Dealer` keeps; of them only the wear is here. -/
structure Coffer where
  /-- Bytes by address; an unlisted byte reads as erased, 0xFF. -/
  bytes : Tbl Byte
  /-- ECC state of 32-byte words that are not clean (R574): 1 correctable, 2 uncorrectable. -/
  errs : Tbl Nat
  /-- Erase counts by sector (R577). -/
  wear : Tbl Nat
  session : Option StoreSession
  /-- Kinds whose store by the engine waits (R584). -/
  due : List Nat
deriving DecidableEq, Repr

/-- A Coffer that nothing has been written to (log entry 7). -/
def Coffer.reset : Coffer := ⟨[], [], [], none, []⟩

/-- A valid copy as the Read phase read it (R574, R576). -/
structure CofferCopy where
  kind : Nat
  copyB : Bool
  seq : Nat
  crc : Word
  content : List Byte
deriving DecidableEq, Repr

/-- A captured set of RWS values (R595, R596): the values, the epoch that it names with AT = 1, the elapsed time of the
capture, and whether its effect point has come. -/
structure Captured where
  regs : Tbl Word
  target : Option Word
  since : Nat
  due : Bool
deriving DecidableEq, Repr

/-- Power, resets, the Boot Sequencer and the test wrapper. -/
structure Boot where
  /-- Input levels: AON_PWRGD, PWR_GOOD, and the reset inputs asserted. -/
  aon : Bool
  good : Bool
  engLow : Bool
  dlrLow : Bool
  /-- The boot phase in progress (15 R589). -/
  phase : Option Nat
  /-- The engine reset phase in progress (13 R535), and that it waits at the end of phase 3 (16 R618). -/
  rstPhase : Option Nat
  held : Bool
  /-- The Boot Sequencer has stopped (15 R593). -/
  stopped : Bool
  copies : List CofferCopy
  /-- Next image of the model table, and that it has failed once (R588). -/
  image : Nat
  again : Bool
  /-- Configuration in force: the content of the BCI, empty without one; the plan that runs and the model table, by CRC
  (R601). -/
  bci : List Byte
  planCrc : Word
  modelCrc : Word
  /-- Entries of the repair map in the order recorded (15 R585). -/
  repair : List (List Byte)
  /-- Cores that wait to be retired: physical core and trigger (13 R542). -/
  retiring : List (Nat × Nat)
  /-- Cores whose retirement has taken effect and that await their replacement (13 R543, R544). -/
  leaving : List (Nat × Nat)
  /-- Entries of the fuse repair map (15 R589). -/
  fuses : List (List Byte)
  /-- Free Kitty cores and retired ones, by physical index. -/
  kittyFree : List Nat
  /-- TEST_EN, the wrapper's instruction, REFUSED of the IJTAG status. -/
  testEn : Bool
  wir : BitVec 4
  testRefused : Bool
  /-- The segment insertion bits that are open, by instrument, and the cells of the boundary register (16 R621, R622). -/
  segments : List Nat
  cells : List Bool
deriving DecidableEq, Repr

/-- Everything unpowered, the reset inputs asserted. -/
def Boot.reset : Boot :=
  { aon := false, good := false, engLow := true, dlrLow := true, phase := none, rstPhase := none, held := false,
    stopped := false, copies := [], image := 0, again := false, bci := [], planCrc := 0,
    modelCrc := 0, repair := [], retiring := [], leaving := [], fuses := [], kittyFree := [], testEn := false, wir := 0, testRefused := false, segments := [],
    cells := [] }

end Sys2Proof.Machine
end

