-- ==== Sys2Proof/Machine/DealerState.lean ====
section
/-!
DEFINITION. What the Dealer holds besides its registers (10_dealer_time_base.md).
-/
namespace Sys2Proof.Machine

open Sys2Proof

/-- An ordered adjustment that waits for its tick (R408). -/
inductive Adjust where
  | step (delta : Int)
  | load (sec ns : Nat)
deriving DecidableEq, Repr

/-- A running Epoch Generator: the settings in force, in units of 2^-32 ns, and its schedule. Boundaries of an aligned
generator are Dealer times, of an unaligned one elapsed times (R413 to R416). -/
structure EpochGen where
  running : Bool
  period : Nat
  phase : Nat
  align : Bool
  next : Nat
  /-- The last boundary, in the scale of `next`; none before the first. -/
  last : Option Int
  /-- Elapsed time of the last boundary. -/
  lastElapsed : Nat
  count : DWord
deriving DecidableEq, Repr

/-- A generator that has not been enabled. -/
def EpochGen.off : EpochGen := ⟨false, 0, 0, false, 0, none, 0, 0⟩

/-- An FSYNC pulse to come: its leading edge and its end, in elapsed time (R417). -/
structure Pulse where
  edge : Nat
  width : Nat
deriving DecidableEq, Repr

/-- A copy of the seal sector: START_COUNT, the Seal Counter, the OPEN mark, the calibration by offset (R404, R421, R424). -/
structure SealCopy where
  starts : Word
  count : Word
  isOpen : Bool
  cal : Tbl Word
deriving DecidableEq, Repr

/-- The Dealer. Times are in units of 2^-32 ns (R401, R403). -/
structure Dealer where
  running : Bool
  time : Nat
  elapsed : Nat
  incr : Nat
  incrNext : Option Nat
  adjust : List Adjust
  /-- An RWK write that takes effect at the next tick: offset and value (R422). -/
  calNext : List (Nat × Word)
  stampSeq : Word
  startCount : Word
  sealCount : Word
  openMark : Bool
  /-- Whether a valid copy of the seal sector exists, and the calibration it holds by offset (R404, R424). -/
  sealValid : Bool
  sealCal : Tbl Word
  /-- The newest copy is that of sector 241; the older copy as stored; the copies that an uncorrectable word has lost, true
  for sector 241 (R426). -/
  sealB : Bool
  sealOld : Option SealCopy
  sealLost : List Bool
  unsealAt : Option Nat
  /-- Ledger entries held, newest first, and the SEQs of slots that read as uncorrectable (R426, R427). -/
  ledger : List (List Byte)
  ledgerBad : List Word
  ledgerSeq : Word
  ledgerCrc : Word
  /-- Refused RWK writes of the current second: second, count, last offset (R420). -/
  refused : Option (Nat × Nat × Nat)
  /-- The RWS registers of the Dealer as its generators and outputs use them, by offset: those of the last COMMIT. An engine
  reset returns the registers to their reset values (13 R536) and leaves generators and outputs as they are (R431). -/
  set : Tbl Word
  gens : Tbl EpochGen
  pulses : Tbl (List Pulse)
  /-- FSYNC outputs that are active, with the elapsed time at which each returns to idle. -/
  fsync : Tbl (Option Nat)
  ppsDue : Bool
  ppsOut : Option Nat
  ppsLast : Option Nat
  /-- Input level of UNSEAL_PERMIT. -/
  permit : Bool
  /-- Time bus outputs: DTB_TIME, DTB_FRAC, DTB_FLAGS, DTB_EPOCH (R419). -/
  dtbTime : DWord
  dtbFrac : Byte
  dtbFlags : BitVec 4
  dtbEpoch : Byte
deriving DecidableEq, Repr

/-- The Dealer before its first start (log entries 3 and 7). -/
def Dealer.reset : Dealer :=
  { running := false, time := 0, elapsed := 0, incr := 4 * 2 ^ 32, incrNext := none, adjust := [], calNext := [],
    stampSeq := 0, startCount := 0, sealCount := 0, openMark := false, sealValid := false, sealCal := [],
    sealB := true, sealOld := none, sealLost := [], unsealAt := none, ledger := [], ledgerBad := [], ledgerSeq := 0, ledgerCrc := 0, refused := none, set := [], gens := [], pulses := [],
    fsync := [], ppsDue := false, ppsOut := none, ppsLast := none, permit := false, dtbTime := 0, dtbFrac := 0,
    dtbFlags := 2, dtbEpoch := 0 }

end Sys2Proof.Machine
end

