-- ==== Sys2Proof/Machine/LinkState.lean ====
section
/-!
DEFINITION. What the link ports, the Hatch Transfer Protocol and the Partnership hold besides their registers
(11_links_and_partnership.md).
-/
namespace Sys2Proof.Machine

open Sys2Proof

/-- Where a frame that waits for transmission comes from, in their order within a class (R442). -/
inductive TxSource where
  | as_ (kind : Nat)
  | htp
  /-- A transmit ring's descriptor: its address, TS_REQ, IRQ. -/
  | host (va : Nat) (ts irq : Bool)
deriving DecidableEq, Repr

/-- A frame that is ready in a class: the bytes without FCS. -/
structure TxFrame where
  src : TxSource
  data : List Byte
deriving DecidableEq, Repr

/-- A frame held by REORDER (R467): bytes, further frames to pass, elapsed time at which it was held; on receive also its
timestamp. -/
structure HeldFrame where
  data : List Byte
  left : Nat
  since : Nat
  time : Nat
  fcsOk : Bool
deriving DecidableEq, Repr

/-- The 802.1AS agent of a port (R450 to R452): sequence numbers, the last Sync with its receive time and whether a
Follow_Up is due, the times of the Pdelay exchange at work, and of the last exchange for the ratio. -/
structure AsAgent where
  syncSeq : Nat
  announceSeq : Nat
  pdelaySeq : Nat
  /-- A Sync of which the Follow_Up waits for the transmit timestamp: sequence number. -/
  sync : Option (Nat × Nat × Nat)
  t1 : Option Nat
  /-- A Pdelay_Resp that was received: sequence number, t2, t4. -/
  resp : Option (Nat × Nat × Nat)
  /-- t3 and t4 of the exchange before. -/
  before : Option (Nat × Nat)
  delay : Nat
  ratio : Int
  /-- Requests sent since the last whole exchange. -/
  lost : Nat
  lastSync : Option Nat
  lastAnnounce : Option Nat
  lastPdelay : Option Nat
deriving DecidableEq, Repr

def AsAgent.start : AsAgent := ⟨0, 0, 0, none, none, none, none, 0, 0, 0, none, none, none⟩

/-- A gate control list in operation: entries of interval and gates, cycle, base; the entry at work, its end and the
start of the cycle, in Dealer time (R444 to R447). -/
structure GateList where
  entries : List (Nat × Nat)
  cycle : Nat
  base : Nat
  entry : Nat
  cycleAt : Nat
  endsAt : Nat
  /-- Between a step of the Dealer and the list's restart: gates, a free value (log entry 5). -/
  gap : Option Byte
deriving DecidableEq, Repr

/-- A link port. -/
structure LinkPort where
  /-- Frames that are ready, by class. -/
  queues : Tbl (List TxFrame)
  /-- Credits by class in units of 10^-6 bit × 2^-32, and the elapsed time to which they are settled (R443). -/
  credit : Tbl Int
  settled : Nat
  /-- The class that transmits, and when the line is free again. -/
  sending : Option Nat
  freeAt : Nat
  gcl : Option GateList
  gclNext : Option GateList
  /-- Frames considered by the injection since EN was set, by direction: 0 transmit, 1 receive. -/
  seen : Tbl Nat
  held : Tbl (List HeldFrame)
  as_ : AsAgent
  /-- Messages for the 802.1AS agent with their receive timestamps. -/
  asIn : List (List Byte × Nat)
  /-- LNKl_TXD0 to LNKl_TXD3: the words on the four transmit lanes (R434). -/
  lanes : List Word
deriving DecidableEq, Repr

def LinkPort.start : LinkPort :=
  { queues := [], credit := [], settled := 0, sending := none, freeAt := 0, gcl := none, gclNext := none,
    seen := [], held := [], as_ := AsAgent.start, asIn := [], lanes := [0, 0, 0, 0] }

/-- A piece of a DATA frame that awaits its status: the mesh message that it was, by source core, counter or item,
context, generation. -/
structure PieceOut where
  src : Nat
  key : Nat
  hput : Option Nat
  item : Nat
  ctx : Nat
  gen : Nat
deriving DecidableEq, Repr

/-- An HTP frame's own part: type, sequence number, count, arguments and payload (R454, R455), and of a DATA frame
the pieces that it carries. -/
structure HtpFrame where
  typ : Nat
  seq : Nat
  count : Nat
  args : List Byte
  payload : List Byte
  pieces : List PieceOut
deriving DecidableEq, Repr

/-- A Partnership Cut or a Counted Launch that all participants have reached (R477, R479): own arrival
time, the Partner's arrival times with the use of each, and the slot of a Counted Launch. -/
structure CutRun where
  part : Nat
  id : Nat
  use : Nat
  own : Option Int
  others : List (Nat × Int)
  launch : Option Nat
deriving DecidableEq, Repr

/-- HTP and the Partnership. -/
structure Partner where
  /-- The peer entry of the session. -/
  path : Option Nat
  txSeq : Nat
  rxSeq : Nat
  /-- Frames that wait for the window, oldest first. -/
  waiting : List HtpFrame
  unacked : List HtpFrame
  /-- Elapsed time since which the oldest unacknowledged frame waits; consecutive expiries. -/
  timer : Option Nat
  retries : Nat
  ackDue : Bool
  lastOpen : Option Nat
  /-- Accepted frames that are not yet processed: their bytes from the HTP header onward. -/
  inbox : List (List Byte)
  /-- DATA frames sent and not answered, by SEQ. -/
  pieces : List (Nat × List PieceOut)
  /-- DATA frames received whose answers are not complete: SEQ, statuses by piece. -/
  answers : List (Nat × List (Option Nat))
  /-- Closes of Partner Hatches under way: directory key, generation, cores that have not replied. -/
  closes : List (Nat × BitVec 8 × List Nat)
  cuts : List CutRun
  /-- Releases of a barrier since the session opened, by 16 × partition + id. -/
  uses : Tbl Nat
  /-- Epochs without a heartbeat at boundaries; a heartbeat was accepted, with HEALTH 1, since the last boundary. -/
  silent : Nat
  beat : Bool
  failedBeat : Bool
  /-- First heartbeat of the session accepted; the role to take at the next boundary. -/
  beaten : Bool
  takeNext : Bool
  followNext : Bool
  /-- TALLY of the last accepted heartbeat with the epoch that it names; epochs not compared after a slip. -/
  tally : Option (Nat × DWord)
  /-- Tally of this engine in the epoch before, with its epoch. -/
  tallyOwn : Option (Nat × DWord)
  slipped : Bool
  /-- Mirror epoch being sent; and being received: epoch, entries seen with bytes, running bytes, whether discarded. -/
  mirrorOut : Bool
  mirrorIn : Option (Nat × List (Nat × Nat) × List Byte × Bool)
deriving DecidableEq, Repr

def Partner.start : Partner :=
  { path := none, txSeq := 1, rxSeq := 1, waiting := [], unacked := [], timer := none, retries := 0, ackDue := false,
    lastOpen := none, inbox := [], pieces := [], answers := [], closes := [], cuts := [], uses := [], silent := 0,
    beat := false, failedBeat := false, beaten := false, takeNext := false, followNext := false, tally := none,
    tallyOwn := none, slipped := false, mirrorOut := false, mirrorIn := none }

end Sys2Proof.Machine
end

