-- ==== Sys2Proof/Machine/LoftState.lean ====
section
/-!
DEFINITION. What the Loft, the Gather Units, the scrubbers and the mesh hold (06_pantry_loft_gather.md).
-/
namespace Sys2Proof.Machine

open Sys2Proof

/-- A line of the Loft cache (R242, R245): its data, the poison of its four words, and when it was last used. -/
structure CacheLine where
  slice : Nat
  set : Nat
  way : Nat
  la : Nat
  data : List Byte
  poison : List Bool
  used : Nat
deriving DecidableEq, Repr

/-- A cache fill that is outstanding (R242, R244): its data so far, whether it is complete, and whether it may be
installed, which it may not once an invalidation or a write covers it. -/
structure CacheFill where
  la : Nat
  part : Nat
  data : List (Nat × List Byte × Bool)
  ready : Bool
  install : Bool
deriving DecidableEq, Repr

/-- An invalidation in progress (R244): a partition, and a range or every line. -/
structure CacheInv where
  part : Nat
  range : Option (Nat × Nat)
  /-- The item of a CACHE_INV command that it serves. -/
  item : Option Nat
deriving DecidableEq, Repr

/-- A Loft Hatch (R260). -/
structure LoftHatch where
  isOpen : Bool
  ctx : Nat
  part : Nat
  base : Nat
  words : Nat
  senders : DWord
  partner : Bool
  gen : BitVec 8
  cnt : Word
  accepted : Nat
  closing : Bool
  awaiting : List Nat
deriving DecidableEq, Repr

/-- A Loft Hatch that has closed: its generation has advanced, and whom it admitted stays known for late arrivals (R255,
R259). -/
def LoftHatch.shut (x : LoftHatch) : LoftHatch := { x with isOpen := false, closing := false, awaiting := [], gen := x.gen + 1 }

def LoftHatch.closed : LoftHatch := ⟨false, 0, 0, 0, 0, 0, false, 0, 0, 0, false, []⟩

/-- One row that an output needs: none for an out-of-range row or a corner outside the map, else its table row. -/
abbrev RowNeed := Option Nat

/-- A gather job (R261 to R269). -/
structure GatherJob where
  core : Nat
  dma : Nat
  part : Nat
  ctx : Nat
  gen : Nat
  gjd : List Byte
  /-- Physical Pantry byte of the GJD on the submitting core. -/
  at_ : Nat
  started : Bool
  /-- Segments to fetch: virtual address and length of the index stream and of the bag starts or level table, then,
  once `planned`, of each row in fetch order. -/
  segs : List (Nat × Nat)
  planned : Bool
  /-- Rows of the whole job in fetch order: the output each belongs to and the table row. -/
  needs : List (Nat × RowNeed)
  /-- The segment and byte to request next, rows requested and not yet consumed, and bytes returned: segment, offset,
  bytes, poison. -/
  nextSeg : Nat
  nextOff : Nat
  flying : Nat
  got : List (Nat × Nat × List Byte × Bool)
  /-- Rows that have returned complete and were consumed, by number. -/
  rows : Tbl (Option (List Byte × List Bool))
  /-- Outputs written, bytes of one output, and grains counted (R267). -/
  outDone : List Nat
  outBytes : Nat
  grains : Nat
  fetched : Nat
  hits : Nat
  oob : Nat
  status : Nat
  ended : Bool
  paused : Bool
deriving DecidableEq, Repr

/-- A message on the mesh. Stops are physical cores 0 to 67, the Caller (100) and the link to the Partner (101). -/
inductive MsgBody where
  /-- A Hatch write of 256 bytes: sender's logical core and partition, target Hatch (Loft Hatches from 2048), word
  offset, stamp, data with the poison of each 32-byte word, whose item answers it (a counter, or a DMA item), context, generation, age (R254, 12 R507). -/
  | write (logical part hatch offset : Nat) (stamp : BitVec 8) (data : List Byte) (poison : List Bool)
      (hput : Option Nat) (item : Nat) (ctx gen : Nat) (age : DWord)
  /-- The answer to a Hatch write: status, the counter of an HPUT or the DMA item it belongs to. -/
  | answer (status : Nat) (hput : Option Nat) (item : Nat) (ctx gen : Nat)
  /-- An OPEN or CLOSE notice: directory key, generation (R252). -/
  | notice (key : Nat) (gen : BitVec 8) (open_ : Bool)
deriving DecidableEq, Repr

structure Message where
  src : Nat
  dst : Nat
  body : MsgBody
deriving DecidableEq, Repr

/-- A scrubber (R230): the next unit, and the corrected words read that await their write-back. -/
structure Scrub where
  next : Nat
  back : Option (Nat × List Nat)
deriving DecidableEq, Repr

/-- The Loft, the Gather Units and the mesh. -/
structure Loft where
  lines : List CacheLine
  fills : List CacheFill
  clock : Nat
  inv : List CacheInv
  /-- Ways whose clear has not finished, and the writes that wait for it, oldest first: byte address, bytes, poison
  (R246). -/
  clearing : List Nat
  waiting : List (Nat × List Byte × Bool)
  /-- Slices out of service (13 R537). -/
  slicesOff : List Nat
  hatches : Tbl LoftHatch
  gather : Tbl (List GatherJob)
  /-- The partition that each unit granted a fetch beyond the reserves last (R270). -/
  turns : Tbl Nat
  mesh : List Message
  /-- CLOSE notices received and not yet replied to: physical core, directory key, generation (R258). -/
  replies : List (Nat × Nat × BitVec 8)
  scrubs : Tbl Scrub
  /-- Granules that slot 7 clears, as 16 * core + granule (R233). -/
  granules : List Nat
deriving DecidableEq, Repr

def Scrub.start : Scrub := ⟨0, none⟩

def Loft.reset : Loft := ⟨[], [], 0, [], [], [], [], [], [], [], [], [], [], []⟩

/-- The mesh stop of the Caller and of the Partner's link. -/
def stopCaller : Nat := 100
def stopPartner : Nat := 101

end Sys2Proof.Machine
end

