-- ==== Sys2Proof/Machine/PowerState.lean ====
section
/-!
DEFINITION. What the Power Manager holds besides its registers (14_power_management.md).
-/
namespace Sys2Proof.Machine

open Sys2Proof

/-- The voltage handshake of R551: idle, PWR_REQ high, or PWR_REQ lowered while PWR_ACK is still high. -/
inductive Handshake where
  | idle
  | asked
  | acked
deriving DecidableEq, Repr

/-- What completes with the voltage request at work: a raise to a point, a lowering that has switched already, a request
for the voltage alone, or a change that was abandoned (R552, R555, R559, R569). -/
inductive VoltGoal where
  | raise (op : Nat)
  | lower
  | voltage
  | propose (n : Nat)
  | abandoned
deriving DecidableEq, Repr

/-- A proposal of the frequency lock (R569): number, point, switch time, and what has happened: READY held, own voltage
there, CONFIRM sent or accepted, CONFIRM acknowledged. -/
structure Proposal where
  n : Nat
  op : Nat
  tsw : Nat
  ready : Bool
  volt : Bool
  confirmed : Bool
  acked : Bool
deriving DecidableEq, Repr

/-- The Power Manager. -/
structure Power where
  hand : Handshake
  goal : VoltGoal
  /-- PWR_VID and PWR_OP as driven, and the code in force. -/
  vid : Nat
  vidOp : Nat
  inForce : Nat
  /-- A request that follows the one at work: code, point and goal. -/
  next : Option (Nat × Nat × VoltGoal)
  /-- The thermal point, and elapsed times of its last fall and last rise (R556). -/
  thermal : Nat
  fell : Option Nat
  rose : Option Nat
  /-- Thermal point not started yet: it equals PWR_OP_REQ.OP. -/
  thermalOn : Bool
  /-- PWR_ENERGY's remainder in pJ (R568). -/
  energyRem : Nat
  /-- The learning table, most recently updated first: KERNEL_ID, cores, L (R564). -/
  learn : List (Word × Nat × Nat)
  /-- Sum and count of the estimates of a partition since its kernel started. -/
  sums : Tbl (Nat × Nat)
  /-- Bubble counts that wait for their frame start (R565). -/
  bubbles : Tbl Nat
  /-- The domains in transition to on: 0 to 67 physical cores, 100 + b bit b of PWR_UNIT_EN (R561). -/
  rising : List Nat
  /-- Domains that power down at their kernel boundary or when their jobs are done. -/
  falling : List Nat
  /-- Sensor offsets of kind 2 (15 R585). -/
  offsets : List Nat
  /-- Elapsed time at which PWR_REQ rose. -/
  since : Nat
  /-- The Partner's last DESIRE, its running point by its last heartbeat, and the proposal at work with the last number. -/
  partner : Option Nat
  partnerRuns : Option Nat
  /-- An ALERT of the Partner holds this engine's D at OP0 (R571). -/
  heldByPartner : Bool
  proposal : Option Proposal
  lastN : Nat
  /-- The D last reported in DESIRE. -/
  reported : Option Nat
deriving DecidableEq, Repr

/-- The Power Manager at power-good: OP0, no request. -/
def Power.reset : Power :=
  { hand := .idle, goal := .lower, vid := 0x28, vidOp := 0, inForce := 0x28, next := none, thermal := 0, fell := none,
    rose := none, thermalOn := false, energyRem := 0, learn := [], sums := [], bubbles := [], rising := [],
    falling := [], offsets := [], since := 0, partner := none, partnerRuns := none, heldByPartner := false, proposal := none,
    lastN := 0, reported := none }

end Sys2Proof.Machine
end

