-- ==== Sys2Proof/Machine/RegMap.lean ====
section
/-!
DEFINITION. The register map: every register of the engine with its access codes, reset value, pair and writing
classes, written from the register tables of the chapters (00_scope.md R17 to R25, 16_boundary_and_register_map.md
"Register index"); and the offset of each register by name.
-/
namespace Sys2Proof

/-- Bits of a register by access code of R23. -/
structure RegBits where
  rw : Nat := 0
  ro : Nat := 0
  rws : Nat := 0
  w1c : Nat := 0
  w1s : Nat := 0
  rwk : Nat := 0
  wo : Nat := 0
deriving DecidableEq, Repr

/-- Whether a register stands alone, or is the _LO or _HI word of a pair (R19). -/
inductive RegPair where
  | none
  | lo
  | hi
deriving DecidableEq, Repr

/-- A row of a register table: offset in its block, stride and count of its copies, pair, the privilege classes
that write it (bit c for class c of R386), reset value, and its bits. -/
structure RegRow where
  off : Nat
  stride : Nat
  count : Nat
  pair : RegPair
  writers : Nat
  reset : Nat
  bits : RegBits
deriving DecidableEq, Repr

/-- A block of registers at `base`, repeated `count` times every `stride` bytes; `size` bytes of each are its own. -/
structure RegBlock where
  base : Nat
  stride : Nat
  count : Nat
  size : Nat
  rows : List RegRow
deriving DecidableEq, Repr

/-- Whether a row covers a block offset. -/
def RegRow.covers (r : RegRow) (o : Nat) : Bool :=
  if r.stride = 0 then o == r.off
  else decide (r.off ≤ o) && (o - r.off) % r.stride == 0 && decide ((o - r.off) / r.stride < r.count)

/-- Registers of the global block. -/
def globalRows : List RegRow :=
  [
    ⟨0x0, 0x0, 1, .none, 0x4, 0x4B560940, { ro := 0xFFFFFFFF }⟩,
    ⟨0x4, 0x0, 1, .none, 0x4, 0x10100, { ro := 0xFFFFFF }⟩,
    ⟨0x8, 0x0, 1, .none, 0x4, 0x1044044, { ro := 0x1FFFFFF }⟩,
    ⟨0xC, 0x0, 1, .none, 0x4, 0x40048246, { ro := 0xFFFFFFFF }⟩,
    ⟨0x10, 0x0, 1, .none, 0x4, 0x0, { ro := 0x3FFF }⟩,
    ⟨0x20, 0x0, 1, .none, 0x4, 0x0, { rw := 0xFFFFFF }⟩,
    ⟨0x24, 0x0, 1, .none, 0x4, 0x0, { ro := 0x3FFFF }⟩,
    ⟨0x40, 0x0, 1, .none, 0x4, 0x0, { rws := 0x1 }⟩,
    ⟨0x44, 0x0, 1, .none, 0x4, 0x0, { ro := 0x7 }⟩,
    ⟨0x50, 0x0, 1, .lo, 0x4, 0x0, { ro := 0xFFFFFFFF }⟩,
    ⟨0x54, 0x0, 1, .hi, 0x4, 0x0, { ro := 0xFFFFFFFF }⟩,
    ⟨0x58, 0x0, 1, .none, 0x4, 0x0, { ro := 0xFFFFFFFF }⟩,
    ⟨0x5C, 0x0, 1, .none, 0x4, 0x0, { wo := 0x8000003F }⟩,
    ⟨0x100, 0x0, 1, .none, 0xC, 0x0, { wo := 0x7 }⟩,
    ⟨0x104, 0x0, 1, .none, 0xC, 0x0, { rw := 0xFFFFFFFF }⟩,
    ⟨0x108, 0x0, 1, .none, 0x4, 0x0, { ro := 0xB000FFFF, w1c := 0x40000000 }⟩,
    ⟨0x10C, 0x0, 1, .none, 0x4, 0x0, { ro := 0x807FFFFF }⟩,
    ⟨0x110, 0x0, 1, .none, 0x4, 0x0, { ro := 0xFFFFFFFF }⟩,
    ⟨0x114, 0x0, 1, .none, 0x4, 0x0, { ro := 0xFFFFFFFF }⟩,
    ⟨0x118, 0x0, 1, .lo, 0x4, 0x0, { ro := 0xFFFFFFFF }⟩,
    ⟨0x11C, 0x0, 1, .hi, 0x4, 0x0, { ro := 0xFFFFFFFF }⟩,
    ⟨0x120, 0x0, 1, .lo, 0x4, 0x0, { ro := 0xFFFFFFFF }⟩,
    ⟨0x124, 0x0, 1, .hi, 0x4, 0x0, { ro := 0xFFFFFFFF }⟩,
    ⟨0x128, 0x0, 1, .none, 0x4, 0x0, { rw := 0x7F00, ro := 0xC0000000 }⟩,
    ⟨0x12C, 0x0, 1, .none, 0x4, 0x0, { ro := 0xFFFFFFFF }⟩ ]

/-- Registers of the caller block. -/
def callerRows : List RegRow :=
  [
    ⟨0x0, 0x0, 1, .none, 0x4, 0x0, { ro := 0x7F }⟩,
    ⟨0x10, 0x0, 1, .none, 0x2, 0x0, { wo := 0xFF }⟩,
    ⟨0x14, 0x0, 1, .none, 0x4, 0x0, { ro := 0x8000FFFF, w1c := 0x40000000 }⟩,
    ⟨0x18, 0x0, 1, .lo, 0x2, 0x0, { rw := 0xFFFFFFFF }⟩,
    ⟨0x1C, 0x0, 1, .hi, 0x2, 0x0, { rw := 0xFFFFFFFF }⟩,
    ⟨0x20, 0x0, 1, .lo, 0x2, 0x0, { rw := 0xFFFFFFFF }⟩,
    ⟨0x24, 0x0, 1, .hi, 0x2, 0x0, { rw := 0xFFFFFFFF }⟩,
    ⟨0x30, 0x0, 1, .none, 0x4, 0x2, { rw := 0xFFFF }⟩,
    ⟨0x34, 0x0, 1, .none, 0x4, 0x0, { rw := 0x7F }⟩,
    ⟨0x40, 0x0, 1, .none, 0x4, 0x0, { ro := 0x80000FFF }⟩,
    ⟨0x50, 0x0, 1, .none, 0x4, 0x0, { ro := 0xFF03 }⟩,
    ⟨0x54, 0x0, 1, .none, 0x4, 0x0, { ro := 0xFFFFFFFF }⟩,
    ⟨0x58, 0x0, 1, .lo, 0x4, 0x0, { ro := 0xFFFFFFFF }⟩,
    ⟨0x5C, 0x0, 1, .hi, 0x4, 0x0, { ro := 0xFFFFFFFF }⟩,
    ⟨0x60, 0x0, 1, .none, 0x4, 0x0, { ro := 0xFFFFFFFF }⟩,
    ⟨0x100, 0x8, 16, .lo, 0x4, 0x0, { rws := 0xFFFFFFFF }⟩,
    ⟨0x104, 0x8, 16, .hi, 0x4, 0x0, { rws := 0xFFFFFFFF }⟩,
    ⟨0x180, 0x4, 16, .none, 0x4, 0x0, { ro := 0x6, rws := 0x1 }⟩,
    ⟨0x1C0, 0x4, 16, .none, 0x4, 0x40000000, { rw := 0x80000000, ro := 0x60000FFF }⟩,
    ⟨0x800, 0x0, 1, .none, 0x2, 0x0, { wo := 0x80000FFF }⟩,
    ⟨0x804, 0x0, 1, .none, 0x4, 0x0, { wo := 0xFFFF }⟩,
    ⟨0x808, 0x0, 1, .none, 0x4, 0x0, { ro := 0x8000FFFF, w1c := 0x40000000 }⟩,
    ⟨0x80C, 0x0, 1, .none, 0x4, 0x0, { ro := 0xFFFFFFFF }⟩,
    ⟨0x810, 0x0, 1, .none, 0x2, 0x80001E03, { rw := 0x8100FFFF }⟩,
    ⟨0x814, 0x0, 1, .none, 0x4, 0x0, { ro := 0xFFFF0FFF }⟩,
    ⟨0x818, 0x0, 1, .none, 0x4, 0x0, { ro := 0x800FFFFF }⟩,
    ⟨0x820, 0x4, 16, .none, 0x4, 0x0, { ro := 0x7 }⟩,
    ⟨0x860, 0x0, 1, .none, 0x4, 0x0, { ro := 0x7F }⟩,
    ⟨0x864, 0x0, 1, .none, 0x4, 0x400, { rw := 0xFFFF }⟩,
    ⟨0x870, 0x4, 2, .none, 0x4, 0x0, { ro := 0xFFFFFFFF }⟩,
    ⟨0x878, 0x0, 1, .none, 0x4, 0x0, { ro := 0xF }⟩,
    ⟨0x880, 0x0, 1, .none, 0x2, 0x0, { ro := 0xFFFFFFFF }⟩,
    ⟨0x884, 0x0, 1, .none, 0x2, 0x0, { ro := 0xFFFFFFFF }⟩,
    ⟨0x888, 0x0, 1, .none, 0x2, 0x0, { rw := 0xFFFFFFFF }⟩,
    ⟨0x88C, 0x0, 1, .none, 0x2, 0x0, { wo := 0x1 }⟩,
    ⟨0x890, 0x4, 8, .none, 0x2, 0x0, { ro := 0xFFFFFFFF }⟩,
    ⟨0x8C0, 0x0, 1, .none, 0x2, 0x0, { ro := 0xFFFF, w1c := 0x80000000 }⟩,
    ⟨0x8C4, 0x0, 1, .none, 0x2, 0x0, { rw := 0x3FFF }⟩,
    ⟨0x8C8, 0x0, 1, .none, 0x2, 0x0, { ro := 0xFFFFFFFF }⟩ ]

/-- Registers of the safety block. -/
def safetyRows : List RegRow :=
  [
    ⟨0x0, 0x0, 1, .none, 0x8, 0x0, { ro := 0xF00000FF }⟩,
    ⟨0x4, 0x0, 1, .none, 0x8, 0x0, { ro := 0x80FFFFFF }⟩,
    ⟨0x8, 0x0, 1, .lo, 0x8, 0x0, { ro := 0xFFFFFFFF }⟩,
    ⟨0xC, 0x0, 1, .hi, 0x8, 0x0, { ro := 0xFFFFFFFF }⟩,
    ⟨0x10, 0x0, 1, .none, 0x8, 0x0, { ro := 0xC001FFFF }⟩,
    ⟨0x14, 0x0, 1, .none, 0x8, 0x0, { ro := 0xFFFFFFFF }⟩,
    ⟨0x18, 0x0, 1, .none, 0x8, 0x0, { ro := 0x1 }⟩,
    ⟨0x20, 0x0, 1, .none, 0x8, 0x186A0, { rws := 0xFFFFFFFF }⟩,
    ⟨0x24, 0x0, 1, .none, 0x8, 0x3D0900, { rws := 0xFFFFFFFF }⟩,
    ⟨0x28, 0x0, 1, .none, 0x8, 0x7D0, { rws := 0xFFFFFFFF }⟩,
    ⟨0x2C, 0x0, 1, .none, 0x8, 0x0, { ro := 0xFFFFFFFF }⟩,
    ⟨0x30, 0x0, 1, .none, 0x8, 0x0, { ro := 0xFFFFFC7F }⟩,
    ⟨0x34, 0x0, 1, .none, 0x8, 0x0, { ro := 0xFFFFFFFF }⟩,
    ⟨0x40, 0x4, 8, .none, 0x8, 0x0, { ro := 0xFFFFFFFF }⟩,
    ⟨0x80, 0x4, 16, .none, 0x8, 0x0, { rws := 0x8000000F }⟩,
    ⟨0xC0, 0x0, 1, .none, 0x8, 0x0, { ro := 0xFF }⟩,
    ⟨0xC4, 0x0, 1, .none, 0x8, 0x0, { ro := 0x8F3FFFFF }⟩,
    ⟨0xC8, 0x0, 1, .none, 0x8, 0x0, { ro := 0xFFFFFFFF }⟩,
    ⟨0x100, 0x0, 1, .lo, 0x8, 0x0, { rw := 0xFFFFF000 }⟩,
    ⟨0x104, 0x0, 1, .hi, 0x8, 0x0, { rw := 0xFFFF }⟩,
    ⟨0x108, 0x0, 1, .none, 0x8, 0x40, { rw := 0x7FF1, w1c := 0x8000 }⟩,
    ⟨0x10C, 0x0, 1, .none, 0x8, 0x0, { rw := 0xFFFFFFFF }⟩,
    ⟨0x110, 0x0, 1, .none, 0x8, 0x0, { ro := 0xFFFFFFFF }⟩,
    ⟨0x140, 0x8, 32, .none, 0x8, 0x0, { rws := 0x80FF03FF }⟩,
    ⟨0x144, 0x8, 32, .none, 0x8, 0x3F940AA, { rws := 0xFFFFFFFF }⟩,
    ⟨0x240, 0x0, 1, .lo, 0x8, 0x0, { rw := 0xFFFFF000 }⟩,
    ⟨0x244, 0x0, 1, .hi, 0x8, 0x0, { rw := 0xFFFF }⟩,
    ⟨0x248, 0x0, 1, .none, 0x8, 0x40, { rw := 0x7FF1, w1c := 0x8000 }⟩,
    ⟨0x24C, 0x0, 1, .none, 0x8, 0x0, { rw := 0xFFFFFFFF }⟩,
    ⟨0x250, 0x0, 1, .none, 0x8, 0x0, { ro := 0xFFFFFFFF }⟩,
    ⟨0x280, 0x4, 16, .none, 0x8, 0x0, { ro := 0xC000FFFF }⟩,
    ⟨0x300, 0x0, 1, .none, 0x8, 0x0, { rw := 0x8F7F0700, wo := 0x1 }⟩,
    ⟨0x304, 0x0, 1, .none, 0x8, 0x0, { w1c := 0x3 }⟩,
    ⟨0x400, 0x4, 68, .none, 0x8, 0x0, { ro := 0x800FFFFF }⟩ ]

/-- Registers of the power block. -/
def powerRows : List RegRow :=
  [
    ⟨0x0, 0x0, 1, .none, 0x4, 0x0, { ro := 0xFF77 }⟩,
    ⟨0x4, 0x0, 1, .none, 0x4, 0x7, { rws := 0x7 }⟩,
    ⟨0x8, 0x0, 1, .none, 0x4, 0x2BF20, { rws := 0x3FFFF }⟩,
    ⟨0xC, 0x0, 1, .none, 0x4, 0x9C40, { rws := 0x3FFFF }⟩,
    ⟨0x10, 0x0, 1, .none, 0x4, 0x3, { rws := 0x3, wo := 0x4 }⟩,
    ⟨0x14, 0x0, 1, .none, 0x4, 0x800573, { rws := 0xFFFFFF }⟩,
    ⟨0x18, 0x0, 1, .none, 0x4, 0x2032, { rws := 0xFFFF }⟩,
    ⟨0x1C, 0x0, 1, .none, 0x4, 0x0, { rw := 0x7F7F00 }⟩,
    ⟨0x20, 0x0, 1, .none, 0x4, 0x0, { ro := 0x3FFFF }⟩,
    ⟨0x24, 0x0, 1, .none, 0x4, 0x0, { ro := 0x3FFFF }⟩,
    ⟨0x28, 0x0, 1, .lo, 0x4, 0x0, { ro := 0xFFFFFFFF }⟩,
    ⟨0x2C, 0x0, 1, .hi, 0x4, 0x0, { ro := 0xFFFFFFFF }⟩,
    ⟨0x30, 0x0, 1, .none, 0x4, 0x0, { ro := 0x1FFFFF }⟩,
    ⟨0x40, 0x4, 17, .none, 0x4, 0x0, { ro := 0xFFFF }⟩,
    ⟨0x80, 0x4, 16, .none, 0x4, 0x0, { rws := 0x3FFFF }⟩,
    ⟨0xC0, 0x4, 16, .none, 0x4, 0x0, { ro := 0x703FFFF }⟩,
    ⟨0x100, 0x4, 16, .none, 0x4, 0x0, { ro := 0x3FFFF }⟩,
    ⟨0x140, 0x8, 16, .lo, 0x4, 0x0, { ro := 0xFFFFFFFF }⟩,
    ⟨0x144, 0x8, 16, .hi, 0x4, 0x0, { ro := 0xFFFFFFFF }⟩,
    ⟨0x1C0, 0x0, 1, .none, 0x4, 0x0, { ro := 0x7F }⟩,
    ⟨0x1C8, 0x8, 7, .lo, 0x4, 0x0, { ro := 0xFFFFFFFF }⟩,
    ⟨0x1CC, 0x8, 7, .hi, 0x4, 0x0, { ro := 0xFFFFFFFF }⟩,
    ⟨0x200, 0x0, 1, .none, 0x4, 0x28, { ro := 0xFFFF }⟩,
    ⟨0x204, 0x0, 1, .none, 0x4, 0x32, { ro := 0xFFFF }⟩,
    ⟨0x208, 0x0, 1, .none, 0x4, 0x3C, { ro := 0xFFFF }⟩,
    ⟨0x20C, 0x0, 1, .none, 0x4, 0x46, { ro := 0xFFFF }⟩,
    ⟨0x210, 0x0, 1, .none, 0x4, 0x50, { ro := 0xFFFF }⟩,
    ⟨0x214, 0x0, 1, .none, 0x4, 0x5A, { ro := 0xFFFF }⟩,
    ⟨0x218, 0x0, 1, .none, 0x4, 0x64, { ro := 0xFFFF }⟩,
    ⟨0x21C, 0x0, 1, .none, 0x4, 0x6E, { ro := 0xFFFF }⟩,
    ⟨0x240, 0x0, 1, .lo, 0x4, 0xFFFFFFFF, { rws := 0xFFFFFFFF }⟩,
    ⟨0x244, 0x0, 1, .hi, 0x4, 0xFFFFFFFF, { rws := 0xFFFFFFFF }⟩,
    ⟨0x248, 0x0, 1, .none, 0x4, 0xFFFFFFF, { rws := 0xFFFFFFF }⟩,
    ⟨0x250, 0x4, 2, .none, 0x4, 0x0, { ro := 0xFFFFFFFF }⟩,
    ⟨0x258, 0x0, 1, .none, 0x4, 0x0, { ro := 0xF }⟩,
    ⟨0x25C, 0x0, 1, .none, 0x4, 0x0, { ro := 0xFFFFFFF }⟩,
    ⟨0x260, 0x0, 1, .none, 0x4, 0xC8, { rws := 0xFFFF }⟩,
    ⟨0x264, 0x0, 1, .none, 0x4, 0x0, { ro := 0xFFFFFFFF }⟩,
    ⟨0x400, 0x4, 12, .none, 0x4, 0x0, { ro := 0xFFFFF }⟩,
    ⟨0x440, 0x4, 6, .none, 0x4, 0x0, { ro := 0x3FFFF }⟩ ]

/-- Registers of the coffer block. -/
def cofferRows : List RegRow :=
  [
    ⟨0x0, 0x0, 1, .none, 0x4, 0x0, { ro := 0xC80FFFFF, w1c := 0x34000000 }⟩,
    ⟨0x4, 0x0, 1, .none, 0x8, 0x0, { wo := 0xFF0F07 }⟩,
    ⟨0x8, 0x0, 1, .none, 0x8, 0x0, { rw := 0x3FFFF }⟩,
    ⟨0x10, 0x0, 1, .none, 0x4, 0x0, { ro := 0xFFFFFFFF }⟩,
    ⟨0x14, 0x0, 1, .none, 0x4, 0x0, { ro := 0xFFFFFFFF }⟩,
    ⟨0x18, 0x0, 1, .none, 0x1E, 0x0, { rw := 0xFF }⟩,
    ⟨0x1C, 0x0, 1, .none, 0x4, 0x0, { ro := 0xFFFFFFFF }⟩,
    ⟨0x20, 0x0, 1, .none, 0x4, 0x0, { ro := 0xFF01FFFF }⟩,
    ⟨0x100, 0x10, 8, .none, 0x4, 0x0, { ro := 0x7 }⟩,
    ⟨0x104, 0x10, 8, .none, 0x4, 0x0, { ro := 0xFFFFFFFF }⟩,
    ⟨0x108, 0x10, 8, .none, 0x4, 0x0, { ro := 0xFFFFFFFF }⟩,
    ⟨0x10C, 0x10, 8, .none, 0x4, 0x0, { ro := 0xFFFFFFFF }⟩,
    ⟨0x200, 0x0, 1, .none, 0x4, 0x0, { ro := 0x3F1F8F }⟩,
    ⟨0x204, 0x0, 1, .none, 0x4, 0x0, { ro := 0xFFFFFFFF }⟩,
    ⟨0x210, 0x4, 6, .none, 0x4, 0x0, { ro := 0xFFFFFFFF }⟩,
    ⟨0x1000, 0x4, 1024, .none, 0x8, 0x0, { rw := 0xFFFFFFFF }⟩ ]

/-- Registers of the dealer block, part 0. -/
def dealerRows0 : List RegRow :=
  [
    ⟨0x0, 0x0, 1, .none, 0x4, 0x3, { ro := 0xFFFF007F }⟩,
    ⟨0x4, 0x0, 1, .none, 0x4, 0x0, { ro := 0xFFFFFFFF }⟩,
    ⟨0x8, 0x0, 1, .none, 0x10, 0x0, { wo := 0xFFFFFF03 }⟩,
    ⟨0xC, 0x0, 1, .none, 0x4, 0x0, { ro := 0x8000FFFF }⟩,
    ⟨0x10, 0x0, 1, .none, 0x4, 0x0, { ro := 0xFFFFFFFF }⟩,
    ⟨0x14, 0x0, 1, .none, 0x4, 0x0, { ro := 0xFFFF }⟩,
    ⟨0x18, 0x0, 1, .none, 0x4, 0x0, { ro := 0xFFFFFFFF }⟩,
    ⟨0x1C, 0x0, 1, .none, 0x4, 0x0, { ro := 0xFFFFFFFF }⟩,
    ⟨0x20, 0x0, 1, .lo, 0x4, 0x0, { ro := 0xFFFFFFFF }⟩,
    ⟨0x24, 0x0, 1, .hi, 0x4, 0x0, { ro := 0xFFFFFFFF }⟩,
    ⟨0x28, 0x0, 1, .lo, 0x4, 0x0, { rw := 0xFFFFFFFF }⟩,
    ⟨0x2C, 0x0, 1, .hi, 0x4, 0x4, { rw := 0xF }⟩,
    ⟨0x30, 0x0, 1, .none, 0x4, 0x0, { wo := 0xFFFFFFFF }⟩,
    ⟨0x34, 0x0, 1, .none, 0x4, 0x0, { ro := 0x4, w1c := 0xB }⟩,
    ⟨0x38, 0x0, 1, .lo, 0x4, 0x0, { rw := 0xFFFFFFFF }⟩,
    ⟨0x3C, 0x0, 1, .hi, 0x4, 0x0, { rw := 0xFFFF }⟩,
    ⟨0x40, 0x0, 1, .none, 0x4, 0x0, { rw := 0x3FFFFFFF }⟩,
    ⟨0x44, 0x0, 1, .none, 0x4, 0x0, { wo := 0x1 }⟩,
    ⟨0x48, 0x0, 1, .none, 0x4, 0x0, { rw := 0x3 }⟩,
    ⟨0x4C, 0x0, 1, .none, 0x4, 0x0, { ro := 0x8000FFFF }⟩,
    ⟨0x50, 0x4, 8, .none, 0x4, 0x0, { ro := 0xFFFFFFFF }⟩,
    ⟨0x70, 0x4, 8, .none, 0x4, 0x0, { ro := 0xFFFFFFFF }⟩,
    ⟨0x90, 0x4, 8, .none, 0x4, 0x0, { ro := 0xFFFFFFFF }⟩,
    ⟨0xB0, 0x0, 1, .none, 0x4, 0x186A0, { rws := 0x80FFFFFF }⟩,
    ⟨0xB4, 0x0, 1, .none, 0x4, 0x0, { ro := 0xFFFFFFFF }⟩,
    ⟨0xB8, 0x0, 1, .none, 0x4, 0x0, { ro := 0xFFFFFFFF }⟩,
    ⟨0xBC, 0x0, 1, .none, 0x4, 0x0, { rw := 0xFFFFFFFF }⟩,
    ⟨0xC0, 0x4, 8, .none, 0x4, 0x0, { ro := 0xFFFFFFFF }⟩,
    ⟨0xE0, 0x0, 1, .none, 0x4, 0x0, { ro := 0x3 }⟩,
    ⟨0x100, 0x0, 1, .lo, 0x10, 0x0, { rwk := 0xFFFFFFFF }⟩,
    ⟨0x104, 0x0, 1, .hi, 0x10, 0x4, { rwk := 0xF }⟩,
    ⟨0x108, 0x0, 1, .lo, 0x10, 0xFFE5C91D, { rwk := 0xFFFFFFFF }⟩,
    ⟨0x10C, 0x0, 1, .hi, 0x10, 0x3, { rwk := 0xF }⟩,
    ⟨0x110, 0x0, 1, .lo, 0x10, 0x1A36E3, { rwk := 0xFFFFFFFF }⟩,
    ⟨0x114, 0x0, 1, .hi, 0x10, 0x4, { rwk := 0xF }⟩,
    ⟨0x118, 0x0, 1, .none, 0x10, 0xF4240, { rwk := 0x7FFFFFFF }⟩,
    ⟨0x11C, 0x0, 1, .none, 0x10, 0x8, { rwk := 0xFFFF }⟩,
    ⟨0x120, 0x0, 1, .none, 0x10, 0x0, { rwk := 0xFFFF }⟩,
    ⟨0x124, 0x0, 1, .none, 0x10, 0x0, { rwk := 0xF }⟩,
    ⟨0x128, 0x0, 1, .none, 0x10, 0x258, { rwk := 0xFFFF }⟩ ]

/-- Registers of the dealer block, part 1. -/
def dealerRows1 : List RegRow :=
  [
    ⟨0x140, 0x4, 16, .none, 0x10, 0x0, { rwk := 0xFFFF }⟩,
    ⟨0x180, 0x0, 1, .none, 0x4, 0x0, { ro := 0xFFFFFFFF }⟩,
    ⟨0x200, 0x0, 1, .none, 0x4, 0x1, { rws := 0x3 }⟩,
    ⟨0x220, 0x20, 7, .none, 0x4, 0x0, { rws := 0x3 }⟩,
    ⟨0x204, 0x20, 8, .none, 0x4, 0x1FCA055, { rws := 0xFFFFFFFF }⟩,
    ⟨0x208, 0x20, 8, .none, 0x4, 0x55555555, { rws := 0xFFFFFFFF }⟩,
    ⟨0x20C, 0x20, 8, .none, 0x4, 0x0, { rws := 0xFFFFFFFF }⟩,
    ⟨0x210, 0x20, 8, .lo, 0x4, 0x0, { ro := 0xFFFFFFFF }⟩,
    ⟨0x214, 0x20, 8, .hi, 0x4, 0x0, { ro := 0xFFFFFFFF }⟩,
    ⟨0x300, 0x10, 16, .none, 0x4, 0x0, { rws := 0x37 }⟩,
    ⟨0x304, 0x10, 16, .none, 0x4, 0x0, { rws := 0xFFFFFFFF }⟩,
    ⟨0x308, 0x10, 16, .none, 0x4, 0x2710, { rws := 0xFFFFFFFF }⟩,
    ⟨0x30C, 0x10, 16, .none, 0x4, 0x0, { ro := 0xFFFFFFFF }⟩ ]

/-- Registers of the dealer block. -/
def dealerRows : List RegRow := dealerRows0 ++ dealerRows1

/-- Registers of the atu block. -/
def atuRows : List RegRow :=
  [
    ⟨0x0, 0x0, 1, .none, 0x4, 0x0, { ro := 0x7F03FF }⟩,
    ⟨0x10, 0x0, 1, .lo, 0x2, 0x0, { rw := 0xFFFFF000 }⟩,
    ⟨0x14, 0x0, 1, .hi, 0x2, 0x0, { rw := 0xFFFF }⟩,
    ⟨0x18, 0x0, 1, .none, 0x2, 0x40, { rw := 0x7FF1 }⟩,
    ⟨0x1C, 0x0, 1, .none, 0x2, 0x0, { rw := 0xFFFFFFFF }⟩,
    ⟨0x20, 0x0, 1, .none, 0x2, 0x0, { ro := 0xFFFFFFFF }⟩,
    ⟨0x24, 0x0, 1, .none, 0x2, 0x0, { ro := 0xFFFF0000, w1c := 0x3 }⟩,
    ⟨0x30, 0x0, 1, .none, 0x2, 0x0, { wo := 0x30FFF }⟩,
    ⟨0x34, 0x0, 1, .none, 0x4, 0x0, { ro := 0x8000FFFF }⟩,
    ⟨0x40, 0x0, 1, .none, 0x2, 0x0, { wo := 0x3FFF }⟩,
    ⟨0x44, 0x0, 1, .none, 0x2, 0x0, { ro := 0x1, w1c := 0x2 }⟩,
    ⟨0x48, 0x0, 1, .lo, 0x2, 0x0, { rw := 0xFFFFFFFF }⟩,
    ⟨0x4C, 0x0, 1, .hi, 0x2, 0x0, { rw := 0xFFFF }⟩,
    ⟨0x50, 0x0, 1, .lo, 0x2, 0x0, { rw := 0xFFFFFFFF }⟩,
    ⟨0x54, 0x0, 1, .hi, 0x2, 0x0, { rw := 0xFFFF }⟩,
    ⟨0x60, 0x0, 1, .none, 0x4, 0x0, { ro := 0xF07FFFFF }⟩,
    ⟨0x64, 0x0, 1, .none, 0x4, 0x0, { ro := 0xFFFFFFFF }⟩,
    ⟨0x80, 0x0, 1, .none, 0xC, 0x0, { rws := 0x1, w1s := 0x2 }⟩,
    ⟨0x1000, 0x20, 64, .lo, 0x4, 0x0, { rws := 0xFFFFF000 }⟩,
    ⟨0x1004, 0x20, 64, .hi, 0x4, 0x0, { rws := 0xFFFF }⟩,
    ⟨0x1008, 0x20, 64, .lo, 0x4, 0x0, { rws := 0xFFFFF000 }⟩,
    ⟨0x100C, 0x20, 64, .hi, 0x4, 0x0, { rws := 0xFFFF }⟩,
    ⟨0x1010, 0x20, 64, .none, 0x4, 0x0, { rws := 0xE0000000 }⟩,
    ⟨0x1014, 0x20, 64, .none, 0x4, 0x0, { rws := 0xFFFFFFFF }⟩,
    ⟨0x2000, 0x100, 8, .none, 0x4, 0x0, { ro := 0xFFF }⟩,
    ⟨0x2008, 0x100, 8, .lo, 0x4, 0x0, { ro := 0xFFFFFFFF }⟩,
    ⟨0x200C, 0x100, 8, .hi, 0x4, 0x0, { ro := 0xFFFFFFFF }⟩,
    ⟨0x2010, 0x100, 8, .lo, 0x4, 0x0, { ro := 0xFFFFFFFF }⟩,
    ⟨0x2014, 0x100, 8, .hi, 0x4, 0x0, { ro := 0xFFFFFFFF }⟩,
    ⟨0x2018, 0x100, 8, .lo, 0x4, 0x0, { ro := 0xFFFFFFFF }⟩,
    ⟨0x201C, 0x100, 8, .hi, 0x4, 0x0, { ro := 0xFFFFFFFF }⟩,
    ⟨0x2020, 0x100, 8, .lo, 0x4, 0x0, { ro := 0xFFFFFFFF }⟩,
    ⟨0x2024, 0x100, 8, .hi, 0x4, 0x0, { ro := 0xFFFFFFFF }⟩,
    ⟨0x2028, 0x100, 8, .none, 0x4, 0x0, { ro := 0xFFFFFFFF }⟩,
    ⟨0x202C, 0x100, 8, .none, 0x4, 0x0, { ro := 0xFFFFFFFF }⟩,
    ⟨0x2030, 0x100, 8, .none, 0x4, 0x0, { ro := 0xFFFFFFFF }⟩ ]

/-- Registers of the ingress block. -/
def ingressRows : List RegRow :=
  [
    ⟨0x0, 0x0, 1, .none, 0x4, 0x0, { ro := 0x7FFF }⟩,
    ⟨0x4, 0x0, 1, .none, 0x4, 0x0, { ro := 0xFFFFFFFF }⟩,
    ⟨0x8, 0x0, 1, .none, 0x4, 0x0, { ro := 0xFFFFFFFF }⟩,
    ⟨0x10, 0x0, 1, .lo, 0x4, 0x0, { ro := 0xFFFFFFFF }⟩,
    ⟨0x14, 0x0, 1, .hi, 0x4, 0x0, { ro := 0xFFFFFFFF }⟩,
    ⟨0x100, 0x100, 16, .none, 0x4, 0x0, { rws := 0xFF3F }⟩,
    ⟨0x104, 0x100, 16, .none, 0x4, 0x0, { rws := 0xF8FFF }⟩,
    ⟨0x108, 0x100, 16, .none, 0x4, 0x0, { rws := 0xFFFFFFFF }⟩,
    ⟨0x10C, 0x100, 16, .none, 0x4, 0x0, { rws := 0x1FFFFFFF }⟩,
    ⟨0x110, 0x100, 16, .none, 0x4, 0x0, { rws := 0x1FFFFF }⟩,
    ⟨0x114, 0x100, 16, .none, 0x4, 0x0, { rws := 0x1FFFFF }⟩,
    ⟨0x118, 0x100, 16, .none, 0x4, 0x0, { rws := 0xFFFF3F3F }⟩,
    ⟨0x11C, 0x100, 16, .none, 0x4, 0x0, { rws := 0xFFFF }⟩,
    ⟨0x120, 0x100, 16, .none, 0x4, 0x0, { rws := 0xFFFFFF }⟩,
    ⟨0x124, 0x100, 16, .none, 0x4, 0x0, { rws := 0xFFFFFF }⟩,
    ⟨0x128, 0x100, 16, .none, 0x4, 0x0, { rws := 0xFFFFFFFF }⟩,
    ⟨0x130, 0x100, 16, .lo, 0x4, 0x0, { ro := 0x3FFFF }⟩,
    ⟨0x134, 0x100, 16, .hi, 0x4, 0x0, { ro := 0xFFFFFFFF }⟩,
    ⟨0x138, 0x100, 16, .lo, 0x4, 0x0, { ro := 0x3FFFF }⟩,
    ⟨0x13C, 0x100, 16, .hi, 0x4, 0x0, { ro := 0xFFFFFFFF }⟩,
    ⟨0x140, 0x100, 16, .lo, 0x4, 0x0, { ro := 0xFFFFFFFF }⟩,
    ⟨0x144, 0x100, 16, .hi, 0x4, 0x0, { ro := 0xFFFFFFFF }⟩,
    ⟨0x150, 0x100, 16, .none, 0x4, 0x0, { ro := 0xFFFFFFFF }⟩,
    ⟨0x154, 0x100, 16, .none, 0x4, 0x0, { ro := 0xFFFFFFFF }⟩,
    ⟨0x158, 0x100, 16, .none, 0x4, 0x0, { ro := 0xFFFFFFFF }⟩,
    ⟨0x15C, 0x100, 16, .none, 0x4, 0x0, { ro := 0xFFFFFFFF }⟩,
    ⟨0x160, 0x100, 16, .none, 0x4, 0x0, { ro := 0xFFFFFFFF }⟩,
    ⟨0x164, 0x100, 16, .none, 0x4, 0x0, { ro := 0xFFFFFFFF }⟩,
    ⟨0x168, 0x100, 16, .none, 0x4, 0x0, { ro := 0xFFFFFFFF }⟩,
    ⟨0x16C, 0x100, 16, .none, 0x4, 0x0, { ro := 0xFFFFFFFF }⟩ ]

/-- Registers of the link block, part 0. -/
def linkRows0 : List RegRow :=
  [
    ⟨0x0, 0x0, 1, .none, 0x4, 0x6, { rws := 0xEF }⟩,
    ⟨0x4, 0x0, 1, .none, 0x4, 0x0, { ro := 0x1F }⟩,
    ⟨0x8, 0x0, 1, .lo, 0x4, 0x0, { rws := 0xFFFFFFFF }⟩,
    ⟨0xC, 0x0, 1, .hi, 0x4, 0x0, { rws := 0xFFFF }⟩,
    ⟨0x10, 0x0, 1, .none, 0x4, 0x5F2, { rws := 0x3FFF }⟩,
    ⟨0x14, 0x0, 1, .none, 0x4, 0x0, { rws := 0xF0FFF }⟩,
    ⟨0x18, 0x0, 1, .none, 0x4, 0x0, { ro := 0xFFFFFF }⟩,
    ⟨0x1C, 0x0, 1, .none, 0x4, 0x0, { ro := 0xFFFFFF }⟩,
    ⟨0x20, 0x0, 1, .none, 0x4, 0x0, { rws := 0xFFFFFF }⟩,
    ⟨0x24, 0x0, 1, .none, 0x4, 0x0, { rws := 0xFFFFFF }⟩,
    ⟨0x100, 0x8, 12, .lo, 0x4, 0x0, { ro := 0xFFFFFFFF }⟩,
    ⟨0x104, 0x8, 12, .hi, 0x4, 0x0, { ro := 0xFFFFFFFF }⟩,
    ⟨0x300, 0x20, 8, .lo, 0x2, 0x0, { rw := 0xFFFFFFFF }⟩,
    ⟨0x304, 0x20, 8, .hi, 0x2, 0x0, { rw := 0xFFFF }⟩,
    ⟨0x308, 0x20, 8, .none, 0x2, 0x80, { rw := 0xBFF1 }⟩,
    ⟨0x30C, 0x20, 8, .none, 0x2, 0x0, { rw := 0xFFFFFFFF }⟩,
    ⟨0x310, 0x20, 8, .none, 0x2, 0x0, { ro := 0xFFFFFFFF }⟩,
    ⟨0x400, 0x0, 1, .lo, 0x2, 0x0, { rw := 0xFFFFFFFF }⟩,
    ⟨0x404, 0x0, 1, .hi, 0x2, 0x0, { rw := 0xFFFF }⟩,
    ⟨0x408, 0x0, 1, .none, 0x2, 0x80, { rw := 0xBFF1 }⟩,
    ⟨0x40C, 0x0, 1, .none, 0x2, 0x0, { rw := 0xFFFFFFFF }⟩,
    ⟨0x410, 0x0, 1, .none, 0x2, 0x0, { ro := 0xFFFFFFFF }⟩,
    ⟨0x500, 0x10, 8, .none, 0x4, 0x0, { rws := 0x87FFFFFF }⟩,
    ⟨0x504, 0x10, 8, .none, 0x4, 0x2EE0, { rws := 0xFFFFFFFF }⟩,
    ⟨0x508, 0x10, 8, .none, 0x4, 0xFFFFD120, { rws := 0xFFFFFFFF }⟩,
    ⟨0x600, 0x0, 1, .none, 0x4, 0x1, { rws := 0x800001FF }⟩,
    ⟨0x604, 0x0, 1, .none, 0x4, 0xF4240, { rws := 0xFFFFFFFF }⟩,
    ⟨0x608, 0x0, 1, .lo, 0x4, 0x0, { rws := 0xFFFFFFFF }⟩,
    ⟨0x60C, 0x0, 1, .hi, 0x4, 0x0, { rws := 0xFFFFFFFF }⟩,
    ⟨0x610, 0x0, 1, .none, 0x4, 0x0, { ro := 0x800000FF }⟩,
    ⟨0x1000, 0x8, 256, .none, 0x4, 0x0, { rws := 0xFFFFFFFF }⟩,
    ⟨0x1004, 0x8, 256, .none, 0x4, 0xFF, { rws := 0xFF }⟩,
    ⟨0x2200, 0x0, 1, .none, 0x4, 0xFD, { rws := 0xFFFFFF }⟩,
    ⟨0x2204, 0x0, 1, .none, 0x4, 0xFEF8F8F6, { rws := 0xFFFFFFFF }⟩,
    ⟨0x2208, 0x0, 1, .lo, 0x4, 0x0, { rws := 0xFFFFFFFF }⟩,
    ⟨0x220C, 0x0, 1, .hi, 0x4, 0x0, { rws := 0xFFFFFFFF }⟩,
    ⟨0x2210, 0x0, 1, .lo, 0x4, 0x0, { ro := 0xFFFFFFFF }⟩,
    ⟨0x2214, 0x0, 1, .hi, 0x4, 0x0, { ro := 0xFFFFFFFF }⟩,
    ⟨0x2218, 0x0, 1, .none, 0x4, 0x0, { ro := 0xFFFFFFFF }⟩,
    ⟨0x221C, 0x0, 1, .none, 0x4, 0x0, { ro := 0xFFFFFFFF }⟩ ]

/-- Registers of the link block, part 1. -/
def linkRows1 : List RegRow :=
  [
    ⟨0x2220, 0x0, 1, .none, 0x4, 0x0, { ro := 0xFFFF000F }⟩,
    ⟨0x2300, 0x0, 1, .none, 0x8, 0x10000000, { rw := 0xF00001FD }⟩,
    ⟨0x2304, 0x0, 1, .none, 0x8, 0x0, { rw := 0xFFFF }⟩,
    ⟨0x2308, 0x0, 1, .none, 0x8, 0x0, { rw := 0xFFFFFFFF }⟩,
    ⟨0x230C, 0x0, 1, .none, 0x8, 0x0, { rw := 0xFFFFFFFF }⟩,
    ⟨0x2310, 0x0, 1, .none, 0x8, 0x0, { rw := 0x1FFFF }⟩,
    ⟨0x2314, 0x0, 1, .none, 0x8, 0x0, { ro := 0xFFFFFFFF }⟩,
    ⟨0x2318, 0x0, 1, .none, 0x8, 0x0, { w1c := 0x3 }⟩,
    ⟨0x6000, 0x40, 32, .none, 0x4, 0x0, { rws := 0x7F7F }⟩,
    ⟨0x6004, 0x40, 32, .none, 0x4, 0x0, { rws := 0xFFFFFFFF }⟩,
    ⟨0x6008, 0x40, 32, .none, 0x4, 0x0, { rws := 0xFF0FFF }⟩,
    ⟨0x600C, 0x40, 32, .none, 0x4, 0x0, { rws := 0xFFFFFFFF }⟩,
    ⟨0x6010, 0x40, 32, .none, 0x4, 0x0, { rws := 0xFFFFFFFF }⟩,
    ⟨0x6014, 0x40, 32, .none, 0x4, 0x0, { rws := 0xFFFFFFFF }⟩,
    ⟨0x6018, 0x40, 32, .none, 0x4, 0x0, { rws := 0xFFFFFFFF }⟩,
    ⟨0x601C, 0x40, 32, .none, 0x4, 0x0, { rws := 0xFFFFFFFF }⟩,
    ⟨0x6020, 0x40, 32, .none, 0x4, 0x0, { ro := 0xFFFFFFFF }⟩ ]

/-- Registers of the link block. -/
def linkRows : List RegRow := linkRows0 ++ linkRows1

/-- Registers of the partner block. -/
def partnerRows : List RegRow :=
  [
    ⟨0x0, 0x0, 1, .none, 0x4, 0x0, { ro := 0x3FFFF }⟩,
    ⟨0x4, 0x0, 1, .none, 0x4, 0x0, { ro := 0xFFFF }⟩,
    ⟨0x8, 0x0, 1, .none, 0x4, 0x0, { ro := 0xFFFFFF77 }⟩,
    ⟨0xC, 0x0, 1, .none, 0x4, 0x0, { ro := 0xFFFFFFFF }⟩,
    ⟨0x10, 0x0, 1, .none, 0x4, 0x0, { ro := 0xFFFFFFFF }⟩,
    ⟨0x14, 0x0, 1, .none, 0xC, 0x200, { rw := 0x7F0000, rws := 0xF01, w1s := 0x80000000 }⟩,
    ⟨0x18, 0x0, 1, .none, 0x4, 0x0, { rws := 0xFFFF }⟩,
    ⟨0x1C, 0x0, 1, .none, 0x4, 0x0, { rws := 0xF0FFF }⟩,
    ⟨0x20, 0x0, 1, .lo, 0x4, 0x0, { rws := 0xFFFFFFFF }⟩,
    ⟨0x24, 0x0, 1, .hi, 0x4, 0x0, { rws := 0xFFFF }⟩,
    ⟨0x28, 0x0, 1, .none, 0x4, 0x0, { rws := 0x7F }⟩,
    ⟨0x2C, 0x0, 1, .none, 0x4, 0x0, { ro := 0xFFFFFFFF }⟩,
    ⟨0x30, 0x0, 1, .lo, 0x4, 0x0, { rws := 0xFFFFFFFF }⟩,
    ⟨0x34, 0x0, 1, .hi, 0x4, 0x0, { rws := 0xFFFF }⟩,
    ⟨0x38, 0x0, 1, .none, 0x4, 0x0, { ro := 0xFFFFFFFF }⟩,
    ⟨0x40, 0x0, 1, .none, 0x4, 0x60488B5, { rws := 0x71FFFFF }⟩,
    ⟨0x44, 0x0, 1, .none, 0x4, 0x100, { rws := 0x7FF }⟩,
    ⟨0x48, 0x0, 1, .none, 0x4, 0x14, { rws := 0xFFFF }⟩,
    ⟨0x4C, 0x0, 1, .none, 0x4, 0x8, { rws := 0xFF }⟩,
    ⟨0x50, 0x0, 1, .none, 0x4, 0x0, { rw := 0xFFFFFFFF }⟩,
    ⟨0x54, 0x0, 1, .none, 0x4, 0x2710, { rws := 0xFFFFF }⟩,
    ⟨0x60, 0x4, 4, .none, 0x4, 0x0, { rws := 0xEFFF0007 }⟩,
    ⟨0x70, 0x8, 4, .lo, 0x4, 0x0, { rws := 0xFFFFFFFF }⟩,
    ⟨0x74, 0x8, 4, .hi, 0x4, 0x0, { rws := 0xFFFF }⟩,
    ⟨0x100, 0x10, 8, .none, 0x2, 0x0, { rw := 0x80000F0F }⟩,
    ⟨0x104, 0x10, 8, .lo, 0x2, 0x0, { rw := 0xFFFFFFFF }⟩,
    ⟨0x108, 0x10, 8, .hi, 0x2, 0x0, { rw := 0xFFFFFFFF }⟩,
    ⟨0x200, 0x4, 9, .none, 0x4, 0x0, { ro := 0xFFFFFFFF }⟩ ]

/-- Registers of the gather block. -/
def gatherRows : List RegRow :=
  [
    ⟨0x0, 0x0, 1, .none, 0x4, 0x0, { ro := 0xFFF00FF }⟩,
    ⟨0x40, 0x4, 16, .none, 0x4, 0x0, { rws := 0xFFF }⟩,
    ⟨0x80, 0x0, 1, .lo, 0x4, 0x0, { ro := 0xFFFFFFFF }⟩,
    ⟨0x84, 0x0, 1, .hi, 0x4, 0x0, { ro := 0xFFFFFFFF }⟩,
    ⟨0x88, 0x0, 1, .lo, 0x4, 0x0, { ro := 0xFFFFFFFF }⟩,
    ⟨0x8C, 0x0, 1, .hi, 0x4, 0x0, { ro := 0xFFFFFFFF }⟩,
    ⟨0x90, 0x0, 1, .lo, 0x4, 0x0, { ro := 0xFFFFFFFF }⟩,
    ⟨0x94, 0x0, 1, .hi, 0x4, 0x0, { ro := 0xFFFFFFFF }⟩ ]

/-- Registers of the loft block. -/
def loftRows : List RegRow :=
  [
    ⟨0x0, 0x4, 16, .none, 0x4, 0x0, { rws := 0x31F }⟩,
    ⟨0x40, 0x0, 1, .none, 0x4, 0x0, { wo := 0x1F }⟩,
    ⟨0x44, 0x0, 1, .none, 0x4, 0x0, { ro := 0x1, w1c := 0x2 }⟩,
    ⟨0x48, 0x0, 1, .lo, 0x4, 0x0, { rw := 0xFFFFFFFF }⟩,
    ⟨0x4C, 0x0, 1, .hi, 0x4, 0x0, { rw := 0xFFFF }⟩,
    ⟨0x50, 0x0, 1, .lo, 0x4, 0x0, { rw := 0xFFFFFFFF }⟩,
    ⟨0x54, 0x0, 1, .hi, 0x4, 0x0, { rw := 0xFFFF }⟩,
    ⟨0x58, 0x0, 1, .none, 0x4, 0x1A, { rws := 0x1F }⟩,
    ⟨0x5C, 0x0, 1, .none, 0x4, 0x0, { ro := 0xFFFFFFFF }⟩,
    ⟨0x60, 0x0, 1, .none, 0x4, 0x0, { ro := 0xFFFFFFFF }⟩,
    ⟨0x64, 0x0, 1, .none, 0x4, 0x0, { ro := 0xE01FFFFF }⟩ ]

/-- Registers of the core block. -/
def coreRows : List RegRow :=
  [
    ⟨0x0, 0x0, 1, .none, 0x4, 0x0, { ro := 0xFFF7 }⟩,
    ⟨0x4, 0x0, 1, .none, 0x4, 0x0, { ro := 0x3FFF }⟩,
    ⟨0x8, 0x0, 1, .none, 0x4, 0x0, { ro := 0x83FFFFFF }⟩,
    ⟨0x10, 0x0, 1, .none, 0x4, 0x0, { ro := 0x1FFFF }⟩,
    ⟨0x14, 0x0, 1, .none, 0x4, 0x0, { ro := 0x3FFFF }⟩,
    ⟨0x18, 0x0, 1, .none, 0x4, 0x0, { ro := 0x3FFF }⟩,
    ⟨0x1C, 0x0, 1, .none, 0x4, 0x0, { ro := 0x7FFF }⟩,
    ⟨0x20, 0x0, 1, .none, 0x4, 0x0, { ro := 0xFFFF03FF }⟩,
    ⟨0x24, 0x0, 1, .none, 0x4, 0x0, { ro := 0xFFFFFFFF }⟩,
    ⟨0x30, 0x0, 1, .lo, 0x4, 0x0, { ro := 0xFFFFFFFF }⟩,
    ⟨0x34, 0x0, 1, .hi, 0x4, 0x0, { ro := 0xFFFFFFFF }⟩,
    ⟨0x38, 0x0, 1, .lo, 0x4, 0x0, { ro := 0xFFFFFFFF }⟩,
    ⟨0x3C, 0x0, 1, .hi, 0x4, 0x0, { ro := 0xFFFFFFFF }⟩,
    ⟨0x40, 0x0, 1, .none, 0x4, 0x0, { ro := 0x1FFFFFF }⟩,
    ⟨0x44, 0x0, 1, .none, 0x4, 0x0, { ro := 0xFFFFFFFF }⟩,
    ⟨0x48, 0x0, 1, .none, 0x4, 0x0, { ro := 0xF }⟩,
    ⟨0x80, 0x4, 32, .none, 0x4, 0x0, { ro := 0xFFFFFFFF }⟩,
    ⟨0x180, 0x0, 1, .none, 0x4, 0x0, { w1c := 0x7F }⟩,
    ⟨0x200, 0x4, 4, .none, 0x4, 0xFFFFF, { ro := 0x3FFFFF }⟩,
    ⟨0x210, 0x0, 1, .none, 0x4, 0x0, { ro := 0xFFFF }⟩,
    ⟨0x218, 0x8, 7, .lo, 0x4, 0x0, { ro := 0xFFFFFFFF }⟩,
    ⟨0x21C, 0x8, 7, .hi, 0x4, 0x0, { ro := 0xFFFFFFFF }⟩,
    ⟨0x300, 0x0, 1, .none, 0x4, 0xFFFF, { rws := 0xFFFF }⟩,
    ⟨0x304, 0x0, 1, .none, 0x4, 0x0, { ro := 0xFFFFFFFF }⟩,
    ⟨0x308, 0x0, 1, .none, 0x4, 0x19, { rws := 0x1F }⟩,
    ⟨0x30C, 0x0, 1, .none, 0x4, 0x0, { ro := 0xFFFFFFFF }⟩,
    ⟨0x310, 0x0, 1, .none, 0x4, 0x0, { ro := 0xFFFFFFFF }⟩,
    ⟨0x314, 0x0, 1, .none, 0x4, 0x0, { ro := 0xE001FFFF }⟩ ]

/-- Registers of the doorbell block. -/
def doorbellRows : List RegRow :=
  [
    ⟨0x0, 0x0, 1, .none, 0x1F, 0x0, { rw := 0xFFFFFFFF }⟩,
    ⟨0x4, 0x0, 1, .none, 0x1F, 0x0, { ro := 0xFFFFFFFF }⟩,
    ⟨0x8, 0x0, 1, .none, 0x1F, 0x0, { rw := 0xFFFFFFFF }⟩,
    ⟨0xC, 0x0, 1, .none, 0x1F, 0x0, { ro := 0xFFFFFFFF }⟩,
    ⟨0x10, 0x0, 1, .none, 0x1F, 0x0, { ro := 0x1F0007, w1c := 0x300 }⟩ ]

/-- The blocks of the region table, the per-core windows of the Kitty cores among them (00 Notation, 16 R611). -/
def regBlocks : List RegBlock :=
  [
    ⟨0x0, 0x8000, 1, 0x8000, globalRows⟩,
    ⟨0x10000, 0x10000, 1, 0x10000, callerRows⟩,
    ⟨0x20000, 0x10000, 1, 0x10000, safetyRows⟩,
    ⟨0x30000, 0x10000, 1, 0x10000, powerRows⟩,
    ⟨0x40000, 0x10000, 1, 0x10000, cofferRows⟩,
    ⟨0x50000, 0x10000, 1, 0x10000, dealerRows⟩,
    ⟨0x60000, 0x10000, 1, 0x10000, atuRows⟩,
    ⟨0x80000, 0x2000, 6, 0x2000, ingressRows⟩,
    ⟨0xA0000, 0x8000, 2, 0x7000, linkRows⟩,
    ⟨0xA7000, 0x1000, 1, 0x1000, partnerRows⟩,
    ⟨0xC0000, 0x1000, 4, 0x1000, gatherRows⟩,
    ⟨0xC8000, 0x1000, 1, 0x1000, loftRows⟩,
    ⟨0x100000, 0x4000, 64, 0x4000, coreRows⟩,
    ⟨0x8000, 0x400, 4, 0x400, coreRows⟩,
    ⟨0x200000, 0x1000, 1024, 0x1000, doorbellRows⟩ ]

/-- Whether an offset lies in a block. -/
def RegBlock.holds (b : RegBlock) (o : Nat) : Bool :=
  decide (b.base ≤ o) && decide (o < b.base + b.stride * b.count) && decide ((o - b.base) % b.stride < b.size)

/-- The row of the register at an offset from BB, if one is assigned there (R17). -/
def regRow (o : Nat) : Option RegRow :=
  match regBlocks.find? (RegBlock.holds · o) with
  | none => none
  | some b => b.rows.find? (RegRow.covers · ((o - b.base) % b.stride))

/-- The reset value of the register at an offset; zero where none is assigned. -/
def regReset (o : Nat) : Word :=
  match regRow o with
  | none => 0
  | some r => BitVec.ofNat 32 r.reset

/-- The window of physical core `p` (R219, R611). -/
def coreBase (p : Nat) : Nat := if p < 64 then 0x100000 + 0x4000 * p else 0x8000 + 0x400 * (p - 64)

namespace Reg

/-- ENG_ID (00 R4). -/
def engId : Nat := 0x0

/-- ENG_REV (00 R4). -/
def engRev : Nat := 0x4

/-- ENG_CFG0 (00 R4). -/
def engCfg0 : Nat := 0x8

/-- ENG_CFG1 (00 R4). -/
def engCfg1 : Nat := 0xC

/-- ENG_STATUS0 (00 R4,R5). -/
def engStatus0 : Nat := 0x10

/-- ABI_REQ (00 R11). -/
def abiReq : Nat := 0x20

/-- ABI_ACK (00 R11). -/
def abiAck : Nat := 0x24

/-- GLOBAL_CTRL (16 R625). -/
def globalCtrl : Nat := 0x40

/-- GLOBAL_STATUS (16 R625). -/
def globalStatus : Nat := 0x44

/-- IRQ_PEND (16 R625). -/
def irqPend : Nat := 0x50

/-- IRQ_SENT (16 R625). -/
def irqSent : Nat := 0x58

/-- IRQ_TEST (16 R625). -/
def irqTest : Nat := 0x5C

/-- COMMIT_CTRL (15 R605). -/
def commitCtrl : Nat := 0x100

/-- COMMIT_EPOCH (15 R605). -/
def commitEpoch : Nat := 0x104

/-- COMMIT_STATUS (15 R605). -/
def commitStatus : Nat := 0x108

/-- COMMIT_CONFLICT (15 R605). -/
def commitConflict : Nat := 0x10C

/-- COMMIT_COUNT (15 R605). -/
def commitCount : Nat := 0x110

/-- COMMIT_DONE_EPOCH (15 R605). -/
def commitDoneEpoch : Nat := 0x114

/-- TALLY (15 R605). -/
def tally : Nat := 0x118

/-- TALLY_PARTNER (15 R605). -/
def tallyPartner : Nat := 0x120

/-- TALLY_STATUS (15 R605). -/
def tallyStatus : Nat := 0x128

/-- TALLY_MISMATCH_CNT (15 R605). -/
def tallyMismatchCnt : Nat := 0x12C

/-- CALLER_STATUS (08 R352). -/
def callerStatus : Nat := 0x10000

/-- ADMIN_OP (08 R352). -/
def adminOp : Nat := 0x10010

/-- ADMIN_STATUS (08 R352). -/
def adminStatus : Nat := 0x10014

/-- ADMIN_ARG0 (08 R352). -/
def adminArg0 : Nat := 0x10018

/-- ADMIN_ARG1 (08 R352). -/
def adminArg1 : Nat := 0x10020

/-- WAIT_POLL (08 R352). -/
def waitPoll : Nat := 0x10030

/-- CALLER_IRQ (08 R352). -/
def callerIrq : Nat := 0x10034

/-- RES_STATUS (08 R352). -/
def resStatus : Nat := 0x10040

/-- PLAN_STATUS (08 R352). -/
def planStatus : Nat := 0x10050

/-- PLAN_OVERRUN (08 R352). -/
def planOverrun : Nat := 0x10054

/-- CALLER_TRICKS (08 R352). -/
def callerTricks : Nat := 0x10058

/-- PLAN_REC_OVERWRITE (08 R352). -/
def planRecOverwrite : Nat := 0x10060

/-- PART_CORE (08 R352). -/
def partCore (k : Nat) : Nat := 0x10100 + 0x8 * k

/-- PART_CTRL (08 R352). -/
def partCtrl (k : Nat) : Nat := 0x10180 + 0x4 * k

/-- PART_RUN (08 R352). -/
def partRun (k : Nat) : Nat := 0x101C0 + 0x4 * k

/-- CTX_RST (13 R549). -/
def ctxRst : Nat := 0x10800

/-- ENG_RST (13 R549). -/
def engRst : Nat := 0x10804

/-- RST_STATUS (13 R549). -/
def rstStatus : Nat := 0x10808

/-- RST_SEQ (13 R549). -/
def rstSeq : Nat := 0x1080C

/-- HANG_CTRL (13 R549). -/
def hangCtrl : Nat := 0x10810

/-- HANG_STATUS (13 R549). -/
def hangStatus : Nat := 0x10814

/-- ESC_STATUS (13 R549). -/
def escStatus : Nat := 0x10818

/-- ESC_PART (13 R549). -/
def escPart (k : Nat) : Nat := 0x10820 + 0x4 * k

/-- SERVICE_CAUSE (13 R549). -/
def serviceCause : Nat := 0x10860

/-- CORR_LIMIT (13 R549). -/
def corrLimit : Nat := 0x10864

/-- RETIRED_MAP (13 R549). -/
def retiredMap (k : Nat) : Nat := 0x10870 + 0x4 * k

/-- RETIRED_MAP2 (13 R549). -/
def retiredMap2 : Nat := 0x10878

/-- ELOG_NEWEST (13 R549). -/
def elogNewest : Nat := 0x10880

/-- ELOG_OLDEST (13 R549). -/
def elogOldest : Nat := 0x10884

/-- ELOG_IDX (13 R549). -/
def elogIdx : Nat := 0x10888

/-- ELOG_CTRL (13 R549). -/
def elogCtrl : Nat := 0x1088C

/-- ELOG_DATA (13 R549). -/
def elogData (k : Nat) : Nat := 0x10890 + 0x4 * k

/-- DUMP_STATUS (13 R549). -/
def dumpStatus : Nat := 0x108C0

/-- DUMP_IDX (13 R549). -/
def dumpIdx : Nat := 0x108C4

/-- DUMP_DATA (13 R549). -/
def dumpData : Nat := 0x108C8

/-- SM_STATUS (12 R520). -/
def smStatus : Nat := 0x20000

/-- SM_CAUSE (12 R520). -/
def smCause : Nat := 0x20004

/-- SM_TIME (12 R520). -/
def smTime : Nat := 0x20008

/-- LFC_STATUS (12 R520). -/
def lfcStatus : Nat := 0x20010

/-- LFC_TIME (12 R520). -/
def lfcTime : Nat := 0x20014

/-- SM_MODE (12 R520). -/
def smMode : Nat := 0x20018

/-- JK_OFFSET (12 R520). -/
def jkOffset : Nat := 0x20020

/-- JK_SPACING (12 R520). -/
def jkSpacing : Nat := 0x20024

/-- JK_STAGGER (12 R520). -/
def jkStagger : Nat := 0x20028

/-- JK_STATUS (12 R520). -/
def jkStatus : Nat := 0x2002C

/-- JK_FAIL (12 R520). -/
def jkFail : Nat := 0x20030

/-- JK_FAIL_CNT (12 R520). -/
def jkFailCnt : Nat := 0x20034

/-- JK_GOLDEN (12 R520,R493). -/
def jkGolden (k : Nat) : Nat := 0x20040 + 0x4 * k

/-- REDEAL_PAIR (12 R520). -/
def redealPair (k : Nat) : Nat := 0x20080 + 0x4 * k

/-- RD_STATUS (12 R520). -/
def rdStatus : Nat := 0x200C0

/-- RD_LAST (12 R520). -/
def rdLast : Nat := 0x200C4

/-- RD_MISMATCH_CNT (12 R520). -/
def rdMismatchCnt : Nat := 0x200C8

/-- AGE_RING_BASE (12 R520). -/
def ageRingBase : Nat := 0x20100

/-- AGE_RING_CTRL (12 R520). -/
def ageRingCtrl : Nat := 0x20108

/-- AGE_HEAD (12 R520). -/
def ageHead : Nat := 0x2010C

/-- AGE_TAIL (12 R520). -/
def ageTail : Nat := 0x20110

/-- AGE_SLOT (12 R520). -/
def ageSlot (k : Nat) : Nat := 0x20140 + 0x8 * k

/-- AGE_LIMIT (12 R520). -/
def ageLimit (k : Nat) : Nat := 0x20144 + 0x8 * k

/-- VERDICT_RING_BASE (12 R520). -/
def verdictRingBase : Nat := 0x20240

/-- VERDICT_RING_CTRL (12 R520). -/
def verdictRingCtrl : Nat := 0x20248

/-- VERDICT_HEAD (12 R520). -/
def verdictHead : Nat := 0x2024C

/-- VERDICT_TAIL (12 R520). -/
def verdictTail : Nat := 0x20250

/-- VERDICT (12 R520). -/
def verdict (k : Nat) : Nat := 0x20280 + 0x4 * k

/-- SM_INJ_CTRL (12 R520). -/
def smInjCtrl : Nat := 0x20300

/-- SM_INJ_STATUS (12 R520). -/
def smInjStatus : Nat := 0x20304

/-- SUSPECT_CNT (12 R520). -/
def suspectCnt (k : Nat) : Nat := 0x20400 + 0x4 * k

/-- PWR_STATUS (14 R572). -/
def pwrStatus : Nat := 0x30000

/-- PWR_OP_REQ (14 R572). -/
def pwrOpReq : Nat := 0x30004

/-- PWR_CAP (14 R572). -/
def pwrCap : Nat := 0x30008

/-- PWR_UNCORE_RES (14 R572). -/
def pwrUncoreRes : Nat := 0x3000C

/-- PWR_CTRL (14 R572). -/
def pwrCtrl : Nat := 0x30010

/-- PWR_THERM (14 R572). -/
def pwrTherm : Nat := 0x30014

/-- PWR_DROOP (14 R572). -/
def pwrDroop : Nat := 0x30018

/-- PWR_IRQ (14 R572). -/
def pwrIrq : Nat := 0x3001C

/-- PWR_EST (14 R572). -/
def pwrEst : Nat := 0x30020

/-- PWR_EST_UNCORE (14 R572). -/
def pwrEstUncore : Nat := 0x30024

/-- PWR_ENERGY (14 R572). -/
def pwrEnergy : Nat := 0x30028

/-- PWR_TEMP_MAX (14 R572). -/
def pwrTempMax : Nat := 0x30030

/-- PWR_TEMP (14 R572). -/
def pwrTemp (k : Nat) : Nat := 0x30040 + 0x4 * k

/-- PWR_ALLOC (14 R572). -/
def pwrAlloc (k : Nat) : Nat := 0x30080 + 0x4 * k

/-- PWR_WORK (14 R572). -/
def pwrWork (k : Nat) : Nat := 0x300C0 + 0x4 * k

/-- PWR_PEST (14 R572). -/
def pwrPest (k : Nat) : Nat := 0x30100 + 0x4 * k

/-- PWR_BUBBLE (14 R572). -/
def pwrBubble (k : Nat) : Nat := 0x30140 + 0x8 * k

/-- PWR_THR_STATUS (14 R572). -/
def pwrThrStatus : Nat := 0x301C0

/-- PWR_THR_TIME (14 R572). -/
def pwrThrTime (k : Nat) : Nat := 0x301C8 + 0x8 * k

/-- PWR_VID (14 R572). -/
def pwrVid (k : Nat) : Nat := 0x30200 + 0x4 * k

/-- PWR_CORE_EN (14 R572). -/
def pwrCoreEn : Nat := 0x30240

/-- PWR_UNIT_EN (14 R572). -/
def pwrUnitEn : Nat := 0x30248

/-- PWR_CORE_UP (14 R572). -/
def pwrCoreUp (k : Nat) : Nat := 0x30250 + 0x4 * k

/-- PWR_CORE_UP2 (14 R572). -/
def pwrCoreUp2 : Nat := 0x30258

/-- PWR_UNIT_UP (14 R572). -/
def pwrUnitUp : Nat := 0x3025C

/-- PWR_PTN_CTRL (14 R572). -/
def pwrPtnCtrl : Nat := 0x30260

/-- PWR_PTN_STATUS (14 R572). -/
def pwrPtnStatus : Nat := 0x30264

/-- PWR_WEIGHT (14 R572). -/
def pwrWeight (k : Nat) : Nat := 0x30400 + 0x4 * k

/-- PWR_LEAK (14 R572). -/
def pwrLeak (k : Nat) : Nat := 0x30440 + 0x4 * k

/-- COF_STATUS (15 R604). -/
def cofStatus : Nat := 0x40000

/-- COF_STORE_CTRL (15 R604). -/
def cofStoreCtrl : Nat := 0x40004

/-- COF_STORE_LEN (15 R604). -/
def cofStoreLen : Nat := 0x40008

/-- COF_CORR_CNT (15 R604). -/
def cofCorrCnt : Nat := 0x40010

/-- COF_UNC_CNT (15 R604). -/
def cofUncCnt : Nat := 0x40014

/-- COF_WEAR_IDX (15 R604). -/
def cofWearIdx : Nat := 0x40018

/-- COF_WEAR_DATA (15 R604). -/
def cofWearData : Nat := 0x4001C

/-- COF_WEAR_MAX (15 R604). -/
def cofWearMax : Nat := 0x40020

/-- COF_KIND_STATE (15 R604). -/
def cofKindState (k : Nat) : Nat := 0x40100 + 0x10 * k

/-- COF_KIND_SEQ_A (15 R604). -/
def cofKindSeqA (k : Nat) : Nat := 0x40104 + 0x10 * k

/-- COF_KIND_SEQ_B (15 R604). -/
def cofKindSeqB (k : Nat) : Nat := 0x40108 + 0x10 * k

/-- COF_KIND_LEN (15 R604). -/
def cofKindLen (k : Nat) : Nat := 0x4010C + 0x10 * k

/-- BOOT_STATUS (15 R604). -/
def bootStatus : Nat := 0x40200

/-- BOOT_TIME (15 R604). -/
def bootTime : Nat := 0x40204

/-- BOOT_PHASE_END (15 R604). -/
def bootPhaseEnd (k : Nat) : Nat := 0x40210 + 0x4 * k

/-- COF_STAGE (15 R604). -/
def cofStage (k : Nat) : Nat := 0x41000 + 0x4 * k

/-- DLR_STATUS (10 R432). -/
def dlrStatus : Nat := 0x50000

/-- DLR_SEAL_COUNT (10 R432). -/
def dlrSealCount : Nat := 0x50004

/-- SEAL_CTRL (10 R432). -/
def sealCtrl : Nat := 0x50008

/-- SEAL_RESULT (10 R432). -/
def sealResult : Nat := 0x5000C

/-- TIME_SEC_LO (10 R432). -/
def timeSecLo : Nat := 0x50010

/-- TIME_SEC_HI (10 R432). -/
def timeSecHi : Nat := 0x50014

/-- TIME_NS (10 R432). -/
def timeNs : Nat := 0x50018

/-- TIME_FRAC (10 R432). -/
def timeFrac : Nat := 0x5001C

/-- ELAPSED (10 R432). -/
def elapsed : Nat := 0x50020

/-- INCR (10 R432). -/
def incr : Nat := 0x50028

/-- ADJ_STEP (10 R432). -/
def adjStep : Nat := 0x50030

/-- ADJ_STATUS (10 R432). -/
def adjStatus : Nat := 0x50034

/-- LOAD_SEC (10 R432). -/
def loadSec : Nat := 0x50038

/-- LOAD_NS (10 R432). -/
def loadNs : Nat := 0x50040

/-- LOAD_CTRL (10 R432). -/
def loadCtrl : Nat := 0x50044

/-- TIME_SOURCE (10 R432). -/
def timeSource : Nat := 0x50048

/-- DCLK_MON (10 R432). -/
def dclkMon : Nat := 0x5004C

/-- STAMP (10 R432). -/
def stamp (k : Nat) : Nat := 0x50050 + 0x4 * k

/-- PPS_STAMP (10 R432). -/
def ppsStamp (k : Nat) : Nat := 0x50070 + 0x4 * k

/-- EPOCH_STAMP (10 R432). -/
def epochStamp (k : Nat) : Nat := 0x50090 + 0x4 * k

/-- PPS_OUT_CTRL (10 R432). -/
def ppsOutCtrl : Nat := 0x500B0

/-- LEDGER_NEWEST (10 R432). -/
def ledgerNewest : Nat := 0x500B4

/-- LEDGER_OLDEST (10 R432). -/
def ledgerOldest : Nat := 0x500B8

/-- LEDGER_IDX (10 R432). -/
def ledgerIdx : Nat := 0x500BC

/-- LEDGER_DATA (10 R432). -/
def ledgerData (k : Nat) : Nat := 0x500C0 + 0x4 * k

/-- LEDGER_RD_STATUS (10 R432). -/
def ledgerRdStatus : Nat := 0x500E0

/-- CAL_INCR_NOM (10 R432). -/
def calIncrNom : Nat := 0x50100

/-- CAL_INCR_MIN (10 R432). -/
def calIncrMin : Nat := 0x50108

/-- CAL_INCR_MAX (10 R432). -/
def calIncrMax : Nat := 0x50110

/-- CAL_STEP_MAX (10 R432). -/
def calStepMax : Nat := 0x50118

/-- CAL_PPS_IN_DELAY (10 R432). -/
def calPpsInDelay : Nat := 0x5011C

/-- CAL_PPS_OUT_DELAY (10 R432). -/
def calPpsOutDelay : Nat := 0x50120

/-- CAL_TB_LEAD (10 R432). -/
def calTbLead : Nat := 0x50124

/-- CAL_UNSEAL_LIMIT (10 R432). -/
def calUnsealLimit : Nat := 0x50128

/-- CAL_FS_DELAY (10 R432). -/
def calFsDelay (k : Nat) : Nat := 0x50140 + 0x4 * k

/-- CAL_CRC (10 R432,R423). -/
def calCrc : Nat := 0x50180

/-- EG_CTRL0 (10 R432). -/
def egCtrl (k : Nat) : Nat := 0x50200 + 0x20 * k

/-- EG_PERIOD_NS (10 R432). -/
def egPeriodNs (k : Nat) : Nat := 0x50204 + 0x20 * k

/-- EG_PERIOD_FRAC (10 R432). -/
def egPeriodFrac (k : Nat) : Nat := 0x50208 + 0x20 * k

/-- EG_PHASE_NS (10 R432). -/
def egPhaseNs (k : Nat) : Nat := 0x5020C + 0x20 * k

/-- EG_EPOCH (10 R432). -/
def egEpoch (k : Nat) : Nat := 0x50210 + 0x20 * k

/-- FS_CTRL (10 R432). -/
def fsCtrl (k : Nat) : Nat := 0x50300 + 0x10 * k

/-- FS_PHASE (10 R432). -/
def fsPhase (k : Nat) : Nat := 0x50304 + 0x10 * k

/-- FS_WIDTH (10 R432). -/
def fsWidth (k : Nat) : Nat := 0x50308 + 0x10 * k

/-- FS_COUNT (10 R432). -/
def fsCount (k : Nat) : Nat := 0x5030C + 0x10 * k

/-- ATU_STATUS (09 R400). -/
def atuStatus : Nat := 0x60000

/-- FAULT_RING_BASE (09 R400). -/
def faultRingBase : Nat := 0x60010

/-- FAULT_RING_CTRL (09 R400). -/
def faultRingCtrl : Nat := 0x60018

/-- FAULT_HEAD (09 R400). -/
def faultHead : Nat := 0x6001C

/-- FAULT_TAIL (09 R400). -/
def faultTail : Nat := 0x60020

/-- FAULT_STATUS (09 R400). -/
def faultStatus : Nat := 0x60024

/-- CTX_OP (09 R400). -/
def ctxOp : Nat := 0x60030

/-- CTX_OP_STATUS (09 R400). -/
def ctxOpStatus : Nat := 0x60034

/-- TB_INV_CTRL (09 R400). -/
def tbInvCtrl : Nat := 0x60040

/-- TB_INV_STATUS (09 R400). -/
def tbInvStatus : Nat := 0x60044

/-- TB_INV_VA (09 R400). -/
def tbInvVa : Nat := 0x60048

/-- TB_INV_SIZE (09 R400). -/
def tbInvSize : Nat := 0x60050

/-- REG_FW_LOG (09 R400). -/
def regFwLog : Nat := 0x60060

/-- REG_FW_CNT (09 R400). -/
def regFwCnt : Nat := 0x60064

/-- FW_CTRL (09 R400). -/
def fwCtrl : Nat := 0x60080

/-- FW_BASE (09 R400). -/
def fwBase (k : Nat) : Nat := 0x61000 + 0x20 * k

/-- FW_LIMIT (09 R400). -/
def fwLimit (k : Nat) : Nat := 0x61008 + 0x20 * k

/-- FW_PERM (09 R400). -/
def fwPerm (k : Nat) : Nat := 0x61010 + 0x20 * k

/-- FW_MASKS (09 R400). -/
def fwMasks (k : Nat) : Nat := 0x61014 + 0x20 * k

/-- KFP_STATUS (09 R400). -/
def kfpStatus (k : Nat) : Nat := 0x62000 + 0x100 * k

/-- KFP_RD_BYTES (09 R400). -/
def kfpRdBytes (k : Nat) : Nat := 0x62008 + 0x100 * k

/-- KFP_WR_BYTES (09 R400). -/
def kfpWrBytes (k : Nat) : Nat := 0x62010 + 0x100 * k

/-- TB_HITS (09 R400). -/
def tbHits (k : Nat) : Nat := 0x62018 + 0x100 * k

/-- TB_MISSES (09 R400). -/
def tbMisses (k : Nat) : Nat := 0x62020 + 0x100 * k

/-- KFP_LATE (09 R400). -/
def kfpLate (k : Nat) : Nat := 0x62028 + 0x100 * k

/-- KFP_PROTO_ERR (09 R400). -/
def kfpProtoErr (k : Nat) : Nat := 0x6202C + 0x100 * k

/-- KFP_POISON_IN (09 R400). -/
def kfpPoisonIn (k : Nat) : Nat := 0x62030 + 0x100 * k

/-- LPI_STATUS (07 R303). -/
def lpiStatus (n : Nat) : Nat := 0x80000 + 0x2000 * n

/-- LPI_CNT_MALFORMED (07 R303). -/
def lpiCntMalformed (n : Nat) : Nat := 0x80004 + 0x2000 * n

/-- LPI_CNT_NOCTX (07 R303). -/
def lpiCntNoctx (n : Nat) : Nat := 0x80008 + 0x2000 * n

/-- LPI_READY_LOW (07 R303). -/
def lpiReadyLow (n : Nat) : Nat := 0x80010 + 0x2000 * n

/-- SC_CTRL (07 R303). -/
def scCtrl (n : Nat) : Nat := 0x80100 + 0x2000 * (n / 16) + 0x100 * (n % 16)

/-- SC_OWNER (07 R303). -/
def scOwner (n : Nat) : Nat := 0x80104 + 0x2000 * (n / 16) + 0x100 * (n % 16)

/-- SC_GEOM (07 R303). -/
def scGeom (n : Nat) : Nat := 0x80108 + 0x2000 * (n / 16) + 0x100 * (n % 16)

/-- SC_RING (07 R303). -/
def scRing (n : Nat) : Nat := 0x8010C + 0x2000 * (n / 16) + 0x100 * (n % 16)

/-- SC_RING_BASE (07 R303). -/
def scRingBase (n : Nat) : Nat := 0x80110 + 0x2000 * (n / 16) + 0x100 * (n % 16)

/-- SC_STATUS_BASE (07 R303). -/
def scStatusBase (n : Nat) : Nat := 0x80114 + 0x2000 * (n / 16) + 0x100 * (n % 16)

/-- SC_STRIPE (07 R303). -/
def scStripe (n : Nat) : Nat := 0x80118 + 0x2000 * (n / 16) + 0x100 * (n % 16)

/-- SC_STRIPE_LINES (07 R303). -/
def scStripeLines (n : Nat) : Nat := 0x8011C + 0x2000 * (n / 16) + 0x100 * (n % 16)

/-- SC_LINE_PERIOD (07 R303). -/
def scLinePeriod (n : Nat) : Nat := 0x80120 + 0x2000 * (n / 16) + 0x100 * (n % 16)

/-- SC_SLACK (07 R303). -/
def scSlack (n : Nat) : Nat := 0x80124 + 0x2000 * (n / 16) + 0x100 * (n % 16)

/-- SC_AZ_RANGE (07 R303). -/
def scAzRange (n : Nat) : Nat := 0x80128 + 0x2000 * (n / 16) + 0x100 * (n % 16)

/-- SC_GATE0 (07 R303). -/
def scGate0 (n : Nat) : Nat := 0x80130 + 0x2000 * (n / 16) + 0x100 * (n % 16)

/-- SC_GATE1 (07 R303). -/
def scGate1 (n : Nat) : Nat := 0x80138 + 0x2000 * (n / 16) + 0x100 * (n % 16)

/-- SC_OPEN_TIME (07 R303). -/
def scOpenTime (n : Nat) : Nat := 0x80140 + 0x2000 * (n / 16) + 0x100 * (n % 16)

/-- SC_CNT_GOOD (07 R303). -/
def scCntGood (n : Nat) : Nat := 0x80150 + 0x2000 * (n / 16) + 0x100 * (n % 16)

/-- SC_CNT_CRC (07 R303). -/
def scCntCrc (n : Nat) : Nat := 0x80154 + 0x2000 * (n / 16) + 0x100 * (n % 16)

/-- SC_CNT_HOLE (07 R303). -/
def scCntHole (n : Nat) : Nat := 0x80158 + 0x2000 * (n / 16) + 0x100 * (n % 16)

/-- SC_CNT_LATE (07 R303). -/
def scCntLate (n : Nat) : Nat := 0x8015C + 0x2000 * (n / 16) + 0x100 * (n % 16)

/-- SC_CNT_DISCARD (07 R303). -/
def scCntDiscard (n : Nat) : Nat := 0x80160 + 0x2000 * (n / 16) + 0x100 * (n % 16)

/-- SC_CNT_SIZE (07 R303). -/
def scCntSize (n : Nat) : Nat := 0x80164 + 0x2000 * (n / 16) + 0x100 * (n % 16)

/-- SC_CNT_SKIP (07 R303). -/
def scCntSkip (n : Nat) : Nat := 0x80168 + 0x2000 * (n / 16) + 0x100 * (n % 16)

/-- SC_CNT_GATE_LATE (07 R303). -/
def scCntGateLate (n : Nat) : Nat := 0x8016C + 0x2000 * (n / 16) + 0x100 * (n % 16)

/-- LNK_CTRL (11 R480). -/
def lnkCtrl (n : Nat) : Nat := 0xA0000 + 0x8000 * n

/-- LNK_STATUS (11 R480). -/
def lnkStatus (n : Nat) : Nat := 0xA0004 + 0x8000 * n

/-- LNK_MAC (11 R480). -/
def lnkMac (n : Nat) : Nat := 0xA0008 + 0x8000 * n

/-- LNK_MAXFRAME (11 R480). -/
def lnkMaxframe (n : Nat) : Nat := 0xA0010 + 0x8000 * n

/-- LNK_HOSTCTX (11 R480). -/
def lnkHostctx (n : Nat) : Nat := 0xA0014 + 0x8000 * n

/-- TS_PCS_TX (11 R480,R449). -/
def tsPcsTx (n : Nat) : Nat := 0xA0018 + 0x8000 * n

/-- TS_PCS_RX (11 R480,R449). -/
def tsPcsRx (n : Nat) : Nat := 0xA001C + 0x8000 * n

/-- EXT_TX_DELAY (11 R480). -/
def extTxDelay (n : Nat) : Nat := 0xA0020 + 0x8000 * n

/-- EXT_RX_DELAY (11 R480). -/
def extRxDelay (n : Nat) : Nat := 0xA0024 + 0x8000 * n

/-- LNK_CNT (RX_FRAMES, RX_BYTES, RX_FCS_ERR, RX_SIZE_ERR, RX_MACCTRL, RX_DROP_ADDR, RX_DROP_HOST, TX_FRAMES, TX_BYTES, FEC_CORR, FEC_UNCORR, LINK_DOWN) (11 R480). -/
def lnkCnt (n : Nat) (k : Nat) : Nat := 0xA0100 + 0x8000 * n + 0x8 * k

/-- TXR_BASE (11 R480). -/
def txrBase (n : Nat) (k : Nat) : Nat := 0xA0300 + 0x8000 * n + 0x20 * k

/-- TXR_CTRL (11 R480). -/
def txrCtrl (n : Nat) (k : Nat) : Nat := 0xA0308 + 0x8000 * n + 0x20 * k

/-- TXR_TAIL (11 R480). -/
def txrTail (n : Nat) (k : Nat) : Nat := 0xA030C + 0x8000 * n + 0x20 * k

/-- TXR_HEAD (11 R480). -/
def txrHead (n : Nat) (k : Nat) : Nat := 0xA0310 + 0x8000 * n + 0x20 * k

/-- RXR_BASE (11 R480). -/
def rxrBase (n : Nat) : Nat := 0xA0400 + 0x8000 * n

/-- RXR_CTRL (11 R480). -/
def rxrCtrl (n : Nat) : Nat := 0xA0408 + 0x8000 * n

/-- RXR_TAIL (11 R480). -/
def rxrTail (n : Nat) : Nat := 0xA040C + 0x8000 * n

/-- RXR_HEAD (11 R480). -/
def rxrHead (n : Nat) : Nat := 0xA0410 + 0x8000 * n

/-- CBS_IDLE (11 R480). -/
def cbsIdle (n : Nat) (k : Nat) : Nat := 0xA0500 + 0x8000 * n + 0x10 * k

/-- CBS_HI (11 R480). -/
def cbsHi (n : Nat) (k : Nat) : Nat := 0xA0504 + 0x8000 * n + 0x10 * k

/-- CBS_LO (11 R480). -/
def cbsLo (n : Nat) (k : Nat) : Nat := 0xA0508 + 0x8000 * n + 0x10 * k

/-- GCL_CTRL (11 R480). -/
def gclCtrl (n : Nat) : Nat := 0xA0600 + 0x8000 * n

/-- GCL_CYCLE (11 R480). -/
def gclCycle (n : Nat) : Nat := 0xA0604 + 0x8000 * n

/-- GCL_BASE (11 R480). -/
def gclBase (n : Nat) : Nat := 0xA0608 + 0x8000 * n

/-- GCL_STATUS (11 R480). -/
def gclStatus (n : Nat) : Nat := 0xA0610 + 0x8000 * n

/-- GCL_INTERVAL (11 R480). -/
def gclInterval (n : Nat) (k : Nat) : Nat := 0xA1000 + 0x8000 * n + 0x8 * k

/-- GCL_GATES (11 R480). -/
def gclGates (n : Nat) (k : Nat) : Nat := 0xA1004 + 0x8000 * n + 0x8 * k

/-- AS_CTRL (11 R480). -/
def asCtrl (n : Nat) : Nat := 0xA2200 + 0x8000 * n

/-- AS_GM (11 R480). -/
def asGm (n : Nat) : Nat := 0xA2204 + 0x8000 * n

/-- AS_CLOCKID (11 R480). -/
def asClockid (n : Nat) : Nat := 0xA2208 + 0x8000 * n

/-- AS_OFFSET (11 R480). -/
def asOffset (n : Nat) : Nat := 0xA2210 + 0x8000 * n

/-- AS_LINKDELAY (11 R480). -/
def asLinkdelay (n : Nat) : Nat := 0xA2218 + 0x8000 * n

/-- AS_RATIO (11 R480). -/
def asRatio (n : Nat) : Nat := 0xA221C + 0x8000 * n

/-- AS_STATUS (11 R480). -/
def asStatus (n : Nat) : Nat := 0xA2220 + 0x8000 * n

/-- INJ_CTRL (11 R480). -/
def injCtrl (n : Nat) : Nat := 0xA2300 + 0x8000 * n

/-- INJ_RATE (11 R480). -/
def injRate (n : Nat) : Nat := 0xA2304 + 0x8000 * n

/-- INJ_PATTERN (11 R480). -/
def injPattern (n : Nat) : Nat := 0xA2308 + 0x8000 * n

/-- INJ_SEED (11 R480). -/
def injSeed (n : Nat) : Nat := 0xA230C + 0x8000 * n

/-- INJ_BIT (11 R480). -/
def injBit (n : Nat) : Nat := 0xA2310 + 0x8000 * n

/-- INJ_COUNT (11 R480). -/
def injCount (n : Nat) : Nat := 0xA2314 + 0x8000 * n

/-- INJ_STATUS (11 R480). -/
def injStatus (n : Nat) : Nat := 0xA2318 + 0x8000 * n

/-- FR_CTRL (07 R302). -/
def frCtrl (n : Nat) (k : Nat) : Nat := 0xA6000 + 0x8000 * n + 0x40 * k

/-- FR_PORTS (07 R302). -/
def frPorts (n : Nat) (k : Nat) : Nat := 0xA6004 + 0x8000 * n + 0x40 * k

/-- FR_MATCH (07 R302). -/
def frMatch (n : Nat) (k : Nat) : Nat := 0xA6008 + 0x8000 * n + 0x40 * k

/-- FR_OFFSETS (07 R302). -/
def frOffsets (n : Nat) (k : Nat) : Nat := 0xA600C + 0x8000 * n + 0x40 * k

/-- FR_SRC_ADDR0 (07 R302). -/
def frSrcAddr0 (n : Nat) (k : Nat) : Nat := 0xA6010 + 0x8000 * n + 0x40 * k

/-- FR_SRC_ADDR1 (07 R302). -/
def frSrcAddr1 (n : Nat) (k : Nat) : Nat := 0xA6014 + 0x8000 * n + 0x40 * k

/-- FR_SRC_ADDR2 (07 R302). -/
def frSrcAddr2 (n : Nat) (k : Nat) : Nat := 0xA6018 + 0x8000 * n + 0x40 * k

/-- FR_SRC_ADDR3 (07 R302). -/
def frSrcAddr3 (n : Nat) (k : Nat) : Nat := 0xA601C + 0x8000 * n + 0x40 * k

/-- FR_HITS (07 R302). -/
def frHits (n : Nat) (k : Nat) : Nat := 0xA6020 + 0x8000 * n + 0x40 * k

/-- PTN_CFG (11 R481). -/
def ptnCfg : Nat := 0xA7000

/-- PTN_PARTNER (11 R481). -/
def ptnPartner : Nat := 0xA7004

/-- PTN_STATUS (11 R481). -/
def ptnStatus : Nat := 0xA7008

/-- PTN_MIRROR (11 R481). -/
def ptnMirror : Nat := 0xA700C

/-- PTN_MIRROR_INFO (11 R481). -/
def ptnMirrorInfo : Nat := 0xA7010

/-- PTN_CTRL (11 R481). -/
def ptnCtrl : Nat := 0xA7014

/-- PTN_HOLD (11 R481). -/
def ptnHold : Nat := 0xA7018

/-- MIRROR_CTX (11 R481). -/
def mirrorCtx : Nat := 0xA701C

/-- MIRROR_TABLE_VA (11 R481). -/
def mirrorTableVa : Nat := 0xA7020

/-- MIRROR_COUNT (11 R481). -/
def mirrorCount : Nat := 0xA7028

/-- PTN_EPOCH_OFFSET (11 R481). -/
def ptnEpochOffset : Nat := 0xA702C

/-- MIRROR_STATE_VA (11 R481). -/
def mirrorStateVa : Nat := 0xA7030

/-- PTN_MIRROR_SENT (11 R481). -/
def ptnMirrorSent : Nat := 0xA7038

/-- HTP_CFG (11 R481). -/
def htpCfg : Nat := 0xA7040

/-- HTP_WIN (11 R481). -/
def htpWin : Nat := 0xA7044

/-- HTP_RTO (11 R481). -/
def htpRto : Nat := 0xA7048

/-- HTP_RETRY (11 R481). -/
def htpRetry : Nat := 0xA704C

/-- CUT_CAL (11 R481). -/
def cutCal : Nat := 0xA7050

/-- CUT_LEAD (11 R481). -/
def cutLead : Nat := 0xA7054

/-- PEER_CTRL (11 R481). -/
def peerCtrl (k : Nat) : Nat := 0xA7060 + 0x4 * k

/-- PEER_MAC (11 R481). -/
def peerMac (k : Nat) : Nat := 0xA7070 + 0x8 * k

/-- CL_CTRL (11 R481). -/
def clCtrl (k : Nat) : Nat := 0xA7100 + 0x10 * k

/-- CL_TIME (11 R481). -/
def clTime (k : Nat) : Nat := 0xA7104 + 0x10 * k

/-- PTN_CNT (HTP_TX_FRAMES, HTP_RETX, HTP_SESSION_LOSS, HTP_DISCARD, MIRROR_OVERRUN, MIRROR_MISMATCH, CUT_LATE, CL_LATE, EPOCH_SLIP) (11 R481). -/
def ptnCnt (k : Nat) : Nat := 0xA7200 + 0x4 * k

/-- GU_STATUS (06 R272). -/
def guStatus (n : Nat) : Nat := 0xC0000 + 0x1000 * n

/-- GU_RESERVE (06 R272). -/
def guReserve (n : Nat) (k : Nat) : Nat := 0xC0040 + 0x1000 * n + 0x4 * k

/-- GU_ROWS (06 R272). -/
def guRows (n : Nat) : Nat := 0xC0080 + 0x1000 * n

/-- GU_HITS (06 R272). -/
def guHits (n : Nat) : Nat := 0xC0088 + 0x1000 * n

/-- GU_OOB (06 R272). -/
def guOob (n : Nat) : Nat := 0xC0090 + 0x1000 * n

/-- LOFT_WAY (06 R247). -/
def loftWay (k : Nat) : Nat := 0xC8000 + 0x4 * k

/-- LOFT_INV_CTRL (06 R247). -/
def loftInvCtrl : Nat := 0xC8040

/-- LOFT_INV_STATUS (06 R247). -/
def loftInvStatus : Nat := 0xC8044

/-- LOFT_INV_BASE (06 R247). -/
def loftInvBase : Nat := 0xC8048

/-- LOFT_INV_SIZE (06 R247). -/
def loftInvSize : Nat := 0xC8050

/-- LOFT_SCRUB (06 R247). -/
def loftScrub : Nat := 0xC8058

/-- LOFT_CORR_CNT (06 R247). -/
def loftCorrCnt : Nat := 0xC805C

/-- LOFT_UNC_CNT (06 R247). -/
def loftUncCnt : Nat := 0xC8060

/-- LOFT_ERR_ADDR (06 R247). -/
def loftErrAddr : Nat := 0xC8064

/-- CORE_STATE (05 R219). -/
def coreState (p : Nat) : Nat := coreBase p + 0x0

/-- CORE_PC (05 R219). -/
def corePc (p : Nat) : Nat := coreBase p + 0x4

/-- CORE_CTX (05 R219). -/
def coreCtx (p : Nat) : Nat := coreBase p + 0x8

/-- PBASE (05 R219). -/
def pbase (p : Nat) : Nat := coreBase p + 0x10

/-- PBOUND (05 R219). -/
def pbound (p : Nat) : Nat := coreBase p + 0x14

/-- IBASE (05 R219). -/
def ibase (p : Nat) : Nat := coreBase p + 0x18

/-- IBOUND (05 R219). -/
def ibound (p : Nat) : Nat := coreBase p + 0x1C

/-- TRAP_CAUSE (05 R219). -/
def trapCause (p : Nat) : Nat := coreBase p + 0x20

/-- TRAP_ADDR (05 R219). -/
def trapAddr (p : Nat) : Nat := coreBase p + 0x24

/-- RETIRED (05 R219). -/
def retired (p : Nat) : Nat := coreBase p + 0x30

/-- TRICKS (05 R219). -/
def tricks (p : Nat) : Nat := coreBase p + 0x38

/-- WAIT_INFO (05 R219). -/
def waitInfo (p : Nat) : Nat := coreBase p + 0x40

/-- WAIT_THRESH (05 R219). -/
def waitThresh (p : Nat) : Nat := coreBase p + 0x44

/-- CORE_FLAGS (05 R219). -/
def coreFlags (p : Nat) : Nat := coreBase p + 0x48

/-- CNT_MIRROR (05 R219). -/
def cntMirror (p : Nat) (k : Nat) : Nat := coreBase p + 0x80 + 0x4 * k

/-- ARITH_STATUS (02 R99). -/
def arithStatus (p : Nat) : Nat := coreBase p + 0x180

/-- ARRAY_REPAIR (03 R134). -/
def arrayRepair (p : Nat) (k : Nat) : Nat := coreBase p + 0x200 + 0x4 * k

/-- MATRIX_STATUS (03 R134). -/
def matrixStatus (p : Nat) : Nat := coreBase p + 0x210

/-- MX_CNT (MX_ACTIVE, MX_FRZ_FEED, MX_FRZ_DECK, MX_FRZ_BANK, MX_FRZ_DRAIN, MX_FRZ_RAMP, MX_HOLD) (03 R134). -/
def mxCnt (p : Nat) (k : Nat) : Nat := coreBase p + 0x218 + 0x8 * k

/-- PANTRY_GRANULE_EN (06 R235). -/
def pantryGranuleEn (p : Nat) : Nat := coreBase p + 0x300

/-- PANTRY_GRANULE_STATE (06 R235). -/
def pantryGranuleState (p : Nat) : Nat := coreBase p + 0x304

/-- PANTRY_SCRUB (06 R235). -/
def pantryScrub (p : Nat) : Nat := coreBase p + 0x308

/-- PANTRY_CORR_CNT (06 R235). -/
def pantryCorrCnt (p : Nat) : Nat := coreBase p + 0x30C

/-- PANTRY_UNC_CNT (06 R235). -/
def pantryUncCnt (p : Nat) : Nat := coreBase p + 0x310

/-- PANTRY_ERR_ADDR (06 R235). -/
def pantryErrAddr (p : Nat) : Nat := coreBase p + 0x314

/-- DB_TAIL (08 R311). -/
def dbTail (n : Nat) : Nat := 0x200000 + 0x1000 * n

/-- DB_HEAD (08 R311). -/
def dbHead (n : Nat) : Nat := 0x200004 + 0x1000 * n

/-- DB_REC_HEAD (08 R311). -/
def dbRecHead (n : Nat) : Nat := 0x200008 + 0x1000 * n

/-- DB_REC_TAIL (08 R311). -/
def dbRecTail (n : Nat) : Nat := 0x20000C + 0x1000 * n

/-- DB_STATE (08 R311). -/
def dbState (n : Nat) : Nat := 0x200010 + 0x1000 * n

end Reg

end Sys2Proof
end

