-- ==== Sys2Proof/Machine/SafetyState.lean ====
section
/-!
DEFINITION. What the Safety Monitor holds besides its registers (12_functional_safety.md).
-/
namespace Sys2Proof.Machine

open Sys2Proof

/-- The Joker of one logical core in the current epoch (R488): segments begun, the segment at work with the physical
core it runs on, and segments that matched. -/
structure JokerRun where
  begun : Nat
  running : Option (Nat × Nat)
  matched : Nat
deriving DecidableEq, Repr

def JokerRun.start : JokerRun := ⟨0, none, 0⟩

/-- The verdict of a partition and an epoch, until it is written (R510, R511): the cause bits, whether a class A or B
fault is among them, the DETAIL of the first cause, and whether TALLY_MISMATCH held. -/
structure VerdictRun where
  part : Nat
  epoch : Nat
  causes : Nat
  fail : Bool
  detail : Option Nat
  tally : Bool
deriving DecidableEq, Repr

/-- The Safety Monitor. -/
structure Safety where
  /-- JK_OFFSET, JK_SPACING and JK_STAGGER in force (R489), and the elapsed ns of the boundary that began the epoch; none
  before the first boundary after a start. -/
  jkOffset : Nat
  jkSpacing : Nat
  jkStagger : Nat
  jkBase : Option Nat
  /-- Logical cores that had power at that boundary: a segment that they do not end is missed. -/
  jkCores : List Nat
  joker : Tbl JokerRun
  /-- Physical cores that have completed all segments of an epoch since they were powered or substituted (R495). -/
  passed : List Nat
  /-- A segment failed or was missed in this epoch; JK_FAIL has been written for it (R493). -/
  jkFailed : Bool
  /-- Injections that wait (R518): physical core, segment and epoch; pairs; slots. -/
  injJoker : List (Nat × Nat × Nat)
  injRedeal : List Nat
  injAge : List Nat
  /-- Events of R503: physical core and epoch. -/
  suspects : List (Nat × Nat)
  /-- Cores to retire at the next boundary (R503). -/
  retire : List Nat
  verdicts : List VerdictRun
  /-- Records that wait for their rings (R509). -/
  ageWait : List (List Byte)
  verdictWait : List (List Byte)
  /-- Whole epochs without a publication, by slot (R508). -/
  ageIdle : Tbl Nat
  /-- The levels driven on SAFE_ERR0 and SAFE_ERR1 (R512). -/
  safe0 : Bool
  safe1 : Bool
deriving DecidableEq, Repr

def Safety.reset : Safety :=
  { jkOffset := 100000, jkSpacing := 4000000, jkStagger := 2000, jkBase := none, jkCores := [], joker := [], passed := [],
    jkFailed := false, injJoker := [], injRedeal := [], injAge := [], suspects := [], retire := [], verdicts := [],
    ageWait := [], verdictWait := [], ageIdle := [], safe0 := false, safe1 := false }

end Sys2Proof.Machine
end

