-- ==== Sys2Proof/Machine/StreamState.lean ====
section
/-!
DEFINITION. What a sensor stream holds besides its registers (07_streams_and_line_lock.md).
-/
namespace Sys2Proof.Machine

open Sys2Proof

/-- A position that has been accepted and awaits its final status word (R290). -/
structure LineMeta where
  pos : Nat
  frame : Word
  state : Nat
  flags : Nat
  bytes : Nat
  arrival : DWord
  source : DWord
  /-- Beats that the packet takes in the port's input buffer until the position resolves (R279, log entry 103). -/
  beats : Nat
deriving DecidableEq, Repr

/-- A stream at work (R281 to R287). -/
structure StreamRun where
  /-- Highest position accepted in the open frame. -/
  highest : Option Nat
  /-- Positions below this that were not accepted resolve as holes. -/
  holeTo : Nat
  pend : List LineMeta
  /-- The frame that opened last since the stream was enabled (R283). -/
  lastFrame : Option Word
  /-- Revolutions opened since enable (R287). -/
  revs : Word
  /-- Last extended sequence, and packets matched since enable (R286). -/
  lastSeq : Option Nat
  matched : Nat
  /-- The open sector, whose packets are being appended (R287). -/
  sector : Option LineMeta
  /-- When the last frame of each parity opened (12 R506). -/
  opened : Tbl DWord
deriving DecidableEq, Repr

def StreamRun.start : StreamRun := ⟨none, 0, [], none, 0, none, 0, none, []⟩

end Sys2Proof.Machine
end

