-- ==== Sys2Proof/Machine/Hw.lean ====
section
/-!
DEFINITION. The hardware: every register and every unit of the engine but the on-chip memory.
-/
namespace Sys2Proof.Machine

open Sys2Proof

/-- What the engine sends out of itself (log entry 10): newest first in `Hw.outs`. -/
inductive Out where
  /-- An interrupt message (16 R610). -/
  | irq (vector : Nat)
  /-- A memory-port request: port, tag, physical address, bytes, write, context, generation, partition, system, QOS. -/
  | request (port tag pa bytes : Nat) (write : Bool) (ctx gen part : Nat) (sys : Bool) (qos : Nat)
  /-- A beat of write data: port, tag, 64 bytes, byte enables, WD_POISON, WD_LAST (09 R379, R389, R392). -/
  | data (port tag : Nat) (data : List Byte) (be : DWord) (poison last : Bool)
  /-- A frame leaves a link port without its FCS, which is as formed or with one bit inverted behind it (11 R436, R467). -/
  | frame (link cls : Nat) (data : List Byte) (fcsBad : Bool)
  /-- What a test instrument captured, as WSO then shifts it out (16 R622). -/
  | test (data : List Byte)
deriving DecidableEq, Repr

/-- The hardware. -/
structure Hw where
  /-- Registers that do not read as their reset value (00 R17 to R25). -/
  regs : Tbl Word
  /-- Shadow values of RWS registers that differ from the reset value (R23). -/
  shadow : Tbl Word
  /-- The captured set that awaits its effect point (15 R595). -/
  captured : Option Captured
  /-- Snapshots of _HI words, by offset (R19), and staged _LO writes (R20). -/
  snaps : Tbl Word
  staged : Tbl Word
  cores : Tbl Core
  /-- The physical core that serves a logical index, where it is not the core of the same number (13 R543). -/
  serves : Tbl Nat
  loft : Loft
  caller : Caller
  atu : Atu
  dealer : Dealer
  streams : Tbl StreamRun
  /-- Beats of the packet that waits at each LPI port for room in the input buffer (07 R279). -/
  offers : Tbl Nat
  safety : Safety
  coffer : Coffer
  boot : Boot
  power : Power
  links : Tbl LinkPort
  partner : Partner
  /-- REG_RSP_RDATA of the last register read that a row of its own makes (16 R608). -/
  rdata : Word
  /-- The vector on IRQ_VECTOR while IRQ_VALID is 1: an offered message is never withdrawn (16 R612, R613). -/
  irqOffer : Option Nat
  outs : List Out
  /-- How many open values have been used (log entry 5). -/
  free : Nat
deriving DecidableEq, Repr

end Sys2Proof.Machine
end

