-- ==== Sys2Proof/Machine/Regs.lean ====
section
/-!
DEFINITION. Reading and changing registers inside the engine (not through the register port), and the cores by
physical index.
-/
namespace Sys2Proof.Machine

open Sys2Proof

/-- The live value of the register at an offset from BB. -/
def Hw.reg (h : Hw) (o : Nat) : Word := Tbl.get regReset h.regs o

/-- Set a live register value. -/
def Hw.setReg (h : Hw) (o : Nat) (v : Word) : Hw := { h with regs := Tbl.put regReset h.regs o v }

/-- Bits [hi:lo] of a live register. -/
def Hw.regFld (h : Hw) (o hi lo : Nat) : Nat := fld (h.reg o) hi lo

/-- Bit `i` of a live register. -/
def Hw.regBit (h : Hw) (o i : Nat) : Bool := bitOf (h.reg o) i

/-- Set bits [hi:lo] of a live register. -/
def Hw.setRegFld (h : Hw) (o hi lo v : Nat) : Hw := h.setReg o (setFld (h.reg o) hi lo v)

/-- Set bit `i` of a live register. -/
def Hw.setRegBit (h : Hw) (o i : Nat) (b : Bool) : Hw := h.setReg o (setBit (h.reg o) i b)

/-- The 64-bit value of a pair (R19). -/
def Hw.reg64 (h : Hw) (o : Nat) : Nat := (h.reg o).toNat + 2 ^ 32 * (h.reg (o + 4)).toNat

/-- Set a pair. -/
def Hw.setReg64 (h : Hw) (o v : Nat) : Hw :=
  (h.setReg o (BitVec.ofNat 32 v)).setReg (o + 4) (BitVec.ofNat 32 (v / 2 ^ 32))

/-- Add to a pair modulo 2^64. -/
def Hw.addReg64 (h : Hw) (o n : Nat) : Hw := h.setReg64 o (h.reg64 o + n)

/-- Add to bits [hi:lo] of a register, saturating at their largest value. -/
def Hw.satRegFld (h : Hw) (o hi lo n : Nat) : Hw :=
  h.setRegFld o hi lo (min (2 ^ (hi - lo + 1) - 1) (h.regFld o hi lo + n))

/-- Count a saturating 32-bit register up by one. -/
def Hw.satReg (h : Hw) (o : Nat) : Hw := h.satRegFld o 31 0 1

/-- The shadow value of an RWS register (R23). -/
def Hw.shadowReg (h : Hw) (o : Nat) : Word := Tbl.get regReset h.shadow o

/-- Set a shadow value. -/
def Hw.setShadow (h : Hw) (o : Nat) (v : Word) : Hw := { h with shadow := Tbl.put regReset h.shadow o v }

/-- The RWS bits of the register at an offset (R23). -/
def rwsMask (o : Nat) : Nat := (regRow o).elim 0 fun r => r.bits.rws

/-- A value whose bits under a mask come from `new`, the others from `old`. -/
def mixMask (m : Nat) (old new : Word) : Word := (old &&& ~~~(BitVec.ofNat 32 m)) ||| (new &&& BitVec.ofNat 32 m)

/-- Bits [hi:lo] of an RWS register change outside a COMMIT: committed and shadow values together, and the captured value
of a COMMIT that is pending (15 R599). -/
def Hw.forceFld (h : Hw) (o hi lo v : Nat) : Hw :=
  let h := (h.setRegFld o hi lo v).setShadow o (setFld (h.shadowReg o) hi lo v)
  { h with captured := h.captured.map fun c =>
      { c with regs := Tbl.upd regReset c.regs o fun w => setFld w hi lo v } }

/-- Physical core `p`. -/
def Hw.core (h : Hw) (p : Nat) : Core := Tbl.get (fun _ => Core.reset) h.cores p

/-- Replace physical core `p`. -/
def Hw.setCore (h : Hw) (p : Nat) (c : Core) : Hw :=
  { h with cores := Tbl.put (fun _ => Core.reset) h.cores p c }

/-- What physical core `p` holds. -/
def Hw.body (h : Hw) (p : Nat) : CoreBody := (h.core p).whole

/-- Change what a core holds by an event outside the bundle at issue: the change stands whether or not that bundle
issues. -/
def Core.event (c : Core) (f : CoreBody → CoreBody) : Core :=
  { body := f c.body, bundle := c.bundle.map fun d => { d with before := f d.before } }

/-- Change what physical core `p` holds by such an event. -/
def Hw.updBody (h : Hw) (p : Nat) (f : CoreBody → CoreBody) : Hw := h.setCore p ((h.core p).event f)

/-- Change what physical core `p` holds, dropping the bundle at issue. -/
def Hw.stopBody (h : Hw) (p : Nat) (f : CoreBody → CoreBody) : Hw :=
  h.setCore p { body := f (h.body p), bundle := none }

/-- No bundle of physical core `p` is between its syllables. -/
def Hw.between (h : Hw) (p : Nat) : Bool := (h.core p).bundle.isNone

end Sys2Proof.Machine
end

