-- ==== Sys2Proof/Machine/Effect.lean ====
section
/-!
DEFINITION. An effect on the hardware and the on-chip memory, and what every unit shares: time, interrupts, messages
out, free values, the error log, service causes and class A (10 R402, 12 R484 to R485, 13 R539, R547).
-/
namespace Sys2Proof.Machine

open Sys2Proof

/-- The effect of a command so far: the hardware, the memory as it now reads, and the writes made to it in order. -/
structure Eff where
  hw : Hw
  mem : Memory
  wr : List MemWrite

/-- No effect yet. -/
def Eff.start (h : Hw) (m : Memory) : Eff := ⟨h, m, []⟩

/-- Change the hardware. -/
def Eff.up (e : Eff) (f : Hw → Hw) : Eff := { e with hw := f e.hw }

/-- Make one write to the memory. -/
def Eff.write (e : Eff) (w : MemWrite) : Eff := { e with mem := e.mem.apply w, wr := e.wr ++ [w] }

/-- Do `f` when a condition holds. -/
def Eff.when (e : Eff) (c : Bool) (f : Eff → Eff) : Eff := if c then f e else e

/-- Do `f` for each element of a list, in order. -/
def Eff.each {α : Type} (e : Eff) (xs : List α) (f : Eff → α → Eff) : Eff := xs.foldl f e

/-! ### Units of the hardware -/

def Hw.updCaller (h : Hw) (f : Caller → Caller) : Hw := { h with caller := f h.caller }
def Hw.updLoft (h : Hw) (f : Loft → Loft) : Hw := { h with loft := f h.loft }
def Hw.updAtu (h : Hw) (f : Atu → Atu) : Hw := { h with atu := f h.atu }
def Hw.updSafety (h : Hw) (f : Safety → Safety) : Hw := { h with safety := f h.safety }
def Hw.updDealer (h : Hw) (f : Dealer → Dealer) : Hw := { h with dealer := f h.dealer }
def Hw.updBoot (h : Hw) (f : Boot → Boot) : Hw := { h with boot := f h.boot }
def Hw.updCoffer (h : Hw) (f : Coffer → Coffer) : Hw := { h with coffer := f h.coffer }
def Hw.updPower (h : Hw) (f : Power → Power) : Hw := { h with power := f h.power }
def Hw.updPartner (h : Hw) (f : Partner → Partner) : Hw := { h with partner := f h.partner }

/-- A switched domain other than a core's is on: bit 0 to 15 Loft slices, 16 to 21 ingress ports, 22 and 23 link ports,
24 to 27 Gather Units (14 R561). -/
def Hw.unitUp (h : Hw) (bit : Nat) : Bool := h.regBit Reg.pwrUnitUp bit

/-- A Loft slice is off, in transition, or out of service (14 R561, 13 R537). -/
def Hw.sliceOff (h : Hw) (slice : Nat) : Bool := !h.unitUp slice || h.loft.slicesOff.contains slice

/-- A Gather Unit that is off, in transition, or about to power down accepts no job (14 R561). -/
def Hw.gatherOff (h : Hw) (n : Nat) : Bool := !h.unitUp (24 + n) || h.power.falling.contains (124 + n)

/-- Link port n (11 R433). -/
def Hw.link (h : Hw) (n : Nat) : LinkPort := Tbl.get (fun _ => LinkPort.start) h.links n
def Hw.setLink (h : Hw) (n : Nat) (l : LinkPort) : Hw := { h with links := Tbl.put (fun _ => LinkPort.start) h.links n l }
def Hw.updLink (h : Hw) (n : Nat) (f : LinkPort → LinkPort) : Hw := h.setLink n (f (h.link n))

/-- Beats that the input buffer of a port holds: of the positions that have been accepted and await their final status, and
of the packet that waits for room (07 R279, log entry 103). -/
def Hw.lpiHeld (h : Hw) (port : Nat) : Nat :=
  ((List.range 16).map fun k =>
    ((Tbl.get (fun _ => StreamRun.start) h.streams (16 * port + k)).pend.map LineMeta.beats).sum).sum
def Hw.offer (h : Hw) (port : Nat) : Nat := Tbl.get (fun _ => 0) h.offers port
def Hw.setOffer (h : Hw) (port n : Nat) : Hw := { h with offers := Tbl.put (fun _ => 0) h.offers port n }

def Hw.stream (h : Hw) (s : Nat) : StreamRun := Tbl.get (fun _ => StreamRun.start) h.streams s
def Hw.setStream (h : Hw) (s : Nat) (x : StreamRun) : Hw :=
  { h with streams := Tbl.put (fun _ => StreamRun.start) h.streams s x }

/-- Epoch Generator g (10 R413). -/
def Dealer.gen (d : Dealer) (g : Nat) : EpochGen := Tbl.get (fun _ => EpochGen.off) d.gens g
def Dealer.setGen (d : Dealer) (g : Nat) (x : EpochGen) : Dealer :=
  { d with gens := Tbl.put (fun _ => EpochGen.off) d.gens g x }

/-- Port n of the memory interface. -/
def Hw.port (h : Hw) (n : Nat) : Port := Tbl.get (fun _ => Port.idle) h.atu.ports n
def Hw.setPort (h : Hw) (n : Nat) (p : Port) : Hw :=
  h.updAtu fun a => { a with ports := Tbl.put (fun _ => Port.idle) a.ports n p }

/-- Loft Hatch n (06 R260). -/
def Hw.loftHatch (h : Hw) (n : Nat) : LoftHatch := Tbl.get (fun _ => LoftHatch.closed) h.loft.hatches n
def Hw.setLoftHatch (h : Hw) (n : Nat) (x : LoftHatch) : Hw :=
  h.updLoft fun l => { l with hatches := Tbl.put (fun _ => LoftHatch.closed) l.hatches n x }

/-- The job queue of Gather Unit n. -/
def Hw.gatherQ (h : Hw) (n : Nat) : List GatherJob := Tbl.get (fun _ => []) h.loft.gather n
def Hw.setGatherQ (h : Hw) (n : Nat) (q : List GatherJob) : Hw :=
  h.updLoft fun l => { l with gather := Tbl.put (fun _ => []) l.gather n q }

/-- The scrubber k: physical cores 0 to 67, Loft slices from 100. -/
def Hw.scrub (h : Hw) (k : Nat) : Scrub := Tbl.get (fun _ => Scrub.start) h.loft.scrubs k
def Hw.setScrub (h : Hw) (k : Nat) (x : Scrub) : Hw :=
  h.updLoft fun l => { l with scrubs := Tbl.put (fun _ => Scrub.start) l.scrubs k x }

/-! ### Time (10 R402, R403) -/

/-- The derived Dealer time in ns (R402). -/
def Hw.now (h : Hw) : DWord := BitVec.ofNat 64 (h.dealer.time / 2 ^ 32)

/-- Elapsed time in ns (R403). -/
def Hw.elapsed (h : Hw) : Nat := h.dealer.elapsed / 2 ^ 32

/-- EG_EPOCH0 (R413). -/
def Hw.epoch (h : Hw) : Nat := (h.dealer.gen 0).count.toNat

/-! ### Cores -/

/-- The physical core that serves a logical index (13 R543, R544). -/
def Hw.phys (h : Hw) (l : Nat) : Nat := Tbl.get (fun k => k) h.serves l

/-- CORES_IN_SERVICE of ENG_STATUS0 (01 R5). -/
def Hw.inService (h : Hw) : Nat := h.regFld Reg.engStatus0 7 0

/-- The UP bits of a core's granules (06 R233). -/
def Hw.up (h : Hw) (p : Nat) : Nat := h.regFld (Reg.pantryGranuleState p) 15 0

/-- The Pantry of a core as it reads. -/
def Eff.view (e : Eff) (p : Nat) : Memory × Nat := (e.mem, p)

/-- The set of logical cores of a partition (08 R336), from the committed PART_CORE pair. -/
def Hw.partMask (h : Hw) (p : Nat) : Nat := h.reg64 (Reg.partCore p)

/-- Logical cores of a partition in ascending order: rank r serves the r-th. -/
def Hw.partCores (h : Hw) (p : Nat) : List Nat := (List.range 64).filter fun c => (h.partMask p).testBit c

/-- PART_CTRL fields (08 R352). -/
def Hw.partEn (h : Hw) (p : Nat) : Bool := h.regBit (Reg.partCtrl p) 0
def Hw.partPlan (h : Hw) (p : Nat) : Bool := h.regBit (Reg.partCtrl p) 1
def Hw.partSafety (h : Hw) (p : Nat) : Bool := h.regBit (Reg.partCtrl p) 2

/-- The partition that holds a logical core, among the enabled ones. -/
def Hw.partOf (h : Hw) (l : Nat) : Option Nat :=
  (List.range 16).find? fun p => h.partEn p && (h.partMask p).testBit l

/-- A class A reaction holds the cores and the Caller (12 R485). -/
def Hw.classAHeld (h : Hw) : Bool := h.regBit Reg.smStatus 31

/-- The Joker of a logical core, and whether a segment runs on a physical core (12 R488). -/
def Hw.joker (h : Hw) (l : Nat) : JokerRun := Tbl.get (fun _ => JokerRun.start) h.safety.joker l
def Hw.setJoker (h : Hw) (l : Nat) (j : JokerRun) : Hw :=
  { h with safety := { h.safety with joker := Tbl.put (fun _ => JokerRun.start) h.safety.joker l j } }
def Hw.inJoker (h : Hw) (p : Nat) : Bool := h.safety.joker.any fun x => (x.2.running.map Prod.snd) == some p

/-- Physical core `p` is in hold cycles: a Joker segment or a class A reaction (12 R485, R488). -/
def Hw.held (h : Hw) (p : Nat) : Bool := h.classAHeld || h.inJoker p

/-! ### Messages out -/

def Hw.out (h : Hw) (o : Out) : Hw := { h with outs := o :: h.outs }

/-- The lowest-numbered vector of a set of pending ones (16 R612). -/
def lowestVector (pend : Nat) : Option Nat := (List.range 64).find? fun v => pend.testBit v

/-- A source sends a vector: its IRQ_PEND bit is set, and a vector that is pending already merges; a message is offered
where none is (16 R612). -/
def Hw.irq (h : Hw) (v : Nat) : Hw :=
  let pend := h.reg64 Reg.irqPend ||| 2 ^ (v % 64)
  { h.setReg64 Reg.irqPend pend with irqOffer := h.irqOffer <|> lowestVector pend }

/-- IRQ_MESSAGE: the vector on offer is transferred, the lowest-numbered pending one when it was offered; its bit clears,
IRQ_SENT counts it, and the next is offered (16 R612, R613). -/
def Hw.irqMessage (h : Hw) : Hw :=
  let pend := h.reg64 Reg.irqPend
  match h.irqOffer <|> lowestVector pend with
  | some v => if h.boot.good then
      let left := if pend.testBit v then pend - 2 ^ v else pend
      { ((h.setReg64 Reg.irqPend left).setReg Reg.irqSent (h.reg Reg.irqSent + 1)).out (.irq v) with irqOffer := lowestVector left }
    else h
  | none => h

/-- The vector of a register that holds an enable at bit `en` and a vector at [lo+5:lo]. -/
def Hw.irqOf (h : Hw) (o en lo : Nat) : Hw :=
  if h.regBit o en then h.irq (h.regFld o (lo + 5) lo) else h

/-- The next free value, and the state after its use (log entry 5). -/
def Hw.fresh (h : Hw) : DWord × Hw := (Config.freeValue h.free, { h with free := h.free + 1 })

/-! ### The lane interface (11 R434) -/

/-- The lanes that a mode uses, by LNK_CTRL.RATE (Table "Lane use"). -/
def lanesUsed (rate : Nat) : Nat := [1, 2, 4, 4].getD rate 0

/-- Words for the lanes from `k` on of the four: the coding of the mode on a lane in use, which the spec leaves to IEEE 802.3
(free values, log entry 105), and zero on a lane that the mode does not use. -/
def Hw.laneWords (h : Hw) (used : Nat) : Nat → Nat → List Word × Hw
  | 0, _ => ([], h)
  | n + 1, k =>
    if k < used then
      let (v, h) := h.fresh
      let (ws, h) := h.laneWords used n (k + 1)
      (v.setWidth 32 :: ws, h)
    else
      let (ws, h) := h.laneWords used n (k + 1)
      (0 :: ws, h)

/-- The transmit lanes of a port carry new words; those of a disabled port hold their reset value (16 R607). -/
def Hw.driveLanes (h : Hw) (n : Nat) : Hw :=
  let used := if h.unitUp (22 + n) && h.regBit (Reg.lnkCtrl n) 3 then lanesUsed (h.regFld (Reg.lnkCtrl n) 1 0) else 0
  let (ws, h) := h.laneWords used 4 0
  h.updLink n fun l => { l with lanes := ws }

/-! ### The error log (13 R539) -/

/-! The kinds of Table "Error log kinds". -/
namespace LogKind
def contextReset : Nat := 1
def hangKernel : Nat := 2
def hangQueue : Nat := 3
def partitionRetired : Nat := 4
def outOfService : Nat := 5
def engineReset : Nat := 6
def coreRetired : Nat := 7
def kitty : Nat := 8
def donor : Nat := 9
def classA : Nat := 10
def classB : Nat := 11
def scrub : Nat := 12
def corrLimit : Nat := 13
def service : Nat := 14
def tally : Nat := 15
end LogKind

/-- What an entry says besides its number and time. -/
structure LogEntry where
  kind : Nat
  cls : Nat := 4
  status : Nat := 0
  ctx : Nat := 0
  gen : Nat := 0
  part : Option Nat := none
  phys : Option Nat := none
  detail : Nat := 0
  resetSeq : Nat := 0

/-- The 32 bytes of an entry (Table "Error log entry"). -/
def LogEntry.bytes (l : LogEntry) (seq : Nat) (time : DWord) : List Byte :=
  let body := leBytes 4 seq ++ leBytes 1 l.kind ++ leBytes 1 l.cls ++ leBytes 2 l.status ++ leBytes 8 time.toNat ++
    leBytes 2 (l.ctx % 4096 + 4096 * (l.gen % 16)) ++
    leBytes 1 (match l.part with | some p => p % 16 | none => 128) ++
    leBytes 1 (match l.phys with | some p => p % 128 | none => 0x7F) ++ leBytes 4 l.detail ++ leBytes 4 l.resetSeq
  body ++ leBytes 4 (crc32 body).toNat

/-- Append to the live log of 512 entries, newest first; ELOG_NEWEST and ELOG_OLDEST follow. -/
def Hw.log (h : Hw) (l : LogEntry) : Hw :=
  let seq := h.caller.elogSeq
  let elog := (l.bytes seq.toNat h.now :: h.caller.elog).take 512
  let h := h.updCaller fun c => { c with elog := elog, elogSeq := seq + 1 }
  (h.setReg Reg.elogNewest seq).setReg Reg.elogOldest (seq - BitVec.ofNat 32 (elog.length - 1))

/-! ### Service causes and class A -/

/-- Set a bit of SERVICE_CAUSE; a newly set bit is logged (13 R547). -/
def Hw.service (h : Hw) (bit : Nat) : Hw :=
  if h.regBit Reg.serviceCause bit then h
  else ((h.setRegBit Reg.serviceCause bit true).setRegBit Reg.engStatus0 12 true).log
    { kind := LogKind.service, detail := 2 ^ bit }

/-- The erase count of a Coffer sector (15 R577). -/
def Coffer.wearOf (c : Coffer) (sector : Nat) : Nat := Tbl.get (fun _ => 0) c.wear sector

/-- One STORE cycle of a sector: its count rises before the erase begins, and a count of 90,000 sets COFFER_WEAR (15
R577). -/
def Hw.wear (h : Hw) (sector : Nat) : Hw :=
  let h := h.updCoffer fun c => { c with wear := Tbl.put (fun _ => 0) c.wear sector (c.wearOf sector + 1) }
  if 90000 ≤ h.coffer.wearOf sector then h.service 3 else h

/-- Whether SERVICE_REQ is asserted (13 R547). -/
def Hw.serviceReq (h : Hw) : Bool := h.regFld Reg.serviceCause 6 0 != 0

/-! ### What the register port serves (16 R610) -/

/-- An offset of the Dealer's region. -/
def dealerOffset (o : Nat) : Bool := o / 0x10000 == 5

/-- An offset of the fabric domain or of the mirrors of R611. -/
def fabricOffset (o : Nat) : Bool :=
  (decide (0x8000 ≤ o) && decide (o < 0x10000)) || o / 0x10000 == 3 || o / 0x10000 == 4 ||
    (decide (0x60000 ≤ o) && decide (o < 0x200000))

/-- The register port serves an offset now. -/
def Hw.served (h : Hw) (o : Nat) : Bool :=
  h.boot.aon && (dealerOffset o || (h.boot.good && !(fabricOffset o && h.boot.rstPhase == some 3)))

/-- The register port answers a read with a register's value. -/
def Hw.answer (h : Hw) (o : Nat) : Hw := { h with rdata := h.reg o }

/-- An access at an offset, where it is served. -/
def Eff.atPort (e : Eff) (o : Nat) (f : Eff → Eff) : Eff := if e.hw.served o then f e else e

/-! ### Directory keys (06 R252, R253) -/

/-- The key of Hatch `k` of a logical core, and of a Loft Hatch. -/
def hatchKey (logical k : Nat) : Nat := 16 * logical + k
def partnerKey (logical k : Nat) : Nat := 1024 + 16 * logical + k
def loftKey (k : Nat) : Nat := 2048 + k

/-- The logical index that a physical core serves (13 R543). -/
def Hw.logicalOf (h : Hw) (p : Nat) : Option Nat := (List.range 64).find? fun l => h.phys l == p

/-- An HTP session is up (11 R456). -/
def Hw.session (h : Hw) : Bool := h.regFld Reg.ptnStatus 5 4 == 2

/-- Put a message on the mesh behind what the same stop sent before. -/
def Hw.send (h : Hw) (src dst : Nat) (body : MsgBody) : Hw :=
  h.updLoft fun l => { l with mesh := l.mesh ++ [⟨src, dst, body⟩] }

/-- Send a notice to every logical core in service, and to the Partner when the Hatch admits it (R252). -/
def Hw.notify (h : Hw) (src : Nat) (partner : Bool) (key : Nat) (gen : BitVec 8) (open_ : Bool) : Hw :=
  let h := (List.range h.inService).foldl (fun h l => h.send src (h.phys l) (.notice key gen open_)) h
  if partner then h.send src stopPartner (.notice key gen open_) else h

end Sys2Proof.Machine
end

