-- ==== Sys2Proof/Machine/CallerOps.lean ====
section
/-!
DEFINITION. Contexts, queues, items and their completion (08_caller_and_queues.md R308 to R345).
-/
namespace Sys2Proof.Machine

open Sys2Proof

/-! ### Contexts and queues -/

def Hw.ctx? (h : Hw) (c : Nat) : Option Ctx := Tbl.get (fun _ => none) h.caller.ctxs c
def Hw.setCtx (h : Hw) (c : Nat) (x : Option Ctx) : Hw :=
  h.updCaller fun k => { k with ctxs := Tbl.put (fun _ => none) k.ctxs c x }
def Hw.updCtx (h : Hw) (c : Nat) (f : Ctx → Ctx) : Hw := h.setCtx c ((h.ctx? c).map f)

def Hw.queue? (h : Hw) (q : Nat) : Option Queue := Tbl.get (fun _ => none) h.caller.queues q
def Hw.setQueue (h : Hw) (q : Nat) (x : Option Queue) : Hw :=
  h.updCaller fun k => { k with queues := Tbl.put (fun _ => none) k.queues q x }
def Hw.updQueue (h : Hw) (q : Nat) (f : Queue → Queue) : Hw := h.setQueue q ((h.queue? q).map f)

/-- Queues of a context, by identifier. -/
def Hw.queuesOf (h : Hw) (c : Nat) : List Nat :=
  (h.caller.queues.filter fun x => (x.2.map fun q => q.ctx == c).getD false).map Prod.fst

/-- Current generation of a context. -/
def Hw.genOf (h : Hw) (c : Nat) : Nat := ((h.ctx? c).map Ctx.gen).getD 0

/-- The Instruction Store of a core holds the code of a job (R321). -/
def Hw.codeHeld (h : Hw) (p : Nat) (j : LaunchJob) : Bool :=
  Tbl.get (fun _ => none) h.caller.codes p == some { va := j.codeVa, bundles := j.bundles, ctx := j.ctx, gen := h.genOf j.ctx }

/-- Packets that the innermost frame of a front end still has. -/
def Queue.avail (x : Queue) : Nat :=
  match x.frames with
  | [] => 0
  | f :: _ =>
    match f.buf with
    | none => (x.tail - BitVec.ofNat 32 f.pos).toNat
    | some (_, n) => n - f.pos

/-- Address of packet `n` of those that the front end takes next: packet index i of the ring lies at
RING_VA + 64 * (i mod 2^RING_LOG2) (R312). -/
def Queue.packetVa (x : Queue) (n : Nat) : Nat :=
  match x.frames with
  | [] => 0
  | f :: _ =>
    match f.buf with
    | none => x.ringVa + 64 * ((f.pos + n) % 2 ^ 32 % 2 ^ x.ringLog)
    | some (va, _) => va + 64 * (f.pos + n)

/-- A context is paused on a translation fault (09 R368). -/
def Hw.paused (h : Hw) (c : Nat) : Bool := ((h.ctx? c).map fun x => !x.pause.isEmpty).getD false

/-- A context is resident (R341). -/
def Hw.resident (h : Hw) (c : Nat) : Bool := ((h.ctx? c).map fun x => x.slot.isSome).getD false

/-- A reset of the context is in progress (13 R527). -/
def Hw.resetting (h : Hw) (c : Nat) : Bool := h.caller.resets.any fun r => r.ctx == c

/-- No unit starts new work of a context (09 R370, 12 R485). -/
def Hw.noStart (h : Hw) (ctx : Nat) : Bool := h.paused ctx || h.resetting ctx || h.classAHeld

/-- Resident slots in use, and the lowest free one (R341). -/
def Hw.slotsUsed (h : Hw) : List Nat := h.caller.ctxs.filterMap fun x => x.2.bind Ctx.slot
def Hw.freeSlot (h : Hw) : Option Nat := (List.range 64).find? fun s => !h.slotsUsed.contains s

/-- CALLER_STATUS.RESIDENT follows the slots. -/
def Hw.residentCount (h : Hw) : Hw := h.setRegFld Reg.callerStatus 6 0 h.slotsUsed.length

/-! ### Items (R333 to R335) -/

def Hw.item? (h : Hw) (i : Nat) : Option Item := h.caller.items.find? fun x => x.id == i

def Hw.updItem (h : Hw) (i : Nat) (f : Item → Item) : Hw :=
  h.updCaller fun c => { c with items := c.items.map fun x => if x.id = i then f x else x }

def Hw.dropItem (h : Hw) (i : Nat) : Hw :=
  h.updCaller fun c => { c with items := c.items.filter fun x => x.id != i }

/-- Outstanding items of a queue, and of a context. -/
def Hw.itemsOf (h : Hw) (q : Nat) : List Item := h.caller.items.filter fun x => x.queue == q
def Hw.ctxItems (h : Hw) (c : Nat) : List Item :=
  h.caller.items.filter fun x => ((h.queue? x.queue).map fun q => q.ctx == c).getD false

/-- Records of a queue in the Record Holdback (R345). -/
def Hw.heldOf (h : Hw) (q : Nat) : Nat := ((h.itemsOf q).filter Item.deferred).length

/-- What a completed item's record says besides its tag and time. -/
structure Done where
  status : Status
  detail : Word := 0
  tricks : Word := 0
  summary : Word := 0

/-- An item completes: its Trick is counted, and its record, which QUIET may suppress, waits to be written (R316, R335,
R344). -/
def Hw.complete (h : Hw) (i : Nat) (d : Done) : Hw :=
  match h.item? i with
  | none => h
  | some x =>
    if x.state = .done then h
    else
      let h := h.addReg64 Reg.callerTricks 1
      let h := match h.queue? x.queue with
        | some q => (h.updCtx q.ctx fun c => { c with completed := true }).updQueue x.queue fun q =>
            { q with
              destroying := q.destroying.map fun (t : DWord × Nat) => (t.1, if d.status = Status.cancelled then t.2 + 1 else t.2)
              batch := q.batch.map fun (b : Batch) =>
                if b.bad.isNone && x.enclosing.contains b.item && d.status != Status.ok && d.status != Status.skipped &&
                   d.status != Status.cancelled then { b with bad := some d.status } else b }
        | none => h
      if x.quiet && decide (d.status = Status.ok ∨ d.status = Status.skipped) then h.dropItem i
      else (h.updItem i fun x =>
        { x with state := .done, status := d.status, detail := d.detail, tricks := d.tricks, summary := d.summary,
                 time := h.now, deferred := 0 < h.heldOf x.queue, doneSeq := h.caller.nextDone }).updCaller fun c => { c with nextDone := c.nextDone + 1 }

/-- Complete several items in one way. -/
def Hw.completeAll (h : Hw) (is : List Nat) (d : Done) : Hw := is.foldl (fun h i => h.complete i d) h

/-- The 32 bytes of a record (Table "Completion record"). -/
def Item.record (x : Item) : List Byte :=
  leBytes 8 x.tag.toNat ++ leBytes 2 x.status ++
    leBytes 2 (x.deferred.toNat + 2 * x.final.toNat + 4 * x.nested.toNat + 8 * x.plan.toNat) ++
    leBytes 4 x.detail.toNat ++ leBytes 8 x.time.toNat ++ leBytes 4 x.tricks.toNat ++ leBytes 4 x.summary.toNat

/-- Every record of a queue that waits is held back (R345). -/
def Hw.holdRecords (h : Hw) (q : Nat) : Hw :=
  h.updCaller fun c =>
    { c with items := c.items.map fun x => if x.queue = q ∧ x.state = .done then { x with deferred := true, held := true } else x }

/-- Held records of a queue are tried again (R345). -/
def Hw.retryRecords (h : Hw) (q : Nat) : Hw :=
  h.updCaller fun c => { c with items := c.items.map fun x => if x.queue = q then { x with held := false } else x }

/-- The oldest record of a queue that waits. -/
def Hw.oldestDone (h : Hw) (q : Nat) : Option Item :=
  ((h.itemsOf q).filter fun i => i.state == .done).foldl (fun (m : Option Item) i =>
    match m with
    | none => some i
    | some j => if i.doneSeq < j.doneSeq then some i else some j) none

/-- A new item of a queue; QUIET exists under ABI major 3 (R316). -/
def Hw.newItem (h : Hw) (q : Nat) (tag : DWord) (op flags : Nat) (nested plan : Bool) (enclosing : List Nat) :
    Nat × Hw :=
  let i := h.caller.nextItem
  (i, h.updCaller fun c =>
    { c with
      nextItem := i + 1
      items := c.items ++ [{ id := i, queue := q, tag, op, irq := flags.testBit 4, quiet := flags.testBit 6 && ((h.queue? q).map Queue.major) == some 3, nested,
                             plan, enclosing, state := .waiting, status := 0, detail := 0, tricks := 0, summary := 0,
                             time := 0, deferred := false, held := false, final := false,
                             doneSeq := 0 }] })

/-- A command that ORDERED holds has no item before it starts; when it ends unstarted it gets one, for its record (13
R528, R346). -/
def Hw.heldItem (h : Hw) (q : Nat) : Hw :=
  match h.queue? q with
  | none => h
  | some x =>
    match x.hold, x.holdItem with
    | some (.ordered p _), none =>
      let (i, h) := h.newItem q (BitVec.ofNat 64 (leField p 8 8)) (leField p 0 1) (leField p 1 1) (1 < x.frames.length)
        x.plan.isSome (x.frames.filterMap Frame.item)
      h.updQueue q fun x => { x with holdItem := some i }
    | _, _ => h

/-! ### Transfers of the engine's own (09 R353, R354, R369) -/

/-- BYTES_DONE of byte runs that have completed (09 R369): the largest prefix without a gap. -/
def bytesDone : Nat → List (Nat × Nat) → Nat
  | 0, _ => 0
  | fuel + 1, runs =>
    let rec_ := fun d => (runs.find? fun r => decide (r.1 ≤ d) && decide (d < r.1 + r.2)).map fun r => r.1 + r.2
    let step := fun (d : Nat) (_ : Nat) => (rec_ d).getD d
    (List.range (fuel + 1)).foldl step 0

def OwnJob.total (j : OwnJob) : Nat := (j.parts.map OwnPart.len).sum
def OwnJob.done (j : OwnJob) : Nat := bytesDone j.acked.length j.acked

/-- The stretch that holds byte `o` of a transfer, and the offset within it. -/
def partAt : List OwnPart → Nat → Option (OwnPart × Nat)
  | [], _ => none
  | p :: ps, o => if o < p.len then some (p, o) else partAt ps (o - p.len)

def Hw.own? (h : Hw) (id : Nat) : Option OwnJob := h.atu.own.find? fun j => j.id == id
def Hw.updOwn (h : Hw) (id : Nat) (f : OwnJob → OwnJob) : Hw :=
  h.updAtu fun a => { a with own := a.own.map fun j => if j.id = id then f j else j }
def Hw.dropOwn (h : Hw) (id : Nat) : Hw := h.updAtu fun a => { a with own := a.own.filter fun j => j.id != id }

/-- A transfer of the engine's own begins. -/
def Hw.addOwn (h : Hw) (j : OwnJob) : Hw :=
  h.updAtu fun a => { a with own := a.own ++ [{ j with id := a.nextOwn }], nextOwn := a.nextOwn + 1 }

/-- A write of bytes by virtual address of a context. -/
def ownWrite (unit_ index ctx part va : Nat) (bs : List Byte) (tag : DWord) (goal : OwnGoal) : OwnJob :=
  { id := 0, unit_, index, ctx, part, sys := false, write := true, nopause := false, tag, parts := [⟨va, bs.length, bs, []⟩],
    before := 0, issued := 0, acked := [], dataErr := false, paused := false, goal }

/-- A system write of bytes at a physical address. -/
def ownSys (pa : Nat) (bs : List Byte) (goal : OwnGoal) : OwnJob :=
  { ownWrite 3 0 0 0 pa bs 0 goal with sys := true }

/-- A read of stretches of a context. -/
def ownRead (unit_ index ctx part : Nat) (parts : List OwnPart) : OwnJob :=
  { ownWrite unit_ index ctx part 0 [] 0 .nothing with write := false, parts }

/-- A transfer with a goal of a kind is under way. -/
def Hw.underWay (h : Hw) (f : OwnGoal → Bool) : Bool := h.atu.own.any fun j => f j.goal

/-- The record of a queue is on its way to memory. -/
def Hw.recordFlies (h : Hw) (q : Nat) : Bool :=
  h.underWay fun g => match g with
    | .record r => r == q
    | _ => false

/-- A fault record is on its way to memory (09 R373). -/
def Hw.faultRecFlies (h : Hw) : Bool :=
  h.underWay fun g => match g with
    | .faultRing _ => true
    | _ => false

/-- A spill of a context from a partition is under way. -/
def OwnGoal.spills (part : Option Nat) (ctx : Option Nat) : OwnGoal → Bool
  | .payload i => part.all (· == i.part) && ctx.all (· == i.ctx)
  | .image i => part.all (· == i.part) && ctx.all (· == i.ctx)
  | _ => false

/-- `n` words of 8 bytes that the spec leaves open. -/
def Hw.freshBytes (h : Hw) : Nat → List Byte × Hw
  | 0 => ([], h)
  | n + 1 =>
    let (v, h) := h.fresh
    let (bs, h) := Hw.freshBytes h n
    (leBytes 8 v.toNat ++ bs, h)

/-! ### Line Gates (07 R294, R296) -/

/-- SC_GATE of a stream and parity. -/
def gateReg (s par : Nat) : Nat := if par % 2 = 0 then Reg.scGate0 s else Reg.scGate1 s

/-- A Line Gate is satisfied: the counter is CLOSED, or its POS is at least the threshold (07 R294). -/
def Hw.gateOpen (h : Hw) (s par : Nat) (t : Word) : Bool :=
  h.regFld (gateReg s par) 17 16 == 2 || decide (t.toNat ≤ h.regFld (gateReg s par) 15 0)

/-- A stream is assigned to a context that runs on a partition (07 R296). -/
def Hw.assigned (h : Hw) (s ctx part : Nat) : Bool :=
  let o := Reg.scOwner s
  (h.regFld o 11 0 == ctx) || (h.regBit o 15 && h.regFld o 19 16 == part)

/-- SC_OPEN_TIME of the frame whose counter satisfied a gate, if one did (12 R506). -/
def Hw.gateAge (h : Hw) (s par : Nat) : Option DWord :=
  if h.regFld (gateReg s par) 17 16 = 0 then none
  else some (Tbl.get (fun _ => 0) (h.stream s).opened (par % 2))

/-! ### Kernels -/

def Hw.kernel? (h : Hw) (p : Nat) : Option Kernel := Tbl.get (fun _ => none) h.caller.kernels p
def Hw.setKernel (h : Hw) (p : Nat) (k : Option Kernel) : Hw :=
  h.updCaller fun c => { c with kernels := Tbl.put (fun _ => none) c.kernels p k }
def Hw.updKernel (h : Hw) (p : Nat) (f : Kernel → Kernel) : Hw := h.setKernel p ((h.kernel? p).map f)

def Hw.keep (h : Hw) (p : Nat) : PartKeep := Tbl.get (fun _ => PartKeep.none) h.caller.keep p
def Hw.updKeep (h : Hw) (p : Nat) (f : PartKeep → PartKeep) : Hw :=
  h.updCaller fun c => { c with keep := Tbl.upd (fun _ => PartKeep.none) c.keep p f }

/-- PART_RUN follows the kernels (R337, R352). -/
def Hw.partState (h : Hw) (p : Nat) : Hw :=
  match h.kernel? p with
  | none => (h.setRegBit (Reg.partRun p) 30 true).setRegBit (Reg.partRun p) 29 false
  | some k =>
    ((h.setRegBit (Reg.partRun p) 30 false).setRegBit (Reg.partRun p) 29 (k.phase == 2)).setRegFld (Reg.partRun p) 11 0
      k.job.ctx

/-- Physical cores of a partition, by rank. -/
def Hw.partPhys (h : Hw) (p : Nat) : List Nat := (h.partCores p).map h.phys

/-- A kernel of a partition ends: its learned power takes the mean of the partition's estimates over the kernel's
intervals, when it had one; a full table drops the entry least recently updated (14 R564). -/
def Hw.learnEnd (h : Hw) (part : Nat) : Hw :=
  let (sum, n) := Tbl.get (fun _ => (0, 0)) h.power.sums part
  match h.kernel? part with
  | none => h
  | some k =>
    let cores := (h.partCores part).length
    h.updPower fun w =>
      let mean := sum / n
      let mine (x : Word × Nat × Nat) : Bool := x.1 == k.job.kernelId && x.2.1 == cores
      let new : Nat := match w.learn.find? mine with
        | some x => ((x.2.2 : Int) + ((mean : Int) - x.2.2) / 8).toNat
        | none => mean
      { w with sums := Tbl.put (fun _ => (0, 0)) w.sums part (0, 0)
               learn := if n = 0 then w.learn else ((k.job.kernelId, cores, new) :: w.learn.filter fun x => !mine x).take 512 }

/-- A kernel that ran has ended: carry cycles charged to its context from now on are the next kernel's (R340). -/
def Hw.carryEnd (h : Hw) (part : Nat) : Hw :=
  match h.kernel? part with
  | some k =>
    if k.phase = 2 then h.updCaller fun c => { c with carryCycles := Tbl.put (fun _ => 0) c.carryCycles (part * 4096 + k.job.ctx) 0 }
    else h
  | none => h

/-- The kernel of a partition has ended. -/
def Hw.dropKernel (h : Hw) (part : Nat) : Hw := (((h.learnEnd part).carryEnd part).setKernel part none).partState part

/-- The context of a partition's running kernel is loaded on these physical cores. -/
def Hw.coresOfCtx (h : Hw) (c : Nat) : List Nat :=
  (List.range 68).filter fun p => (h.body p).loaded && (h.body p).ctxId == c

/-! ### Age accumulators (12 R505, R506) -/

def Hw.age (h : Hw) (q : Nat) : DWord := Tbl.get (fun _ => ageNone) h.caller.ages q
def Hw.setAge (h : Hw) (q : Nat) (a : DWord) : Hw :=
  h.updCaller fun c => { c with ages := Tbl.put (fun _ => ageNone) c.ages q a }

/-- The lower of two ages. -/
def ageMin (a b : DWord) : DWord := if a.toNat ≤ b.toNat then a else b

/-- Lower the age of the kernel of a partition (12 R506). -/
def Hw.lowerAge (h : Hw) (part : Nat) (age : DWord) : Hw :=
  h.updKernel part fun k => { k with age := ageMin k.age age }

/-- A queue is watched by an enabled Age slot (12 R505). -/
def Hw.ageSlotOf (h : Hw) (q : Nat) : Option Nat :=
  (List.range 32).find? fun n => h.regBit (Reg.ageSlot n) 31 && h.regFld (Reg.ageSlot n) 9 0 == q

end Sys2Proof.Machine
end

