-- ==== Sys2Proof/Machine/CoreView.lean ====
section
/-!
DEFINITION. How the registers of a per-core window read from what the core holds (05 R219, 02 R99, 03 R135).
-/
namespace Sys2Proof.Machine

open Sys2Proof

/-- CORE_STATE.STATE (R219). -/
def CoreRun.code : CoreRun → Nat
  | .off => 0
  | .idle => 1
  | .issuing => 2
  | .waiting => 3
  | .halting => 4
  | .trapped => 5
  | .retired => 6

/-- The core is stopped at a wait, at HALT or at a full core DMA queue while one of its core DMA items is paused (09
R370): the last two make its bundle wait or stall at a syllable that needs the queue. -/
def CoreBody.stoppedByPause (b : CoreBody) : Bool :=
  (b.run == .waiting || b.run == .halting || b.dmaStop) && b.dmaQ.any DmaEntry.paused

/-- CORE_STATE. -/
def CoreBody.stateWord (b : CoreBody) : Nat :=
  (if b.stoppedByPause then 7 else b.run.code) + 16 * b.detm.toNat + 32 * b.loops.length + 256 * b.rets.length + 2048 * b.dmaQ.length

/-- MATRIX_STATUS (03 R135). -/
def CoreBody.matrixWord (b : CoreBody) : Nat :=
  let m := b.mx
  (!m.flights.isEmpty).toNat + 2 * m.activeD1.toNat + 4 * m.shadowOk.toNat + 8 * m.loadRun.isSome.toNat +
    16 * m.loadPend.isSome.toNat + 32 * m.drainRun.isSome.toNat + 64 * m.drainPend.isSome.toNat +
    128 * (m.ramp.any fun r => r.windowAt.isSome || decide (r.cycle < 8 * b.logical)).toNat + 256 * m.queue.length + 4096 * m.drainQueue.length

/-- One of the seven counters of the matrix unit, in register order (03 R135). -/
def MatrixUnit.counter (m : MatrixUnit) (k : Nat) : DWord :=
  [m.active, m.frzFeed, m.frzDeck, m.frzBank, m.frzDrain, m.frzRamp, m.hold].getD k 0

/-- The word of a 64-bit value at its _LO or _HI offset. -/
def halfOf (v : DWord) (hi : Bool) : Word := if hi then (v >>> 32).truncate 32 else v.truncate 32

/-- The register at an offset of the window, for those that the core holds itself; none for the others. -/
def CoreBody.reg (b : CoreBody) (o : Nat) : Option Word :=
  let n (v : Nat) : Option Word := some (BitVec.ofNat 32 v)
  if o = 0x00 then n b.stateWord
  else if o = 0x04 then n b.pc
  else if o = 0x08 then some b.ctx
  else if o = 0x10 then n b.pbase
  else if o = 0x14 then n b.pbound
  else if o = 0x18 then n b.ibase
  else if o = 0x1C then n b.ibound
  else if o = 0x20 then some b.trapCause
  else if o = 0x24 then some b.trapAddr
  else if o = 0x30 || o = 0x34 then some (halfOf b.retired (o == 0x34))
  else if o = 0x38 || o = 0x3C then some (halfOf b.tricks (o == 0x3C))
  else if o = 0x40 then some b.waitInfo
  else if o = 0x44 then some b.waitThresh
  else if o = 0x48 then some (b.flags.zeroExtend 32)
  else if 0x80 ≤ o && o < 0x100 then some (b.cr ((o - 0x80) / 4))
  else if o = 0x180 then some (b.arith.zeroExtend 32)
  else if o = 0x210 then n b.matrixWord
  else if 0x218 ≤ o && o < 0x250 then some (halfOf (b.mx.counter ((o - 0x218) / 8)) ((o - 0x218) % 8 == 4))
  else none

end Sys2Proof.Machine
end

