-- ==== Sys2Proof/Machine/Generator.lean ====
section
/-!
DEFINITION. The address generator and the Window Register (04_convolution_and_operators.md R136 to R156, R626;
05_core_program.md R191, R192).
-/
namespace Sys2Proof.Machine

open Sys2Proof

/-- Width of a generator field; none where the index is reserved (R191). -/
def fieldWidth (i : Nat) : Option Nat :=
  ([4, 17, 17, 8, 16, 16, 12, 4, 4, 6, 6, 8, 8, 8, 8, 8, 8, 16, 16, 6, 6, 2, 16, 8, 22, 17, 2, 2, 1, 22, 22].map some ++
    [none] ++ [16, 16, 16, 16, 8, 1, 1].map some).getD i none

/-- The parameters of a walk as numbers (R140, R191). -/
structure GenP where
  fmt : Nat
  base : Nat
  pw : Nat
  cb : Nat
  h : Nat
  w : Nat
  ring : Nat
  kh : Nat
  kw : Nat
  sy : Nat
  sx : Nat
  dy : Nat
  dx : Nat
  padT : Nat
  padB : Nat
  padL : Nat
  padR : Nat
  orgY : Int
  orgX : Int
  ty : Nat
  tx : Nat
  padMode : Nat
  padVal : Nat
  padScale : Nat
  sBase : Nat
  ps : Nat
  rgF : Nat
  rgC : Nat
  rgE : Nat
  bBase : Nat
  pb : Nat
  yFirst : Nat
  yLast : Nat
  xFirst : Nat
  xTiles : Nat
  nRep : Nat
  vector : Bool
  avg : Bool
deriving DecidableEq, Repr

/-- The parameters that the generator fields hold. -/
def CoreBody.genP (b : CoreBody) : GenP :=
  { fmt := b.field 0, base := b.field 1, pw := b.field 2, cb := b.field 3, h := b.field 4, w := b.field 5,
    ring := b.field 6, kh := b.field 7, kw := b.field 8, sy := b.field 9, sx := b.field 10, dy := b.field 11,
    dx := b.field 12, padT := b.field 13, padB := b.field 14, padL := b.field 15, padR := b.field 16,
    orgY := signed 16 (b.field 17), orgX := signed 16 (b.field 18), ty := b.field 19, tx := b.field 20,
    padMode := b.field 21, padVal := b.field 22, padScale := b.field 23, sBase := b.field 24, ps := b.field 25,
    rgF := b.field 26, rgC := b.field 27 + 1, rgE := b.field 28 + 1, bBase := b.field 29, pb := b.field 30,
    yFirst := b.field 32, yLast := b.field 33, xFirst := b.field 34, xTiles := b.field 35, nRep := b.field 36,
    vector := b.field 37 == 1, avg := b.field 38 == 1 }

/-- The Regroup factor: 1 when off (R154). -/
def GenP.f (g : GenP) : Nat := 2 ^ g.rgF

/-- Channels per block (R136, R154). -/
def GenP.lanes (g : GenP) : Nat :=
  if g.rgF ≠ 0 then (if g.rgE = 1 then 32 else 16)
  else match fmtBits g.fmt with
    | 16 => 16
    | 32 => 8
    | _ => 32

/-- Positions per word (R136). -/
def GenP.perWord (g : GenP) : Nat := if fmtBits g.fmt = 4 then 2 else 1

/-- Rows and positions of the tensor the coordinates run over (R154). -/
def GenP.rows (g : GenP) : Nat := ceilDiv g.h g.f
def GenP.cols (g : GenP) : Nat := ceilDiv g.w g.f

/-- Virtual height and width (R141). -/
def GenP.hv (g : GenP) : Int := ((g.rows : Int) - 1) * g.ty + 1
def GenP.wv (g : GenP) : Int := ((g.cols : Int) - 1) * g.tx + 1

/-- Output height and width (R142). -/
def GenP.ho (g : GenP) : Int := Int.fdiv (g.hv + g.padT + g.padB - ((g.kh : Int) - 1) * g.dy - 1) g.sy + 1
def GenP.wo (g : GenP) : Int := Int.fdiv (g.wv + g.padL + g.padR - ((g.kw : Int) - 1) * g.dx - 1) g.sx + 1

/-- Window mode rather than direct mode (R147). -/
def GenP.window (g : GenP) : Bool := decide (64 * g.sx + (g.kw - 1) * g.dx ≤ 192)

/-- Lines stored: the ring's, or all (R136). -/
def GenP.lines (g : GenP) : Nat := if g.ring = 0 then g.h else g.ring

/-- The stored extents as (byte offset, bytes): tensor, scale plane, packed input (R192). The scale plane and the
packed input reach from their base to the last byte that R138 and R139 address (log entry 20). -/
def GenP.extents (g : GenP) : List (Nat × Nat) :=
  if g.rgF ≠ 0 then [(g.bBase, (g.lines - 1) * g.pb + g.w * g.rgC * g.rgE)]
  else (32 * g.base, 32 * (g.pw * g.cb * g.lines)) ::
    (if fmtIsMx g.fmt then [(g.sBase, (g.lines * g.cb - 1) * g.ps + g.w)] else [])

/-- Every parameter in its range (R140, R154; log entry 20 for the Regroup cases). -/
def GenP.inRange (g : GenP) : Bool :=
  decide (1 ≤ g.h) && decide (1 ≤ g.w) && decide (1 ≤ g.cb) &&
  decide (1 ≤ g.kh) && decide (g.kh ≤ 11) && decide (1 ≤ g.kw) && decide (g.kw ≤ 11) &&
  decide (1 ≤ g.sy) && decide (1 ≤ g.sx) && decide (1 ≤ g.dy) && decide (1 ≤ g.dx) &&
  decide (1 ≤ g.ty) && decide (1 ≤ g.tx) && g.padMode != 3 &&
  (g.rgF != 0 || decide (ceilDiv g.w g.perWord ≤ g.pw)) && decide (1 ≤ g.pw) &&
  (!fmtIsMx g.fmt || decide (1 ≤ g.ps)) &&
  (g.rgF == 0 || (decide (1 ≤ g.pb) && decide (g.f * g.f * g.rgC ≤ 256) && g.window))

/-- The checks of AGGO: traps with TRAP_ADDR (R140, R192). -/
def aggoTraps (b : CoreBody) (up : Nat) : List (Nat × Word) :=
  let g := b.genP
  let bad := !g.inRange || decide (g.ho < 1) || decide (g.wo < 1) || decide (g.yLast < g.yFirst) ||
    decide (g.ho ≤ g.yLast) || decide (g.wo ≤ g.xFirst) || (g.avg && !g.vector) ||
    !(g.extents.all fun x => b.inBound x.1 x.2)
  if bad then [(trapAgParam, 0)]
  else match g.extents.find? fun x => !granulesUp up (b.phys x.1) x.2 with
    | some x => [(trapGranule, BitVec.ofNat 32 x.1)]
    | none => []

/-! ### Planes -/

/-- Planes of one tile and repetition (R148, R149). With RG_F set the number of channel blocks is still the field CB:
R154 does not say what a CB that differs from the blocks of f² × C channels does, and the model takes the field as it
stands (DESIGN CHOICE, log entry 99). -/
def GenP.planesPerTile (g : GenP) : Nat := g.kh * g.cb * (if g.window then 1 else g.kw)

/-- Planes of a whole walk (R192). -/
def GenP.planes (g : GenP) : Nat := (g.yLast + 1 - g.yFirst) * g.xTiles * g.nRep * g.planesPerTile

/-- Columns of one plane, one channel each (R152, R156). -/
def GenP.columns (g : GenP) : Nat := g.lanes * (if g.window then g.kw else 1)

/-- Accesses of one plane load (R150, R155). -/
def GenP.accesses (g : GenP) : Nat :=
  let span := 63 * g.sx + (g.kw - 1) * g.dx + 1
  let real := ceilDiv span g.tx
  let mxWin := if fmtIsMx g.fmt then ceilDiv span 256 + 1 else 0
  let mxDir := if fmtIsMx g.fmt then ceilDiv (63 * g.sx + 1) 256 + 1 else 0
  if g.window then
    (if g.rgF ≠ 0 then g.f * (ceilDiv (span * g.f * g.rgC * g.rgE) 256 + 1)
     else ceilDiv real (8 * g.perWord) + 1 + mxWin)
  else min 64 (ceilDiv (63 * g.sx + 1) (8 * g.perWord) + 1) + mxDir

/-- The place of plane n: output row, tile start x_0, ky, cb, kx (R146, R192). -/
structure PlaneAt where
  yo : Nat
  x0 : Nat
  ky : Nat
  cb : Nat
  kx : Nat
deriving DecidableEq, Repr

def GenP.planeAt (g : GenP) (n : Nat) : PlaneAt :=
  let t := n / g.planesPerTile
  let r := n % g.planesPerTile
  let yx := t / g.nRep
  let kxs := if g.window then 1 else g.kw
  { yo := g.yFirst + yx / g.xTiles, x0 := g.xFirst + 64 * (yx % g.xTiles), ky := r / (g.cb * kxs),
    cb := r / kxs % g.cb, kx := r % kxs }

/-- Where an element of the tensor lies (R141): padding, an inserted zero, or stored at (row, position). -/
inductive Place where
  | padding
  | inserted
  | stored (y x : Nat)
deriving DecidableEq, Repr

def GenP.place (g : GenP) (yv xv : Int) : Place :=
  if yv < 0 || g.hv ≤ yv || xv < 0 || g.wv ≤ xv then .padding
  else if yv % g.ty != 0 || xv % g.tx != 0 then .inserted
  else .stored (yv / g.ty).toNat (xv / g.tx).toNat

/-- Virtual row of an output row and tap (R141). -/
def GenP.yv (g : GenP) (yo ky : Nat) : Int := (yo : Int) * g.sy + (ky : Int) * g.dy - g.padT + g.orgY

/-- Virtual position of an output position and tap (R141). -/
def GenP.xv (g : GenP) (xo kx : Nat) : Int := (xo : Int) * g.sx + (kx : Int) * g.dx - g.padL + g.orgX

/-- A reader of one core's Pantry by physical byte: the byte, and whether its word delivers poison. -/
structure PantryView where
  mem : Memory
  core : Nat

def PantryView.byte (v : PantryView) (a : Nat) : Byte := v.mem.byte (pantryAddr v.core a)
def PantryView.bad (v : PantryView) (a : Nat) : Bool := (v.mem.state (pantryAddr v.core a)).bad

/-- Element i of a word at byte address a for position parity `half` (R137, R66). -/
def PantryView.elem (v : PantryView) (fmt a i half : Nat) : Nat :=
  match fmtBits fmt with
  | 4 => nbits (v.byte (a + 16 * half + i / 2)).toNat (4 * (i % 2) + 3) (4 * (i % 2))
  | 6 => nbits (leNat ((List.range 2).map fun k => v.byte (a + (6 * i) / 8 + k))) ((6 * i) % 8 + 5) ((6 * i) % 8)
  | 16 => leNat [v.byte (a + 2 * i), v.byte (a + 2 * i + 1)]
  | 32 => leNat ((List.range 4).map fun k => v.byte (a + 4 * i + k))
  | _ => (v.byte (a + i)).toNat

/-- Byte address, physical, of the word that holds block cb at (y, x) (R136). -/
def GenP.wordAddr (g : GenP) (b : CoreBody) (cb y x : Nat) : Nat :=
  let y' := if g.ring = 0 then y else y % g.ring
  b.phys (32 * (g.base + (y' * g.cb + cb) * g.pw + x / g.perWord))

/-- Byte address, physical, of the scale byte of block cb at (y, x) (R138). -/
def GenP.scaleAddr (g : GenP) (b : CoreBody) (cb y x : Nat) : Nat :=
  let y' := if g.ring = 0 then y else y % g.ring
  b.phys (g.sBase + (y' * g.cb + cb) * g.ps + x)

/-- Byte address, physical, of a packed-pixel channel (R139). -/
def GenP.pixelAddr (g : GenP) (b : CoreBody) (y x c : Nat) : Nat :=
  let y' := if g.ring = 0 then y else y % g.ring
  b.phys (g.bBase + y' * g.pb + (x * g.rgC + c) * g.rgE)

/-- A padding element before its value is chosen (R141, R143). -/
def GenP.padElem (g : GenP) : ColElem := ⟨0, if fmtIsMx g.fmt then g.padScale else 127, false, .padding⟩

/-- Channel i of block cb at a stored place, as a view of the Pantry gives it (R136 to R139, R154, R229). A Regroup
element of e bytes is poisoned when a word that holds one of its bytes is. Where the element width of FMT is not e, the
element is the low bits of its e bytes (DESIGN CHOICE, log entry 99). -/
def GenP.storedElem (g : GenP) (b : CoreBody) (v : PantryView) (cb y x i : Nat) : ColElem :=
  if g.rgF ≠ 0 then
    let c' := cb * g.lanes + i
    let c := c' % g.rgC
    let dx := c' / g.rgC % g.f
    let dy := c' / g.rgC / g.f
    let py := g.f * y + dy
    let px := g.f * x + dx
    if g.f * g.f * g.rgC ≤ c' then ⟨0, 127, false, .stored⟩
    else if g.h ≤ py || g.w ≤ px then g.padElem
    else
      let a := g.pixelAddr b py px c
      ⟨leNat ((List.range g.rgE).map fun k => v.byte (a + k)), 127, v.bad a || v.bad (a + g.rgE - 1), .stored⟩
  else
    let a := g.wordAddr b cb y x
    let raw := v.elem g.fmt a i (x % g.perWord)
    if fmtIsMx g.fmt then
      let sa := g.scaleAddr b cb y x
      ⟨raw, (v.byte sa).toNat, v.bad a || v.bad sa, .stored⟩
    else ⟨raw, 127, v.bad a, .stored⟩

/-- The lanes of one virtual position of a plane as a view of the Pantry gives them (R144). -/
def GenP.position (g : GenP) (b : CoreBody) (v : PantryView) (cb : Nat) (yv xv : Int) : List ColElem :=
  match g.place yv xv with
  | .padding => List.replicate g.lanes g.padElem
  | .inserted => List.replicate g.lanes ⟨0, 127, false, .inserted⟩
  | .stored y x => (List.range g.lanes).map fun i => g.storedElem b v cb y x i

/-- The physical words that one stored position of a plane reads: its block's word with the word of its scale byte, or
in a Regroup plane the pixels of all f lines of its regrouped row (R144, R150, R155). -/
def GenP.positionWords (g : GenP) (b : CoreBody) (cb : Nat) (yv xv : Int) : List Nat × List Nat :=
  match g.place yv xv with
  | .padding => ([], [])
  | .inserted => ([], [])
  | .stored y x =>
    if g.rgF ≠ 0 then
      let px := g.f * x
      let n := (min g.f (g.w - px)) * g.rgC * g.rgE
      (((List.range g.f).filter fun dy => decide (g.f * y + dy < g.h)).flatMap fun dy =>
        let a := g.pixelAddr b (g.f * y + dy) px 0
        if n = 0 then [] else (List.range ((a + n - 1) / 32 + 1 - a / 32)).map fun i => a / 32 + i, [])
    else ([g.wordAddr b cb y x / 32], if fmtIsMx g.fmt then [g.scaleAddr b cb y x / 32] else [])

/-- Positions that plane n holds, and the step from one to the next (R148, R149). -/
def GenP.span (g : GenP) : Nat × Nat :=
  if g.window then (63 * g.sx + (g.kw - 1) * g.dx + 1, 1) else (64, g.sx)

/-- Some column of plane n presents position `q` for an output position below W_o: the others are padding (R145) and
read nothing (R144). -/
def GenP.presented (g : GenP) (n q : Nat) : Bool :=
  let x0 := (g.planeAt n).x0
  if g.window then
    (List.range g.kw).any fun kx => decide (kx * g.dx ≤ q) && (q - kx * g.dx) % g.sx == 0 &&
      decide ((q - kx * g.dx) / g.sx < 64) && decide ((x0 + (q - kx * g.dx) / g.sx : Nat) < g.wo)
  else decide ((x0 + q : Nat) < g.wo)

/-- Plane n of the walk as a view of the Pantry gives it (R148, R149). -/
def GenP.planeElems (g : GenP) (b : CoreBody) (v : PantryView) (n : Nat) : List (List ColElem) :=
  let at_ := g.planeAt n
  let yv := g.yv at_.yo at_.ky
  let x0 := g.xv at_.x0 at_.kx
  (List.range g.span.1).map fun q =>
    if g.presented n q then g.position b v at_.cb yv (x0 + (q * g.span.2 : Nat))
    else List.replicate g.lanes g.padElem

/-- Ascending order without repeats. -/
def insertNat (x : Nat) : List Nat → List Nat
  | [] => [x]
  | y :: ys => if x < y then x :: y :: ys else if x = y then y :: ys else y :: insertNat x ys

def sortNat (xs : List Nat) : List Nat := xs.foldl (fun t x => insertNat x t) []

/-- The words of some 256-byte units, unit by unit in ascending order. -/
def unitsOf (words : List Nat) : List (List Nat) :=
  let ws := sortNat words
  (sortNat (ws.map (· / 8))).map fun u => ws.filter fun w => w / 8 == u

/-- The words that access `k` of the load of plane n reads (R144, R150): each access reads one aligned 256-byte unit,
the units of the elements in ascending order and then those of the scales. An access reads the words of positions that
some column presents and no others, and an access beyond the last unit reads none: which further words of a unit are
read, and so whose errors are recorded, the spec leaves open (DESIGN CHOICE, log entry 99). -/
def GenP.planeAccess (g : GenP) (b : CoreBody) (n k : Nat) : List Nat :=
  let at_ := g.planeAt n
  let yv := g.yv at_.yo at_.ky
  let x0 := g.xv at_.x0 at_.kx
  let ps := ((List.range g.span.1).filter (g.presented n)).map fun q =>
    g.positionWords b at_.cb yv (x0 + (q * g.span.2 : Nat))
  (unitsOf (ps.flatMap Prod.fst) ++ unitsOf (ps.flatMap Prod.snd)).getD k []

/-- Column j of plane n for the 64 rows: lane j mod B at tap j / B (R148, R149); positions at or beyond W_o are padding
(R145). -/
def GenP.column (g : GenP) (n j : Nat) (elems : List (List ColElem)) : List ColElem :=
  let at_ := g.planeAt n
  let kx := j / g.lanes
  let i := j % g.lanes
  (List.range 64).map fun r =>
    if g.wo ≤ (at_.x0 + r : Nat) then g.padElem
    else
      let q := if g.window then kx * g.dx + r * g.sx else r
      (elems.getD q []).getD i g.padElem

/-- The raw encoding that padding takes in an array step (R143). The 16 bits of PAD_VAL give a constant of a 32-bit
format its low half; its high half is zero (DESIGN CHOICE, log entry 99). -/
def GenP.padRaw (g : GenP) : Nat :=
  let bits := fmtBits g.fmt
  match g.padMode with
  | 0 => 0
  | 1 => g.padVal % 2 ^ bits
  | _ =>
    match g.fmt with
    | 0 => 0x80
    | 1 => 0
    | 2 => 0x8
    | 3 => 0
    | 4 | 6 => 0xFE
    | 5 | 7 => 0xFB
    | 8 | 9 => 0x3F
    | 10 => 0xF
    | 11 => 0x80
    | 12 => 0xFF7F
    | _ => 0xFBFF

/-- The element that an array step sees: decoded value, special when poisoned (R121, R143). -/
def GenP.arrayElem (g : GenP) (e : ColElem) : Elem :=
  let raw := if e.kind = .padding then g.padRaw else e.raw
  let x := decodeElem g.fmt raw
  { x with special := x.special || e.bad }

/-- The lane that a vector window load gives (R143, R156, R70): word and flags. -/
def GenP.vectorLane (g : GenP) (e : ColElem) : Lane :=
  let isInt := decide (g.fmt ≤ 3) || g.fmt == 15
  let raw := if e.kind = .padding then g.padRaw else e.raw
  if isInt then
    let w : Word :=
      match g.fmt with
      | 0 => BitVec.ofInt 32 (signed 8 raw)
      | 1 => BitVec.ofNat 32 (raw % 256)
      | 2 => BitVec.ofInt 32 (signed 4 raw)
      | 3 => BitVec.ofNat 32 (raw % 16)
      | _ => if e.kind = .padding && g.padMode == 2 then 0x80000000 else BitVec.ofNat 32 raw
    (w, 0)
  else if e.bad then (nan32, 0)
  else if e.kind = .padding && g.padMode == 2 then (0xFF800000, 0)
  else if fmtIsMx g.fmt then mxToF32 g.fmt raw e.scale
  else match g.fmt with
    | 12 => ((toF32 (bf16 raw)).1, 0)
    | 13 => ((toF32 (fp16 raw)).1, 0)
    | 14 => ((toF32 (fp32 (BitVec.ofNat 32 raw))).1, 0)
    | 5 =>
      let x := decodeElem 5 raw
      if x.special then (if raw % 4 = 0 then ((toF32 (.inf (decide (128 ≤ raw)))).1, 0) else (nan32, 0))
      else ((toF32 (.fin (decide (128 ≤ raw)) x.m.natAbs x.e)).1, 0)
    | _ =>
      let x := decodeElem g.fmt raw
      if x.special then (nan32, 0)
      else ((toF32 (.fin (raw.testBit (fmtBits g.fmt - 1)) x.m.natAbs x.e)).1, 0)

/-- The count column of R626: RNE(1 / n_r) for each row. -/
def GenP.avgColumn (g : GenP) (n : Nat) : Vec :=
  let at_ := g.planeAt n
  Vec.tab fun r =>
    let taps := ((List.range g.kh).map fun ky => ((List.range g.kw).filter fun kx =>
      match g.place (g.yv at_.yo ky) (g.xv (at_.x0 + r) kx) with
      | .stored .. => true
      | _ => false).length).sum
    if taps = 0 then 0 else recipNat taps
where
  /-- RNE(1 / n) in FP32 for n from 1 to 121. -/
  recipNat (n : Nat) : Word :=
    let k := Nat.log2 n
    let sh := if 2 ^ k = n then k + 23 else k + 24
    let q := 2 ^ sh / n
    let r := 2 ^ sh % n
    let q' := if n < 2 * r || (2 * r == n && q % 2 == 1) then q + 1 else q
    BitVec.ofNat 32 (fpEncode 8 23 (.fin false q' (-(sh : Int)))).1

end Sys2Proof.Machine
end

