-- ==== Sys2Proof/Machine/PantryOps.lean ====
section
/-!
DEFINITION. Accesses of a core's Pantry: the errors a read records, merges of partial writes, and the writes of one
cycle, which take effect at its end in slot order (06_pantry_loft_gather.md R222 to R229).
-/
namespace Sys2Proof.Machine

open Sys2Proof

/-- One more corrected error of a unit in the window of 3,600 s; above CORR_LIMIT the service cause is set and the limit
is logged once (13 R547). Units: 0 Pantry, 1 Instruction Store, 2 Loft slice. -/
def Hw.corrected (h : Hw) (unit_ index n : Nat) : Hw :=
  if n = 0 then h
  else
    let w := h.elapsed / (3600 * 10 ^ 9)
    let c := if h.caller.corrWindow = w then h.caller.corr else []
    let key := unit_ * 256 + index
    let old := Tbl.get (fun _ => 0) c key
    let limit := h.regFld Reg.corrLimit 15 0
    let h := h.updCaller fun k => { k with corr := Tbl.put (fun _ => 0) c key (old + n), corrWindow := w }
    if old ≤ limit && limit < old + n then
      (h.log { kind := LogKind.corrLimit, cls := 3, detail := index * 256 + unit_ }).service 2
    else h

/-- Record the errors of a read or merge of Pantry bytes [a, a + n) of core p: counters, last error (06 R224, R228,
R235). -/
def Eff.pantryErrors (e : Eff) (p a n : Nat) (scrub : Bool) : Eff :=
  let ad := pantryAddr p a
  let c := e.mem.countState ad n .single
  let u := e.mem.countState ad n .uncorrectable
  if c = 0 && u = 0 then e
  else
    let last := (List.range ((a + n - 1) / 32 + 1 - a / 32)).foldl (fun (x : Option (Nat × Bool)) i =>
      match e.mem.state (pantryAddr p (32 * (a / 32 + i))) with
      | .single => some (a / 32 + i, false)
      | .uncorrectable => some (a / 32 + i, true)
      | _ => x) none
    e.up fun h =>
      let h := (h.satRegFld (Reg.pantryCorrCnt p) 31 0 c).satRegFld (Reg.pantryUncCnt p) 31 0 u
      let h := match last with
        | some (w, unc) => h.setReg (Reg.pantryErrAddr p)
            (BitVec.ofNat 32 (2 ^ 31 + unc.toNat * 2 ^ 30 + scrub.toNat * 2 ^ 29 + w % 2 ^ 17))
        | none => h
      h.corrected 0 p c

/-- The flags that a read of Pantry bytes sets: ECC_POISON and POISON_IN (R215, R229). -/
def readFlags (v : PantryView) (pa n : Nat) : BitVec 4 :=
  (if v.mem.anyState (pantryAddr v.core pa) n .uncorrectable then 1 else 0) |||
  (if v.mem.anyState (pantryAddr v.core pa) n .poisoned then 2 else 0)

/-- A read by a core's program or generator: errors are recorded, and poison sets CORE_FLAGS (06 R229). -/
def Eff.coreRead (e : Eff) (p a n : Nat) : Eff :=
  let fl := readFlags ⟨e.mem, p⟩ a n
  let e := e.pantryErrors p a n false
  if fl = 0 then e else e.up fun h => h.updBody p fun b => { b with flags := b.flags ||| fl }

/-- A merge into word w of the Pantry of core p (06 R224). -/
def Eff.merged (e : Eff) (p w : Nat) : Eff :=
  if e.mem.state (pantryAddr p (32 * w)) = .single then e.pantryErrors p (32 * w) 32 false else e

/-- Write Pantry bytes of core p; a partial write of a word with a single-bit error counts it as corrected (06 R224). -/
def Eff.pantryWrite (e : Eff) (p a : Nat) (bs : List Byte) (poison : Bool) : Eff :=
  if bs.isEmpty then e
  else
    let e := if a % 32 = 0 && bs.length % 32 = 0 then e
      else
        let head := if a % 32 = 0 then e else e.merged p (a / 32)
        if (a + bs.length) % 32 = 0 || (a + bs.length) / 32 = a / 32 && a % 32 != 0 then head
        else head.merged p ((a + bs.length) / 32)
    e.write (.bytes (pantryAddr p a) bs poison)

/-- The writes of the cycle of core `p` take effect: in ascending slot order, so that of two that meet the bytes of the
higher-numbered slot remain (06 R223). -/
def Eff.settleWrites (e : Eff) (p : Nat) : Eff :=
  let ws := (e.hw.body p).writes
  if ws.isEmpty then e
  else
    let ordered := (List.range 8).flatMap fun s => ws.filter fun w => w.slot == s
    (e.each ordered fun e w => e.pantryWrite p w.addr w.data w.poison).up fun h =>
      h.updBody p fun b => { b with writes := [] }

/-- Cores stop in the middle of a cycle: the writes of the cycle take effect. -/
def Eff.settleAll (e : Eff) (ps : List Nat) : Eff := e.each ps Eff.settleWrites

/-- A write through a slot of core `p`: in an issued cycle it takes effect at the cycle's end, so that every read of
that cycle returns the old contents (06 R223); in hold cycles and on a core that runs no kernel it takes effect at
once. -/
def Eff.slotWrite (e : Eff) (p slot a : Nat) (bs : List Byte) (poison : Bool) : Eff :=
  let b := e.hw.body p
  if bs.isEmpty then e
  else if (b.canIssue && !e.hw.held p) || !b.writes.isEmpty then
    e.up fun h => h.updBody p fun b => { b with writes := b.writes ++ [⟨slot, a, bs, poison⟩] }
  else e.pantryWrite p a bs poison

/-- Write Pantry words of a core through a slot, with the poison of each. -/
def Eff.slotWords (e : Eff) (p slot a : Nat) (bs : List Byte) (poison : List Bool) : Eff :=
  e.each (List.range (bs.length / 32)) fun e i =>
    e.slotWrite p slot (a + 32 * i) ((bs.drop (32 * i)).take 32) (poison.getD i false)

end Sys2Proof.Machine
end

