-- ==== Sys2Proof/Machine/Issue.lean ====
section
/-!
DEFINITION. Issue of a bundle of four syllables (05_core_program.md R171 to R185, R213): what a syllable is to issue,
what the bundle gathers slot by slot, and how it stalls, waits, traps or issues when slot 3 has come.
-/
namespace Sys2Proof.Machine

open Sys2Proof

/-- What one syllable asks of issue: registers read; registers written with their latencies; its own stall, and
whether that is a full core DMA queue; a wait
condition, and whether it also asks for wheel position 0; WAIT_INFO and WAIT_THRESH while it holds issue back; traps as (code, TRAP_ADDR); its effect on the core; a
control transfer; messages sent while it waits or issues (`early`), and when it issues. -/
structure Syl where
  srcs : List Nat := []
  dests : List (Nat × Nat) := []
  stall : Bool := false
  full : Bool := false
  wait : Option Bool := none
  wheel : Bool := false
  info : Option (Word × Word) := none
  traps : List (Nat × Word) := []
  eff : CoreBody → CoreBody := id
  transfer : Transfer := .none
  early : List CoreOut := []
  outs : List CoreOut := []

/-- A syllable that raises ILLEGAL_ENCODING and names no register (R170). -/
def Syl.illegal : Syl := { traps := [(trapIllegal, 0)] }

/-- A source awaits a write that lands at or after this cycle (R173). -/
def CoreBody.srcBusy (b : CoreBody) (r : Nat) : Bool :=
  decide (b.cycle < Tbl.get (fun _ => 0) b.ready r) || b.loading.contains r

/-- A destination awaits a write that would land at or after this one's own (R173). -/
def CoreBody.dstBusy (b : CoreBody) (r : Nat × Nat) : Bool :=
  decide (b.cycle + r.2 ≤ Tbl.get (fun _ => 0) b.ready r.1) || b.loading.contains r.1

/-- Whether the interlock of R173 holds the syllable back. -/
def Syl.interlocked (y : Syl) (b : CoreBody) : Bool := y.srcs.any b.srcBusy || y.dests.any b.dstBusy

/-- Two wait conditions of one bundle: both must hold (R180). -/
def joinWait : Option Bool → Option Bool → Option Bool
  | none, w => w
  | w, none => w
  | some x, some y => some (x && y)

/-- An empty bundle over what the core holds. -/
def Bundle.start (b : CoreBody) : Bundle :=
  { before := b, next := 0, dests := [], traps := [], stall := false, dmaStop := false, wait := none, wheel := false, waitInfo := 0,
    waitThresh := 0, transfer := .none, early := [], outs := [] }

/-- Add the syllable of the next slot to a bundle. -/
def Bundle.add (d : Bundle) (y : Syl) : Bundle :=
  { d with
    next := d.next + 1
    dests := d.dests ++ y.dests.map fun r => (r.1, d.next, r.2)
    traps := d.traps ++ y.traps.map fun t => ⟨d.next, t.1, t.2⟩
    stall := d.stall || y.stall || y.full || y.interlocked d.before
    dmaStop := d.dmaStop || y.full
    wait := joinWait d.wait y.wait
    wheel := d.wheel || y.wheel
    waitInfo := if d.waitInfo = 0 then (y.info.getD (0, 0)).1 else d.waitInfo
    waitThresh := if d.waitInfo = 0 then (y.info.getD (0, 0)).2 else d.waitThresh
    transfer := if y.transfer = .none then d.transfer else y.transfer
    early := d.early ++ y.early
    outs := d.outs ++ y.outs }

/-- BUNDLE_CONFLICT, as a trap of each of the two slots that name one destination register (R174). -/
def Bundle.conflicts (d : Bundle) : List TrapInfo :=
  (d.dests.filter fun x => d.dests.any fun y => x.1 == y.1 && x.2.1 != y.2.1).map
    fun x => ⟨x.2.1, trapConflict, 0⟩

/-- Whether trap t is recorded before trap u: the lower slot, then the lower code (R213). -/
def TrapInfo.before (t u : TrapInfo) : Bool :=
  decide (t.slot < u.slot) || (t.slot == u.slot && decide (t.code < u.code))

/-- The trap that R213 records. -/
def firstTrap : List TrapInfo → Option TrapInfo
  | [] => none
  | t :: ts =>
    match firstTrap ts with
    | none => some t
    | some u => if u.before t then some u else some t

/-- The trap of fetching a bundle: its index beyond the region, or an uncorrectable bundle (R212, R213). -/
def CoreBody.fetchTrap (b : CoreBody) : Option TrapInfo :=
  if b.ibound ≤ b.pc then some ⟨0, trapIsBound, 0⟩
  else if b.isBad.contains b.pc then some ⟨0, trapIsEcc, 0⟩
  else none

/-- TRAP_CAUSE of a precise trap (R219). -/
def trapWord (imprecise : Bool) (pc slot code : Nat) : Word :=
  BitVec.ofNat 32 (2 ^ 31 + imprecise.toNat * 2 ^ 30 + (pc % 2 ^ 14) * 2 ^ 16 + (slot % 4) * 2 ^ 8 + code % 2 ^ 8)

/-- Loop processing when the bundle at pc issues (R177): the stack, and the bundle that issues next. -/
def loopEnd (pc : Nat) : List LoopEntry → List LoopEntry × Nat
  | [] => ([], pc + 1)
  | e :: es =>
    if e.last = pc then
      (if 1 < e.count then ({ e with count := e.count - 1 } :: es, e.first) else loopEnd pc es)
    else (e :: es, pc + 1)

/-- The stack after a taken BR from pc to t: the outermost entry whose body it leaves goes, with every entry inside it
(R177). -/
def branchPops (pc t : Nat) : List LoopEntry → List LoopEntry
  | [] => []
  | e :: es =>
    let rest := branchPops pc t es
    if rest.length < es.length then rest
    else if e.first ≤ pc && pc ≤ e.last && !(e.first ≤ t && t ≤ e.last) then es
    else e :: es

/-- The register writes of an issuing bundle in the scoreboard (R173). -/
def markReady (cycle : Nat) (dests : List (Nat × Nat × Nat)) (t : Tbl Nat) : Tbl Nat :=
  dests.foldl (fun t x => if x.1 = keyS 0 || x.1 = keyP 0 then t
    else Tbl.put (fun _ => 0) t x.1 (cycle + x.2.2)) t

/-- Where control goes when a bundle issues; after a taken branch or a skipped loop no bundle issues in the next cycle
(R176, R177). -/
def flow (b : CoreBody) : Transfer → CoreBody
  | .none =>
    let (ls, n) := loopEnd b.pc b.loops
    { b with loops := ls, pc := n }
  | .branch t => { b with loops := branchPops b.pc t b.loops, pc := t, dead := true }
  | .call t =>
    let (ls, n) := loopEnd b.pc b.loops
    { b with loops := ls, rets := n :: b.rets, pc := t, dead := true }
  | .ret t => { b with rets := b.rets.drop 1, pc := t, dead := true }
  | .loop e =>
    let (ls, n) := loopEnd b.pc b.loops
    { b with loops := e :: ls, pc := n }
  | .skip t =>
    let (ls, _) := loopEnd b.pc b.loops
    { b with loops := ls, pc := t, dead := true }

/-- What a bundle does once its fourth syllable has come. -/
inductive BundleEnd where
  /-- No bundle issues in the cycle after a taken branch or a skipped loop (R176, R177). -/
  | dead
  | stalls
  | waits
  | traps (t : TrapInfo)
  | issues
deriving DecidableEq, Repr

/-- In the cycle that a branch costs nothing issues; a bundle that cannot be fetched traps; then R173, then the wait conditions at wheel position 0 (R180), then the
traps of its syllables (R213). -/
def Bundle.ending (d : Bundle) : BundleEnd :=
  if d.before.dead then .dead
  else match d.before.fetchTrap with
  | some t => .traps t
  | none =>
    if d.stall then .stalls
    else if d.wait = some false || (d.wheel && d.before.cycle % 8 != 0) then .waits
    else match firstTrap (d.traps ++ d.conflicts) with
      | some t => .traps t
      | none => .issues

/-- The core after its bundle ended: the old state one issued cycle later, or the new state (R172, R213). `now` is the
core with every syllable's effect. -/
def Bundle.close (d : Bundle) (now : CoreBody) : CoreBody × List CoreOut :=
  let b := d.before
  match d.ending with
  | .dead => ({ b with cycle := b.cycle + 1, dead := false, run := .issuing }, [])
  | .stalls =>
    ({ b with cycle := b.cycle + 1, waitInfo := d.waitInfo, waitThresh := d.waitThresh,
              dmaStop := d.dmaStop, run := .issuing }, [])
  | .waits =>
    ({ b with cycle := b.cycle + 1, waitInfo := d.waitInfo, waitThresh := d.waitThresh,
              dmaStop := false, run := if fld d.waitInfo 2 0 = 5 then .halting else .waiting }, d.early)
  | .traps t =>
    ({ b with cycle := b.cycle + 1, run := .trapped, trapCause := trapWord false b.pc t.slot t.code,
              trapAddr := t.addr }, [.trapped t.slot t.code])
  | .issues =>
    let n := flow { now with ready := markReady b.cycle d.dests now.ready } d.transfer
    ({ n with cycle := b.cycle + 1, retired := n.retired + 1, waitInfo := 0, waitThresh := 0, dmaStop := false,
              run := if d.outs.contains .halted then .idle else .issuing }, d.early ++ d.outs)

/-- Offer the syllable of slot `k` to a core: it joins the bundle at issue when it is that bundle's next slot, and slot
3 ends the bundle. `mk` builds it from what the core held before the bundle (R172) and from what it holds with the earlier slots' effects
(R200). Nothing happens out of order. -/
def Core.offer (c : Core) (k : Nat) (mk : CoreBody → CoreBody → Syl) : Core × List CoreOut :=
  let d := c.bundle.getD (Bundle.start c.body)
  if c.body.canIssue && d.next == k then
    let y := mk d.before c.body
    let d' := d.add y
    let now := y.eff c.body
    if k = 3 then
      let (b, outs) := d'.close now
      ({ body := b, bundle := none }, outs)
    else ({ body := now, bundle := some d' }, [])
  else (c, [])

end Sys2Proof.Machine
end

