-- ==== Sys2Proof/Machine/Syl0.lean ====
section
/-!
DEFINITION. Slot 0 syllables: control and scalar (05_core_program.md R175 to R185).
-/
namespace Sys2Proof.Machine

open Sys2Proof

/-- NOP; a word of the slot that encodes no syllable raises ILLEGAL_ENCODING (R170). -/
def sylNop (illegal : Bool) : Syl := if illegal then Syl.illegal else {}

/-- A scalar result from two source registers with latency `lat` (R175). -/
def sylAlu (lat : Nat) (f : Word → Word → Word) (d a c : Nat) (b : CoreBody) : Syl :=
  { srcs := [keyS a, keyS c], dests := [(keyS d, lat)], eff := fun n => n.setS d (f (b.sr a) (b.sr c)) }

/-- A scalar result from a source register and an immediate word (R175). -/
def sylAluI (f : Word → Word → Word) (d a : Nat) (imm : Word) (b : CoreBody) : Syl :=
  { srcs := [keyS a], dests := [(keyS d, 1)], eff := fun n => n.setS d (f (b.sr a) imm) }

/-- A shift by imm14[4:0]; the other bits of imm14 have no meaning and are zero (R170, R175). -/
def sylShI (f : Word → Word → Word) (d a : Nat) (imm : BitVec 14) (b : CoreBody) : Syl :=
  if 32 ≤ imm.toNat then Syl.illegal else sylAluI f d a (imm.zeroExtend 32) b

/-- The shift amount of a scalar shift (R175). -/
def shamt (x : Word) : Nat := x.toNat % 32

def aluShl (x y : Word) : Word := x <<< shamt y
def aluShr (x y : Word) : Word := x >>> shamt y
def aluSra (x y : Word) : Word := x.sshiftRight (shamt y)
def aluMin (x y : Word) : Word := if x.toInt ≤ y.toInt then x else y
def aluMax (x y : Word) : Word := if x.toInt ≤ y.toInt then y else x
def aluMinu (x y : Word) : Word := if x.toNat ≤ y.toNat then x else y
def aluMaxu (x y : Word) : Word := if x.toNat ≤ y.toNat then y else x

/-- LI (R175). -/
def sylLi (d : Nat) (imm : BitVec 16) : Syl :=
  { dests := [(keyS d, 1)], eff := fun n => n.setS d (imm.signExtend 32) }

/-- LUI reads Sd (R175). -/
def sylLui (d : Nat) (imm : BitVec 16) (b : CoreBody) : Syl :=
  { srcs := [keyS d], dests := [(keyS d, 1)],
    eff := fun n => n.setS d ((imm.zeroExtend 32 <<< 16) ||| (b.sr d &&& 0xFFFF)) }

/-- The conditions of CMP: EQ, NE, LT, LE, LTU, LEU; other codes are reserved (R175). -/
def cmpCond (cond : Nat) (x y : Word) : Option Bool :=
  match cond with
  | 0 => some (x == y)
  | 1 => some (x != y)
  | 2 => some (decide (x.toInt < y.toInt))
  | 3 => some (decide (x.toInt ≤ y.toInt))
  | 4 => some (decide (x.toNat < y.toNat))
  | 5 => some (decide (x.toNat ≤ y.toNat))
  | _ => none

/-- CMP sets every bit of Pp (R175). -/
def sylCmp (p a c cond : Nat) (b : CoreBody) : Syl :=
  match cmpCond cond (b.sr a) (b.sr c) with
  | none => Syl.illegal
  | some r =>
    { srcs := [keyS a, keyS c], dests := [(keyP p, 1)],
      eff := fun n => n.setP p (if r then BitVec.allOnes 64 else 0) }

/-- PAND, POR, PXOR (R175). -/
def sylPred (f : BitVec 64 → BitVec 64 → BitVec 64) (p x y : Nat) (b : CoreBody) : Syl :=
  { srcs := [keyP x, keyP y], dests := [(keyP p, 1)], eff := fun n => n.setP p (f (b.pr x) (b.pr y)) }

/-- PNOT uses Ppa only (R175). -/
def sylPnot (p x : Nat) (b : CoreBody) : Syl :=
  { srcs := [keyP x], dests := [(keyP p, 1)], eff := fun n => n.setP p (~~~ b.pr x) }

/-- The branch tests ANY, ALL, NONE, NOTALL (R175). -/
def predTest (test : Nat) (x : BitVec 64) : Bool :=
  match test with
  | 0 => x != 0
  | 1 => x == BitVec.allOnes 64
  | 2 => x == 0
  | _ => x != BitVec.allOnes 64

/-- A branch target inside the region, or IS_BOUND (R176, R212). -/
def target (b : CoreBody) (off : Int) : Nat × List (Nat × Word) :=
  let t : Int := b.pc + off
  if 0 ≤ t && t < b.ibound then (t.toNat, []) else (0, [(trapIsBound, 0)])

/-- BR (R175 to R177). -/
def sylBr (p test : Nat) (off : BitVec 14) (b : CoreBody) : Syl :=
  if predTest test (b.pr p) then
    let (t, tr) := target b off.toInt
    { srcs := [keyP p], traps := tr, transfer := .branch t }
  else { srcs := [keyP p] }

/-- CALLB (R175 to R177). -/
def sylCallb (off : BitVec 14) (b : CoreBody) : Syl :=
  let (t, tr) := target b off.toInt
  { traps := tr ++ (if 4 ≤ b.rets.length then [(trapStack, 0)] else []), transfer := .call t }

/-- RETB (R175 to R177). -/
def sylRetb (b : CoreBody) : Syl :=
  match b.rets with
  | [] => { traps := [(trapStack, 0)] }
  | t :: _ => { traps := (if t < b.ibound then [] else [(trapIsBound, 0)]), transfer := .ret t }

/-- LOOP and LOOPI with a count (R177, R212). -/
def sylLoop (srcs : List Nat) (count : Nat) (end14 : Nat) (b : CoreBody) : Syl :=
  let last := b.pc + end14
  { srcs
    traps := (if end14 = 0 then [(trapIllegal, 0)] else []) ++
      (if b.ibound ≤ last then [(trapIsBound, 0)] else []) ++
      (if 4 ≤ b.loops.length && count != 0 then [(trapStack, 0)] else [])
    transfer := if count = 0 then .skip (last + 1) else .loop ⟨b.pc + 1, last, count⟩ }

/-- WAIT on counter c and a threshold (R178, R180). -/
def sylWait (srcs : List Nat) (c : Nat) (t : Word) (b : CoreBody) : Syl :=
  { srcs, wait := some (reaches (b.cr c) t), wheel := true, info := some (BitVec.ofNat 32 (c * 8 + 1), t) }

/-- WAITG: `assigned` says whether the stream is assigned to the kernel's context, `open_` whether the Line Gate is
satisfied (R181). -/
def sylWaitg (a c : Nat) (assigned : Nat → Bool) (open_ : Nat → Nat → Word → Bool) (b : CoreBody) : Syl :=
  let sa := b.sr a
  let stream := fld sa 6 0
  let par := fld sa 8 8
  let bad := fld sa 31 9 != 0 || bitOf sa 7 || decide (95 < stream)
  let srcs := [keyS a, keyS c]
  let info := some (BitVec.ofNat 32 (par * 2 ^ 15 + stream * 2 ^ 8 + 2), b.sr c)
  if bad then { srcs, wait := some true, wheel := true, info, traps := [(trapRange, sa)] }
  else if !assigned stream then { srcs, wait := some true, wheel := true, info, traps := [(trapGate, 0)] }
  else { srcs, wait := some (open_ stream par (b.sr c)), wheel := true, info, outs := [.gated stream par] }

/-- CUT: arrives once, then waits for the release; a barrier that can no longer be completed traps (R182, R183). -/
def sylCut (id : Nat) (x : Bool) (b : CoreBody) : Syl :=
  let info := some (BitVec.ofNat 32 (x.toNat * 2 ^ 20 + id * 2 ^ 16 + 3), (0 : Word))
  match b.cut with
  | none => { wait := some false, wheel := true, info, early := [.cut id x] }
  | some c =>
    { wait := some (c.release.any fun t => decide (t ≤ b.clock)), wheel := true, info
      eff := fun n => { n with cut := none } }

/-- TRICK (R184). -/
def sylTrick : Syl := { eff := fun n => { n with tricks := n.tricks + 1 } }

/-- Whether every operation before a HALT has finished (R185). -/
def CoreBody.quiet (b : CoreBody) : Bool :=
  b.mx.queue.isEmpty && b.mx.loadRun.isNone && b.mx.loadPend.isNone && b.mx.drainRun.isNone &&
  b.mx.drainPend.isNone && b.mx.rowsOut.isEmpty && b.mx.landed.isEmpty && b.mx.flights.isEmpty && b.loadQ.isEmpty &&
  b.storeQ.isEmpty && b.dmaQ.isEmpty && b.hputs.isEmpty

/-- Whether the condition of a close holds (R196, R258). -/
def Hatch.closable (x : Hatch) : Bool := x.closing && x.awaiting.isEmpty && x.accepted == 0

/-- The open Hatches of the core. -/
def CoreBody.openHatches (b : CoreBody) : List Nat := (List.range 16).filter fun k => (b.hatch k).isOpen

/-- Close a Hatch and increment its generation (R196); whom the HOPEN admitted stays known for late arrivals (R255). -/
def CoreBody.closeHatch (b : CoreBody) (k : Nat) : CoreBody :=
  b.setHatch k { Hatch.closed with gen := (b.hatch k).gen + 1, partner := (b.hatch k).partner }

/-- HALT (R185): its open Hatches are closed under the HCLOSE rule. -/
def sylHalt (b : CoreBody) : Syl :=
  { wait := some (b.quiet && b.openHatches.all fun k => (b.hatch k).closable)
    info := some (5, 0)
    early := (b.openHatches.filter fun k => b.quiet && !(b.hatch k).closing).map CoreOut.closing
    eff := fun n => b.openHatches.foldl CoreBody.closeHatch n
    outs := [.halted] }

/-- CNTSET (R178). -/
def sylCntset (c a : Nat) (b : CoreBody) : Syl :=
  { srcs := [keyS a], dests := [(keyC c, 1)], eff := fun n => n.setC c (b.sr a) }

/-- CNTADD (R178, R179). -/
def sylCntadd (c a : Nat) (b : CoreBody) : Syl :=
  { srcs := [keyS a], eff := fun n => n.setC c (n.cr c + b.sr a) }

/-- CNTRD (R178). -/
def sylCntrd (d c : Nat) (b : CoreBody) : Syl := { dests := [(keyS d, 1)], eff := fun n => n.setS d (b.cr c) }

/-- RDSTAT: ARITH_STATUS with the events of the cycles before this one (R175, R99). -/
def sylRdstat (d : Nat) (b : CoreBody) : Syl :=
  { dests := [(keyS d, 1)], eff := fun n => n.setS d (b.arithSeen.zeroExtend 32) }

/-- RDSPEC; `arithRev` is ENG_REV.ARITH_REV (R175). -/
def sylRdspec (d sel arithRev : Nat) (b : CoreBody) : Syl :=
  let v : Option Word :=
    match sel with
    | 0 => some (if b.detm then 1 else 0)
    | 1 => some (BitVec.ofNat 32 arithRev)
    | 2 => some (BitVec.ofNat 32 b.cycle)
    | 3 => some (BitVec.ofNat 32 (b.cycle % 8))
    | _ => none
  match v with
  | none => Syl.illegal
  | some w => { dests := [(keyS d, 1)], eff := fun n => n.setS d w }

/-- Replace one half of a 64-bit value. -/
def setHalf (hi : Bool) (w : DWord) (v : Word) : DWord :=
  if hi then (v.zeroExtend 64 <<< 32) ||| (w &&& 0xFFFFFFFF) else (w &&& 0xFFFFFFFF00000000) ||| v.zeroExtend 64

/-- The stochastic-rounding registers after SETRS with selector `sel` (R175). -/
def RsRegs.set (r : RsRegs) (sel : Nat) (v : Word) : RsRegs :=
  match sel with
  | 0 => { r with seed := setHalf false r.seed v }
  | 1 => { r with seed := setHalf true r.seed v }
  | 2 => { r with step := setHalf false r.step v }
  | 3 => { r with step := setHalf true r.step v }
  | 4 => { r with tid := v }
  | 5 => { r with idxBase := v }
  | _ => { r with idxStride := v }

/-- SETRS (R175). -/
def sylSetrs (a sel : Nat) (b : CoreBody) : Syl :=
  if 6 < sel then Syl.illegal
  else { srcs := [keyS a], dests := [(keyRS sel, 1)], eff := fun n => { n with rs := n.rs.set sel (b.sr a) } }

end Sys2Proof.Machine
end

