-- ==== Sys2Proof/Machine/Tally.lean ====
section
/-!
DEFINITION. The Tally (15_coffer_boot_configuration.md R601, R602).
-/
namespace Sys2Proof.Machine

open Sys2Proof

/-- Bytes of a block that hold registers: the end of its last register. -/
def RegBlock.top (b : Sys2Proof.RegBlock) : Nat :=
  b.rows.foldl (fun m (r : RegRow) => max m (r.off + r.stride * (r.count - 1) + 4)) 0

/-- Offsets within a block of the registers that hold an RWS field, ascending. -/
def rwsOffsets (b : Sys2Proof.RegBlock) : List Nat :=
  ((List.range (RegBlock.top b / 4)).map fun k => 4 * k).filter fun o =>
    match b.rows.find? (RegRow.covers · o) with
    | some r => r.bits.rws != 0
    | none => false

/-- The blocks other than the per-core windows and the doorbell pages, by base, ascending. -/
def tallyBlocks : Tbl Sys2Proof.RegBlock :=
  (regBlocks.filter fun b => b.base != 0x100000 && b.base != 0x8000 && b.base != 0x200000).foldl (fun t b =>
    (List.range b.count).foldl (fun t k => Tbl.insert t (b.base + b.stride * k) b) t) []

/-- Offsets of the RWS registers outside the per-core windows, ascending. -/
def engineOffsets : List Nat := (tallyBlocks.map fun x => (rwsOffsets x.2).map fun o => x.1 + o).flatten

/-- Offsets of the RWS registers of a per-core window. -/
def coreOffsets : List Nat := rwsOffsets ⟨0x100000, 0x4000, 64, 0x4000, coreRows⟩

/-- Registers that Table "Tally exclusions" omits whole, and the bits of LNK_CTRL. -/
def tallyExcluded (o : Nat) : Bool :=
  (List.range 2).any fun n =>
    o == Reg.lnkMac n || o == Reg.lnkMac n + 4 || o == Reg.extTxDelay n || o == Reg.extRxDelay n || o == Reg.asGm n ||
    o == Reg.asClockid n || o == Reg.asClockid n + 4 || (decide (0xA7060 ≤ o) && decide (o < 0xA7090))
def tallyMask (o : Nat) : Nat :=
  if o = Reg.lnkCtrl 0 ∨ o = Reg.lnkCtrl 1 then rwsMask o % 2 ^ 32 - (rwsMask o &&& 0x60) else rwsMask o

/-- One record: canonical offset and value. -/
def tallyRecord (o : Nat) (v : Word) : List Byte := leBytes 4 o ++ leBytes 4 v.toNat

/-- The records of the committed values (R601). -/
def Hw.tallyBytes (h : Hw) : List Byte :=
  let engine := (engineOffsets.filter fun o => !tallyExcluded o).map fun o => tallyRecord o (h.reg o &&& BitVec.ofNat 32 (tallyMask o))
  let cores := (List.range h.inService).map fun l =>
    (coreOffsets.map fun o =>
      let at_ := coreBase (h.phys l) + o
      tallyRecord (0x100000 + 0x4000 * l + o) (h.reg at_ &&& BitVec.ofNat 32 (rwsMask at_))).flatten
  engine.flatten ++ cores.flatten ++ tallyRecord 0xFFFFF8 h.boot.planCrc ++ tallyRecord 0xFFFFFC h.boot.modelCrc

/-- The Tally of the committed values is published (R602). -/
def Hw.publishTally (h : Hw) : Hw := h.setReg64 Reg.tally (crc64 h.tallyBytes).toNat

end Sys2Proof.Machine
end

