-- ==== Sys2Proof/Machine/ResetOps.lean ====
section
/-!
DEFINITION. Context reset, escalation, class A and class B (13_faults_reset_recovery.md R526 to R533;
12_functional_safety.md R484 to R486).
-/
namespace Sys2Proof.Machine

open Sys2Proof

/-- A class A cause (12 R485): SAFE_ERR stops, the first is recorded and later ones count, every verdict that is not yet
written fails with cause ENGINE, and the error log is to be stored (13 R539). -/
def Hw.classA (h : Hw) (code detail : Nat) : Hw :=
  let h := h.log { kind := LogKind.classA, cls := 0, detail := code * 65536 + detail % 65536 }
  let h := h.updSafety fun s =>
    { s with
      safe0 := false, safe1 := false
      verdicts := s.verdicts.map fun v => { v with causes := v.causes ||| 2 ^ 7, fail := true, detail := v.detail <|> some 0 } }
  let h := h.updCoffer fun c => { c with due := if c.due.contains 5 then c.due else c.due ++ [5] }
  if h.regBit Reg.smStatus 31 then h.satRegFld Reg.smStatus 7 0 1
  else
    let h := (h.setRegBit Reg.smStatus 31 true).setRegBit Reg.smStatus 30 false
    let h := h.setReg Reg.smCause (BitVec.ofNat 32 (2 ^ 31 + (code % 256) * 65536 + detail % 65536))
    h.setReg64 Reg.smTime h.now.toNat

/-- The Latent Fault Check is in progress (12 R515). -/
def Hw.checking (h : Hw) : Bool := h.boot.phase == some 2 || h.boot.rstPhase == some 5

/-- A checker reports a class A cause: the reactions of the checkers are masked for the duration of the Latent Fault Check
(12 R515). -/
def Hw.checkerA (h : Hw) (code detail : Nat) : Hw :=
  if h.checking && !h.regBit Reg.lfcStatus 31 then h else h.classA code detail

/-- A core stops issuing: entries of its queues that have not started are discarded, its open Hatches close and their
generations advance (06 R259, 13 R527). -/
def CoreBody.fence (b : CoreBody) : CoreBody :=
  let b := b.openHatches.foldl CoreBody.closeHatch b
  { b with
    run := if b.run = .trapped then .trapped else .idle,
    ctx := setBit b.ctx 31 false
    mx := { b.mx with queue := [], loadPend := none, drainPend := none, loadRun := none, drainRun := none,
                      flights := [], rowsOut := [], landed := [], drainQueue := [] }
    loadQ := [], storeQ := [], dmaQ := [], hputs := [], loading := [], walk := none, cut := none, dead := false, waitInfo := 0, waitThresh := 0, dmaStop := false }

/-- The Hatches that a core still holds open close without waiting: the CLOSE notices of those that were not closing yet
go out (06 R252, R259). -/
def Hw.hatchesEnd (h : Hw) (p : Nat) : Hw :=
  let b := h.body p
  (b.openHatches.filter fun k => !(b.hatch k).closing).foldl (fun h k =>
    h.notify p (b.hatch k).partner (hatchKey b.logical k) (b.hatch k).gen false) h

/-- A core is fenced, and its Hatches are closed. -/
def Hw.fenceCore (h : Hw) (p : Nat) : Hw := (h.hatchesEnd p).stopBody p CoreBody.fence

/-- The same for the Loft Hatches of a context, whose owner is the Caller (06 R259, R260). -/
def Hw.loftHatchesEnd (h : Hw) (ctx : Nat) : Hw :=
  ((List.range 64).filter fun n => (h.loftHatch n).isOpen && (h.loftHatch n).ctx == ctx && !(h.loftHatch n).closing).foldl
    (fun h n => h.notify stopCaller (h.loftHatch n).partner (loftKey n) (h.loftHatch n).gen false) h

/-- The retirement of a partition (13 R532). -/
def Hw.retirePart (h : Hw) (p inWindow : Nat) : Hw :=
  let h := h.log { kind := LogKind.partitionRetired, part := some p, detail := inWindow }
  let h := h.setRegBit Reg.escStatus p true
  let h := (h.forceFld (Reg.partCtrl p) 0 0 0).publishTally
  let h := h.updKeep p fun k => { k with retired := true }
  let dead := h.caller.launches.filter fun l => l.part == p
  let h := h.completeAll (dead.map LaunchJob.item) { status := Status.cancelled }
  let h := h.updCaller fun c => { c with launches := c.launches.filter fun l => l.part != p }
  let h := if h.partSafety p then h.classA 0x07 p else h
  let t := h.elapsed
  let recent := (t :: h.caller.retirements).filter fun x => t < x + 3600 * 10 ^ 9
  let h := h.updCaller fun c => { c with retirements := recent }
  let h := h.setRegFld Reg.escStatus 19 16 (min 4 recent.length)
  if recent.length < 4 || h.regBit Reg.escStatus 31 then h
  else (((h.setRegBit Reg.escStatus 31 true).log { kind := LogKind.outOfService }).classA 0x08 0).service 5

/-- A counted reset is charged to a partition; the fifth within 10 s retires it (13 R531). -/
def Hw.charge (h : Hw) (p : Nat) : Hw :=
  let t := h.elapsed
  let recent := (t :: (h.keep p).resets).filter fun x => t < x + 10 * 10 ^ 9
  let h := h.updKeep p fun k => { k with resets := recent }
  let h := h.setRegFld (Reg.escPart p) 2 0 (min 5 recent.length)
  if recent.length < 5 || (h.keep p).retired then h else h.retirePart p recent.length

/-- Why a context is reset (13 R526). -/
structure ResetCause where
  ctx : Nat
  /-- Status of the causing item. -/
  status : Status
  counted : Bool
  /-- Charged partition. -/
  part : Option Nat
  /-- Logical core and trap code of the cause. -/
  logical : Nat := 0xFF
  code : Nat := 0
  /-- Items that take a status of their own, with their details: the causing item or kernel, and under KILL the paused
  ones. -/
  own : List (Nat × Status × Word) := []
  /-- The fault record that the dump carries (13 R541). -/
  fault : List Byte := []

/-- BYTES_DONE of an engine DMA item. -/
def EngineDma.done (d : EngineDma) : Nat := bytesDone d.acked.length d.acked

/-- What the record of an engine DMA item that ends with a status holds (09 R381). -/
def EngineDma.record (d : EngineDma) (status : Status) : Done :=
  { status, detail := BitVec.ofNat 32 (min (2 ^ 32 - 1) d.done),
    summary := BitVec.ofNat 32 (min 255 d.resumes + 256 * d.channel.getD 0 + 4096 * d.poison.toNat + 8192 * d.dataErr.toNat) }

/-- Length of the run 0, 1, ... that a list of numbers covers. -/
def leadLen (xs : List Nat) : Nat := (List.range (xs.length + 1)).foldl (fun n _ => if xs.contains n then n + 1 else n) 0

/-- BYTES_DONE of a transfer (09 R369). -/
def Hw.doneOf (h : Hw) : Requester → Nat
  | .coreDma p id _ =>
    match (h.body p).dmaQ.find? fun x => x.id == id with
    | some x => bytesDone x.acked.length x.acked - 256 * x.pieces
    | none => 0
  | .engineDma item _ =>
    match h.atu.engineDma.find? fun d => d.item == item with
    | some d => d.done
    | none => 0
  | .gather gu p dma _ _ =>
    match (h.gatherQ gu).find? fun j => j.core == p && j.dma == dma with
    | some j => leadLen j.outDone * j.outBytes
    | none => 0
  | .own id _ =>
    match h.own? id with
    | some j => j.before + j.done
    | none => 0
  | _ => 0

/-- Fix BYTES_DONE of the fault records of a context that still wait, before its transfers go. -/
def Hw.freezeFaults (h : Hw) (c : Nat) : Hw :=
  h.updAtu fun a =>
    { a with faults := a.faults.map fun f =>
        match f.who with
        | some w => if f.ctx = c then { f with bytesDone := h.doneOf w, who := none } else f
        | none => f }

/-- The fence's effect on a front end (13 R527 step 2): the ring is consumed, loops and nested buffers are gone. -/
def Queue.fence (q : Queue) : Queue :=
  { q with
    head := q.tail
    frames := if q.plan.isSome then [] else [{ buf := none, pos := q.tail.toNat, skip := 0, item := none }]
    loops := [], hold := none, holdItem := none, batch := [] }

/-- The registers of a core record of the crash dump (13 R541). -/
def dumpCore (b : CoreBody) : List Byte :=
  let w (v : Nat) := leBytes 4 v
  w b.stateWord ++ w b.pc ++ w b.ctx.toNat ++ w b.pbase ++ w b.pbound ++ w b.ibase ++ w b.ibound ++
  w b.trapCause.toNat ++ w b.trapAddr.toNat ++ w b.waitInfo.toNat ++ w b.waitThresh.toNat ++ w b.flags.toNat ++
  w b.matrixWord ++ w b.arith.toNat ++ leBytes 8 b.retired.toNat ++ leBytes 8 b.tricks.toNat ++
  w (b.cr (fld b.waitInfo 7 3)).toNat

/-- A sample of the dump: the core's first 512 words, and its entry of the header (13 R541). -/
def dumpSample (m : Memory) (b : CoreBody) (phys : Nat) : List Byte × List Byte :=
  let words := min 512 b.pbound
  let a := pantryAddr phys (32 * b.pbase)
  let bytes := m.bytes a (32 * words)
  (bytes, leBytes 1 b.logical ++ leBytes 1 phys ++
    leBytes 1 ((m.anyBad a (32 * words)).toNat + 2 * (decide (b.pbound < 512)).toNat) ++ [0] ++ leBytes 4 b.pbase ++
    leBytes 4 words ++ leBytes 4 0)

/-- Bytes of the dump that are not zero, as a sparse list. -/
def sparse (off : Nat) (bs : List Byte) : Tbl Byte :=
  (bs.zipIdx off).filterMap fun x => if x.1 = 0 then none else some (x.2, x.1)

/-- The partition that a dump shows: the charged one; else the lowest that runs a kernel of the context, else the lowest
whose last context it is, else partition 0. DESIGN CHOICE (log 94): the spec names none for such a cause. -/
def Hw.dumpPart (h : Hw) (c : ResetCause) : Nat :=
  let runs := (List.range 16).find? fun p => ((h.kernel? p).map fun k => k.job.ctx == c.ctx).getD false
  let last := (List.range 16).find? fun p => (h.keep p).lastCtx == some c.ctx
  ((c.part <|> runs) <|> last).getD 0

/-- The dump (13 R541), its CRC over every byte but the CRC field itself. -/
def buildDump (h : Hw) (m : Memory) (seq : Word) (c : ResetCause) : Tbl Byte :=
  let part := h.dumpPart c
  let phys := h.partPhys part
  let ranks := phys.length
  let held := phys.filter fun p => (h.body p).ctxId == c.ctx && (h.body p).pbound != 0
  let first := held.filter fun p => (h.body p).logical == c.logical
  let order := (first ++ held.filter fun p => (h.body p).logical != c.logical).take 3
  let samples := order.map fun p => dumpSample m (h.body p) p
  let pad (n : Nat) (bs : List Byte) : List Byte := bs ++ List.replicate (n - bs.length) 0
  let head := leBytes 4 0x4B444D50 ++ leBytes 2 1 ++ leBytes 2 ranks ++ leBytes 4 seq.toNat ++ leBytes 2 c.status ++
    leBytes 2 (c.ctx % 4096 + 4096 * (h.genOf c.ctx % 16)) ++ leBytes 8 h.now.toNat ++ leBytes 1 part ++
    leBytes 1 samples.length ++ leBytes 6 0 ++ pad 48 (samples.map Prod.snd).flatten ++ pad 64 c.fault ++
    List.replicate 108 0
  let recs := (phys.map fun p => pad 128 (dumpCore (h.body p))).flatten
  let data (crc : Word) : List Byte :=
    pad 0x1000 (head ++ leBytes 4 crc.toNat) ++ pad 0x2000 recs ++
      pad 0xC000 (samples.map fun s => pad 0x4000 s.1).flatten ++ List.replicate 0x1000 0
  let all := data 0
  sparse 0 (data (crc32 (all.take 252 ++ all.drop 256)))

/-- The word range of a partition's cores that a context's kernels used (08 R339, 13 R527). -/
def Hw.clearsOf (h : Hw) (c : Nat) : List (Nat × Nat × Nat) :=
  ((List.range 16).map fun p =>
    if (h.keep p).lastCtx == some c && !(h.keep p).gone then (h.partPhys p).map fun x => (x, (h.keep p).lo, (h.keep p).hi) else []).flatten

/-- Kernels of a context, by partition. -/
def Hw.kernelsOf (h : Hw) (c : Nat) : List Nat :=
  (List.range 16).filter fun p => ((h.kernel? p).map fun k => k.job.ctx == c).getD false

/-- Fence step of a context on the ports, the walks, the engine's own transfers, engine DMA and the Gather Units (09 R399,
13 R527). A mirrored epoch that loses a write so is not committed (11 R474). -/
def Hw.fenceUnits (h : Hw) (c : ResetCause) : Hw :=
  let mirror := h.atu.own.any fun j => !j.sys && j.ctx == c.ctx && j.goal == .mirror
  let h := if mirror then h.updPartner fun p => { p with mirrorIn := p.mirrorIn.map fun r => (r.1, r.2.1, r.2.2.1, true) } else h
  let h := (h.freezeFaults c.ctx).updAtu fun a =>
    { a with
      ports := (List.range 8).foldl (fun t n => Tbl.upd (fun _ => Port.idle) t n fun p =>
        { p with reqs := p.reqs.map fun r => if !r.sys && r.ctx == c.ctx then { r with orphan := true } else r }) a.ports
      walks := a.walks.filter fun w => w.acc.ctx != c.ctx
      own := a.own.filter fun j => j.sys || j.ctx != c.ctx
      engineDma := a.engineDma.filter fun d => ((h.item? d.item).map fun i =>
        ((h.queue? i.queue).map fun q => q.ctx != c.ctx).getD true).getD true }
  h.updLoft fun l =>
    { l with gather := (List.range 4).foldl (fun t n => Tbl.upd (fun _ => []) t n fun js =>
               js.map fun j => if j.ctx == c.ctx then
                 { j with ended := true, status := if j.status = 0 then Status.cancelled else j.status } else j) l.gather
             hatches := (List.range 64).foldl (fun t n => Tbl.upd (fun _ => LoftHatch.closed) t n fun x =>
                 if x.isOpen && x.ctx == c.ctx then x.shut else x) l.hatches }

/-- The saved work of a context that was reset while it was not resident ends (13 R529): its saved items, its packets that
were not fetched, its spills. -/
def Hw.endSaved (h : Hw) (c : Nat) : Hw :=
  if !((h.ctx? c).map Ctx.resetMark).getD false then h
  else
    let h := (h.queuesOf c).foldl Hw.heldItem (h.updCtx c fun x => { x with resetMark := false })
    let h := h.completeAll (((h.ctxItems c).filter fun i => i.state != .done).map Item.id) { status := Status.contextReset }
    let h := (h.queuesOf c).foldl (fun h q => h.updQueue q Queue.fence) h
    h.updCaller fun k => { k with cellar := k.cellar.filter fun i => i.ctx != c }

/-- Carry cycles that the next LAUNCH record of a context on a partition holds (08 R340). -/
def Hw.carried (h : Hw) (part ctx : Nat) : Nat := Tbl.get (fun _ => 0) h.caller.carryCycles (part * 4096 + ctx)

/-- The SUMMARY of a LAUNCH record. -/
def Hw.launchSummary (h : Hw) (part : Nat) (k : Kernel) : Nat :=
  let ar := (h.partPhys part).foldl (fun (f : AFlags) p => f ||| (h.body p).arith) 0
  ar.toNat % 128 + 128 * k.detm.toNat + 256 * ((h.partCores part).length % 128) + 2 ^ 15 * (k.job.kflags.testBit 0).toNat +
    2 ^ 16 * (k.job.kflags.testBit 1).toNat + 2 ^ 17 * k.restored.toNat + 2 ^ 18 * k.loaded.toNat

/-- A record of this status holds no detail, count or summary: SKIPPED, CANCELLED and INVALID (08 Table "Record
contents"). -/
def bareStatus (st : Status) : Bool :=
  st == Status.cancelled || st == Status.skipped || st == Status.invalidPacket || st == Status.invalidZero

/-- What the record of a LAUNCH holds whose kernel ran and ends with a status: `detail` is a trap's, and without one the
carry cycles stand there (08 R335, R340, 02 R99). -/
def Hw.launchDone (h : Hw) (part : Nat) (k : Kernel) (st : Status) (detail : Word) : Done :=
  if bareStatus st then { status := st }
  else
    let phys := h.partPhys part
    let tricks := ((phys.map fun p => (h.body p).tricks).zip k.tricks0).foldl (fun t x => t + (x.1 - x.2).toNat) 0
    { status := st
      detail := if detail = 0 then BitVec.ofNat 32 (min (2 ^ 32 - 1) (h.carried part k.job.ctx)) else detail
      tricks := BitVec.ofNat 32 tricks, summary := BitVec.ofNat 32 (h.launchSummary part k) }

/-- The partition and the kernel that runs for an item, copies apart. -/
def Hw.kernelOf (h : Hw) (i : Nat) : Option (Nat × Kernel) :=
  (List.range 16).findSome? fun p => (h.kernel? p).bind fun k =>
    match k.kind with
    | .copy .. => none
    | _ => if k.phase = 2 ∧ k.job.item = i then some (p, k) else none

/-- Begin a context reset: latch, fence, dump, and the records of what ends (13 R527 to R529). Answers the statuses with
which kernels ended, by partition. The saved work of a context that is not resident stays for `Hw.endSaved`. -/
def Eff.resetCtx (e : Eff) (c : ResetCause) : Eff × List (Nat × Status) :=
  let e := e.settleAll (e.hw.coresOfCtx c.ctx)
  let h := e.hw
  match h.ctx? c.ctx with
  | none => (e, [])
  | some x =>
    let entry (seq : Word) : LogEntry :=
      { kind := LogKind.contextReset, status := c.status, ctx := c.ctx, gen := x.gen, part := c.part,
        detail := c.counted.toNat * 2 ^ 31 + (c.logical % 256) * 256 + c.code % 256, resetSeq := seq.toNat }
    match h.caller.resets.find? fun r => r.ctx == c.ctx with
    | some r =>
      -- A second cause joins the reset in progress (R529).
      ({ e with hw := h.log { entry r.seq with detail := (entry r.seq).detail % 2 ^ 31 } }, [])
    | none =>
      let seq := h.reg Reg.rstSeq + 1
      let h := (h.setReg Reg.rstSeq seq).setRegBit Reg.rstStatus 31 true
      let h := h.log (entry seq)
      -- dump, before the fence empties the queues
      let h :=
        if h.regBit Reg.dumpStatus 31 then h.satRegFld Reg.dumpStatus 15 0 1
        else (h.updCaller fun k => { k with dump := buildDump h e.mem seq c }).setRegBit Reg.dumpStatus 31 true
      let clears := h.clearsOf c.ctx
      let kps := h.kernelsOf c.ctx
      -- records
      let saved := x.slot.isNone
      let queues := if saved then [] else h.queuesOf c.ctx
      let h := queues.foldl Hw.heldItem h
      let open_ := (h.ctxItems c.ctx).filter fun i => i.state != .done && !(saved && i.state == .waiting)
      let doneAs (i : Nat) : Done :=
        let (status, detail) := ((c.own.find? fun o => o.1 == i).map Prod.snd).getD (Status.contextReset, (0 : Word))
        match h.atu.engineDma.find? fun d => d.item == i with
        | some d => d.record status
        | none =>
          match h.kernelOf i with
          | some (p, k) => h.launchDone p k status detail
          | none => { status, detail }
      let ended := kps.filterMap fun p => (h.kernel? p).map fun k => (p, (doneAs k.job.item).status)
      let h := open_.foldl (fun h i => h.complete i.id (doneAs i.id)) h
      -- fence
      let h := (h.loftHatchesEnd c.ctx).fenceUnits c
      let h := (h.coresOfCtx c.ctx).foldl (fun h p => h.fenceCore p) h
      let h := queues.foldl (fun h q => h.updQueue q Queue.fence) h
      let h := kps.foldl (fun h p => h.dropKernel p) h
      let h := ((List.range 16).filter fun p => (h.keep p).lastCtx == some c.ctx).foldl
        (fun h p => h.updKeep p fun k => { k with carries := [] }) h
      let h := h.updCaller fun k =>
        { k with
          launches := k.launches.filter fun l => l.ctx != c.ctx
          cellar := k.cellar.filter fun i => saved || i.ctx != c.ctx
          codes := k.codes.filter fun x => !(x.2.map fun y => y.ctx == c.ctx).getD true
          resets := k.resets ++ [{ seq, ctx := c.ctx, status := c.status, cause := c.code, clears, genDone := false,
                                   ended := false, part := c.part.getD 0 }] }
      let h := h.updCtx c.ctx fun x =>
        { x with pause := [], pauseFirst := none, saving := false, blockedAt := none, idleEpochs := 0, resetMark := saved }
      let h := match c.counted, c.part with
        | true, some p => h.charge p
        | _, _ => h
      ({ e with hw := h }, ended)

end Sys2Proof.Machine
end

