-- ==== Sys2Proof/Machine/Reaction.lean ====
section
/-!
DEFINITION. Reactions: verdict causes, class B, the reset of a context with what follows from it, the end of a kernel by
a trap (12_functional_safety.md R484 to R486, R510, R511; 13_faults_reset_recovery.md R526 to R529; 05_core_program.md
R214).
-/
namespace Sys2Proof.Machine

open Sys2Proof

/-! ### Verdict causes (12 R510, R511) -/

/-! The cause bits of a Verdict Record. -/
namespace VCause
def redeal : Nat := 0
def joker : Nat := 1
def kernelStatus : Nat := 2
def stale : Nat := 3
def missing : Nat := 4
def hatchLink : Nat := 5
def overrun : Nat := 6
def engine : Nat := 7
end VCause

/-- An enabled Redeal pair: the copy partition of a primary partition (12 R496). -/
def Hw.copyOf (h : Hw) (p : Nat) : Option Nat :=
  if h.regBit (Reg.redealPair p) 31 then some (h.regFld (Reg.redealPair p) 3 0) else none

/-- The primary partition of a copy partition. -/
def Hw.primaryOf (h : Hw) (c : Nat) : Option Nat := (List.range 16).find? fun p => h.copyOf p == some c

/-- The other partition of a pair. -/
def Hw.pairMate (h : Hw) (p : Nat) : Option Nat := h.copyOf p <|> h.primaryOf p

/-- A cause enters the verdict of a partition and an epoch that has not been written. -/
def Hw.blame (h : Hw) (part epoch bit : Nat) (fail : Bool) (detail : Nat) : Hw :=
  h.updSafety fun s =>
    { s with verdicts := s.verdicts.map fun v =>
        if v.part = part ∧ v.epoch = epoch then
          { v with causes := v.causes ||| 2 ^ bit, fail := v.fail || fail, detail := v.detail <|> some detail }
        else v }

/-- The partitions that a fault of a partition concerns: itself and the other of its pair. -/
def Hw.pairSet (h : Hw) (p : Nat) : List Nat := p :: (h.pairMate p).toList

/-- A class B or C fault detected now: the current epoch's verdict; for a class B fault of a kernel that completed in the
epoch before, that epoch's too. -/
def Hw.blameNow (h : Hw) (part bit : Nat) (fail : Bool) (detail : Nat) (kernelEpoch : Nat) : Hw :=
  let now := h.epoch
  let set := if fail then h.pairSet part else [part]
  set.foldl (fun h p =>
    let h := h.blame p now bit fail detail
    if fail && kernelEpoch + 1 == now then h.blame p kernelEpoch bit fail detail else h) h

/-! ### Class B (12 R486) -/

/-- RD_STATUS.PENDING follows the primaries that await comparison. -/
def Hw.pendingCount (h : Hw) : Hw :=
  h.setRegFld Reg.rdStatus 7 0 (h.caller.primaries.filter fun x => x.ended).length

/-- A Redeal copy that is stopped: its run ends without a record. -/
def Hw.stopCopy (h : Hw) (part : Nat) : Hw :=
  let h := (h.partPhys part).foldl (fun h p => h.fenceCore p) h
  h.dropKernel part

/-- Queues bound to a partition. -/
def Hw.queuesOn (h : Hw) (part : Nat) : List Nat :=
  (h.caller.queues.filter fun x => (x.2.map fun q => q.part == part).getD false).map Prod.fst

/-- A plan queue's run ends: its buffer is left. -/
def Queue.endRun (q : Queue) : Queue :=
  if q.plan.isSome then { q with frames := [], loops := [], hold := none, holdItem := none, batch := [] } else q

/-- The items of a context that a class B reaction ends with a status of their own: the kernels on G take the cause, and
what is left of plan runs of queues bound to G is cancelled. -/
def Hw.classBItems (h : Hw) (set : List Nat) (ctx : Nat) (status : Status) : List (Nat × Status × Word) :=
  let kernels := set.filterMap fun p => (h.kernel? p).bind fun k =>
    match k.kind with
    | .copy .. => none
    | _ => if k.job.ctx = ctx then some (k.job.item, status, (0 : Word)) else none
  let plans := (set.map h.queuesOn).flatten.filter fun q => ((h.queue? q).map fun x => x.ctx == ctx && x.plan.isSome).getD false
  kernels ++ ((plans.map h.itemsOf).flatten.filter fun (i : Item) => i.state != ItemState.done).map fun i => (i.id, Status.cancelled, (0 : Word))

/-- The class B reaction of one partition of G. `own` is the partition whose kernel's own reset already runs. The reset of
its kernel's context takes the context's work everywhere, since the generation belongs to the whole context (13 R530). -/
def Eff.classBOn (e : Eff) (set : List Nat) (part : Nat) (status : Status) (own : Bool) : Eff :=
  let e := match e.hw.kernel? part with
    | none => e
    | some k =>
      match k.kind with
      | .copy .. => (e.settleAll (e.hw.partPhys part)).up fun h => h.stopCopy part
      | _ => if own then e else
        (e.resetCtx { ctx := k.job.ctx, status, counted := false, part := some part,
                      own := e.hw.classBItems set k.job.ctx status }).1
  e.up fun h =>
    let h := h.updCaller fun c => { c with primaries := c.primaries.filter fun x => x.part != part || x.copy.isSome }
    let h := h.pendingCount
    let h := (h.queuesOn part).foldl (fun h q =>
      let h := match h.queue? q with
        | some x =>
          if x.plan.isSome then
            let items := ((h.itemsOf q).filter fun (i : Item) => i.state != ItemState.done).map Item.id
            let h := h.updAtu fun a => { a with engineDma := a.engineDma.filter fun d => !items.contains d.item }
            let h := h.updCaller fun c => { c with launches := c.launches.filter fun l => !items.contains l.item }
            (h.completeAll items { status := Status.cancelled }).updQueue q Queue.endRun
          else h
        | none => h
      h.setAge q ageNone) h
    h.updKeep part fun k => { k with holdUntil := h.epoch + 1 }

/-- A class B reaction for a partition: the set G, the reaction on each, the verdicts, the log. -/
def Eff.classB (e : Eff) (part : Nat) (status : Status) (bit detail : Nat) (own : Bool) (kernelEpoch : Nat)
    (phys : Option Nat := none) : Eff :=
  let set := e.hw.pairSet part
  let e := e.up fun h => (h.log { kind := LogKind.classB, cls := 1, status, part := some part, phys,
                                  detail := if bit < 2 then detail else 0 }).blameNow part bit true detail kernelEpoch
  set.foldl (fun e p => e.classBOn set p status (own && p == part)) e

/-- Statuses of a kernel of a safety partition that are class B, and class C (12 R484). -/
def statusClassB (s : Status) : Bool :=
  s == Status.ecc || s == Status.poison || s == Status.invalidPacket || s == Status.invalidZero ||
  s == Status.faultTranslation || s == Status.faultPermission || s == Status.faultFirewall || s == Status.hangReset ||
  s == Status.contextReset
def statusClassC (s : Status) : Bool := s == Status.staleHatch || s == Status.undelivered

/-- A kernel of a partition has completed with a status: the class of that status for a safety partition. -/
def Eff.kernelStatus (e : Eff) (part : Nat) (status : Status) : Eff :=
  if !e.hw.partSafety part then e
  else if statusClassB status then e.classB part status VCause.kernelStatus status true e.hw.epoch
  else if statusClassC status then e.up fun h => h.blameNow part VCause.hatchLink false 0 h.epoch
  else e

/-- A kernel that runs on a retired partition ends by a reset of its context that is not counted (13 R532). -/
def Eff.endRetired (e : Eff) : Eff :=
  e.each (List.range 16) fun e p =>
    match e.hw.kernel? p with
    | some k => if (e.hw.keep p).retired then
        (e.resetCtx { ctx := k.job.ctx, status := Status.contextReset, counted := false, part := some p }).1 else e
    | none => e

/-- Reset a context (13 R526 to R529) and react to the statuses of the kernels that it ends. -/
def Eff.reset (e : Eff) (c : ResetCause) : Eff :=
  let (e, ended) := e.resetCtx c
  (ended.foldl (fun e x => e.kernelStatus x.1 x.2) e).endRetired

/-- The status that a trap gives the kernel (05 Table "Trap causes"). -/
def trapStatus (code : Nat) : Status :=
  if code = trapIsBound || code = trapPantryBound || code = trapGate then Status.faultPermission
  else if code = trapIsEcc then Status.ecc
  else Status.contextReset

/-- A Redeal copy that traps or hangs: its run ends, and its comparison is a mismatch (12 R501, 13 R523). -/
def Hw.endCopy (h : Hw) (part id logical : Nat) : Hw :=
  let cores := h.partCores part
  let n := cores.length
  let at_ := cores.idxOf logical % (max n 1)
  (h.stopCopy part).updCaller fun c =>
    { c with primaries := c.primaries.map fun x =>
        if x.id = id then
          let rot := if n = 0 then 0 else x.epoch % n
          { x with copy := some [], copyTrapped := some ((at_ + n - rot) % max n 1),
                   copyPhys := (List.range n).map fun r => h.phys (cores.getD ((r + rot) % n) 0) }
        else x }

/-- The kernel of a partition ends by a reset of its context with a status; `detail` goes into its record. -/
def Eff.killKernel (e : Eff) (part : Nat) (status : Status) (counted : Bool) (logical code : Nat) (detail : Word)
    (fault : List Byte := []) : Eff :=
  match e.hw.kernel? part with
  | none => e
  | some k =>
    match k.kind with
    | .copy id _ => (e.settleAll (e.hw.partPhys part)).up fun h => h.endCopy part id logical
    | _ => e.reset { ctx := k.job.ctx, status, counted, part := some part, logical, code,
                        own := [(k.job.item, status, detail)], fault }

/-- The partition whose kernel runs on a physical core. -/
def Hw.partRunning (h : Hw) (p : Nat) : Option Nat :=
  if (h.body p).loaded then some (h.body p).part else none

/-- A core has trapped (05 R214): its kernel's context is reset with the trap's status and detail. A Redeal copy that
traps is a mismatch instead (12 R501): its run ends without a record. -/
def Eff.trap (e : Eff) (p code : Nat) : Eff :=
  let b := e.hw.body p
  let detail := BitVec.ofNat 32 (fld b.trapCause 29 16 * 2 ^ 16 + b.logical * 2 ^ 8 + code)
  e.killKernel b.part (trapStatus code) true b.logical code detail

/-- An imprecise trap of a core at the bundle `pc` (05 R210, R213): its slot is 1. -/
def Eff.imprecise (e : Eff) (p pc code : Nat) (addr : Word) : Eff :=
  let e := (e.settleWrites p).up fun h => h.stopBody p fun b =>
    { b with run := .trapped, trapCause := trapWord' pc code, trapAddr := addr }
  e.trap p code
where
  trapWord' (pc code : Nat) : Word := BitVec.ofNat 32 (2 ^ 31 + 2 ^ 30 + (pc % 2 ^ 14) * 2 ^ 16 + 1 * 2 ^ 8 + code % 2 ^ 8)

/-- An invalid descriptor or an answer ends the kernel on a core with a status (06 R256, R262 to R264, 09 R376). -/
def Eff.killCore (e : Eff) (p : Nat) (status : Status) : Eff :=
  let b := e.hw.body p
  e.killKernel b.part status true b.logical 0 0

end Sys2Proof.Machine
end

