-- ==== Sys2Proof/Machine/Transcend.lean ====
section
/-!
DEFINITION. The transcendental functions of ARITH_REV 0x01 (02_arithmetic.md R97): the four tables, written from
their definition, and the functions composed from them.
-/
namespace Sys2Proof

/-- Part of expTable. -/
def expTable0 : List Nat :=
  [0x3F800000, 0x3F8058D8, 0x3F80B1ED, 0x3F810B41, 0x3F8164D2, 0x3F81BEA1, 0x3F8218AF, 0x3F8272FC,
   0x3F82CD87, 0x3F832850, 0x3F838359, 0x3F83DEA1, 0x3F843A29, 0x3F8495F0, 0x3F84F1F6, 0x3F854E3D,
   0x3F85AAC3, 0x3F86078A, 0x3F866491, 0x3F86C1D9, 0x3F871F62, 0x3F877D2B, 0x3F87DB35, 0x3F883981,
   0x3F88980F, 0x3F88F6DD, 0x3F8955EE, 0x3F89B541, 0x3F8A14D5, 0x3F8A74AD, 0x3F8AD4C6, 0x3F8B3523,
   0x3F8B95C2, 0x3F8BF6A4, 0x3F8C57CA, 0x3F8CB933, 0x3F8D1ADF, 0x3F8D7CD0, 0x3F8DDF04, 0x3F8E417D,
   0x3F8EA43A, 0x3F8F073B, 0x3F8F6A81]

/-- Part of expTable. -/
def expTable1 : List Nat :=
  [0x3F8FCE0C, 0x3F9031DC, 0x3F9095F2, 0x3F90FA4D, 0x3F915EED, 0x3F91C3D3, 0x3F922900, 0x3F928E72,
   0x3F92F42C, 0x3F935A2B, 0x3F93C072, 0x3F9426FF, 0x3F948DD4, 0x3F94F4F0, 0x3F955C53, 0x3F95C3FF,
   0x3F962BF2, 0x3F96942D, 0x3F96FCB1, 0x3F97657D, 0x3F97CE92, 0x3F9837F0, 0x3F98A197, 0x3F990B88,
   0x3F9975C2, 0x3F99E046, 0x3F9A4B13, 0x3F9AB62B, 0x3F9B218D, 0x3F9B8D3A, 0x3F9BF931, 0x3F9C6573,
   0x3F9CD201, 0x3F9D3EDA, 0x3F9DABFE, 0x3F9E196E, 0x3F9E872A, 0x3F9EF532, 0x3F9F6387, 0x3F9FD228,
   0x3FA04116, 0x3FA0B051, 0x3FA11FD9]

/-- Part of expTable. -/
def expTable2 : List Nat :=
  [0x3FA18FAF, 0x3FA1FFD2, 0x3FA27043, 0x3FA2E102, 0x3FA3520F, 0x3FA3C36B, 0x3FA43516, 0x3FA4A70F,
   0x3FA51958, 0x3FA58BEF, 0x3FA5FED7, 0x3FA6720E, 0x3FA6E595, 0x3FA7596C, 0x3FA7CD94, 0x3FA8420C,
   0x3FA8B6D5, 0x3FA92BEF, 0x3FA9A15B, 0x3FAA1718, 0x3FAA8D26, 0x3FAB0387, 0x3FAB7A3A, 0x3FABF13F,
   0x3FAC6897, 0x3FACE041, 0x3FAD583F, 0x3FADD090, 0x3FAE4934, 0x3FAEC22D, 0x3FAF3B79, 0x3FAFB519,
   0x3FB02F0E, 0x3FB0A957, 0x3FB123F6, 0x3FB19EE9, 0x3FB21A32, 0x3FB295D0, 0x3FB311C4, 0x3FB38E0E,
   0x3FB40AAF, 0x3FB487A6, 0x3FB504F3]

/-- Part of expTable. -/
def expTable3 : List Nat :=
  [0x3FB58298, 0x3FB60094, 0x3FB67EE7, 0x3FB6FD92, 0x3FB77C95, 0x3FB7FBF0, 0x3FB87BA3, 0x3FB8FBAF,
   0x3FB97C14, 0x3FB9FCD2, 0x3FBA7DEA, 0x3FBAFF5B, 0x3FBB8126, 0x3FBC034A, 0x3FBC85CA, 0x3FBD08A4,
   0x3FBD8BD8, 0x3FBE0F68, 0x3FBE9353, 0x3FBF179A, 0x3FBF9C3C, 0x3FC0213B, 0x3FC0A695, 0x3FC12C4D,
   0x3FC1B261, 0x3FC238D2, 0x3FC2BFA1, 0x3FC346CD, 0x3FC3CE57, 0x3FC4563F, 0x3FC4DE85, 0x3FC5672A,
   0x3FC5F02E, 0x3FC67991, 0x3FC70353, 0x3FC78D75, 0x3FC817F7, 0x3FC8A2D8, 0x3FC92E1B, 0x3FC9B9BE,
   0x3FCA45C1, 0x3FCAD226, 0x3FCB5EED]

/-- Part of expTable. -/
def expTable4 : List Nat :=
  [0x3FCBEC15, 0x3FCC799F, 0x3FCD078C, 0x3FCD95DA, 0x3FCE248C, 0x3FCEB3A1, 0x3FCF4319, 0x3FCFD2F4,
   0x3FD06334, 0x3FD0F3D7, 0x3FD184DF, 0x3FD2164C, 0x3FD2A81E, 0x3FD33A54, 0x3FD3CCF1, 0x3FD45FF3,
   0x3FD4F35B, 0x3FD58729, 0x3FD61B5E, 0x3FD6AFFA, 0x3FD744FD, 0x3FD7DA67, 0x3FD87039, 0x3FD90673,
   0x3FD99D16, 0x3FDA3421, 0x3FDACB94, 0x3FDB6371, 0x3FDBFBB8, 0x3FDC9468, 0x3FDD2D82, 0x3FDDC706,
   0x3FDE60F5, 0x3FDEFB4E, 0x3FDF9613, 0x3FE03143, 0x3FE0CCDF, 0x3FE168E7, 0x3FE2055B, 0x3FE2A23C,
   0x3FE33F89, 0x3FE3DD44, 0x3FE47B6D]

/-- Part of expTable. -/
def expTable5 : List Nat :=
  [0x3FE51A03, 0x3FE5B907, 0x3FE65879, 0x3FE6F85B, 0x3FE798AB, 0x3FE8396A, 0x3FE8DA99, 0x3FE97C38,
   0x3FEA1E47, 0x3FEAC0C7, 0x3FEB63B7, 0x3FEC0719, 0x3FECAAEC, 0x3FED4F30, 0x3FEDF3E7, 0x3FEE9910,
   0x3FEF3EAB, 0x3FEFE4BA, 0x3FF08B3B, 0x3FF13231, 0x3FF1D99A, 0x3FF28177, 0x3FF329C9, 0x3FF3D290,
   0x3FF47BCC, 0x3FF5257D, 0x3FF5CFA4, 0x3FF67A41, 0x3FF72555, 0x3FF7D0DF, 0x3FF87CE1, 0x3FF9295A,
   0x3FF9D64A, 0x3FFA83B3, 0x3FFB3194, 0x3FFBDFED, 0x3FFC8EC0, 0x3FFD3E0C, 0x3FFDEDD2, 0x3FFE9E11,
   0x3FFF4ECB, 0x40000000]

/-- T of VEXP2: 2^(i/256), each entry rounded to FP32 under RNE (R97). -/
def expTable : List Nat :=
  expTable0 ++ expTable1 ++ expTable2 ++ expTable3 ++ expTable4 ++ expTable5

/-- Part of logTable. -/
def logTable0 : List Nat :=
  [0x00000000, 0x3BB84E23, 0x3C37F286, 0x3C89B189, 0x3CB73CB4, 0x3CE49B1E, 0x3D08E68F, 0x3D1F6985,
   0x3D35D69C, 0x3D4C2DFE, 0x3D626FD6, 0x3D789C4C, 0x3D8759C5, 0x3D925ADC, 0x3D9D517F, 0x3DA83DC2,
   0x3DB31FB8, 0x3DBDF775, 0x3DC8C50B, 0x3DD3888F, 0x3DDE4212, 0x3DE8F1A7, 0x3DF39761, 0x3DFE3350,
   0x3E0462C4, 0x3E09A70E, 0x3E0EE68D, 0x3E14214A, 0x3E19574F, 0x3E1E88A3, 0x3E23B550, 0x3E28DD5D,
   0x3E2E00D2, 0x3E331FB8, 0x3E383A17, 0x3E3D4FF6, 0x3E42615F, 0x3E476E57, 0x3E4C76E8, 0x3E517B19,
   0x3E567AF1, 0x3E5B7679, 0x3E606DB6]

/-- Part of logTable. -/
def logTable1 : List Nat :=
  [0x3E6560B2, 0x3E6A4F72, 0x3E6F39FF, 0x3E74205F, 0x3E79029A, 0x3E7DE0B6, 0x3E815D5D, 0x3E83C857,
   0x3E86314C, 0x3E88983F, 0x3E8AFD34, 0x3E8D602E, 0x3E8FC130, 0x3E92203D, 0x3E947D5A, 0x3E96D888,
   0x3E9931CB, 0x3E9B8926, 0x3E9DDE9D, 0x3EA03232, 0x3EA283E8, 0x3EA4D3C2, 0x3EA721C4, 0x3EA96DF0,
   0x3EABB849, 0x3EAE00D2, 0x3EB0478E, 0x3EB28C7F, 0x3EB4CFA9, 0x3EB7110E, 0x3EB950B2, 0x3EBB8E96,
   0x3EBDCABD, 0x3EC0052B, 0x3EC23DE2, 0x3EC474E4, 0x3EC6AA34, 0x3EC8DDD4, 0x3ECB0FC8, 0x3ECD4012,
   0x3ECF6EB4, 0x3ED19BB0, 0x3ED3C70A]

/-- Part of logTable. -/
def logTable2 : List Nat :=
  [0x3ED5F0C4, 0x3ED818DF, 0x3EDA3F60, 0x3EDC6447, 0x3EDE8797, 0x3EE0A953, 0x3EE2C97D, 0x3EE4E818,
   0x3EE70525, 0x3EE920A6, 0x3EEB3A9F, 0x3EED5311, 0x3EEF69FF, 0x3EF17F6A, 0x3EF39355, 0x3EF5A5C2,
   0x3EF7B6B4, 0x3EF9C62B, 0x3EFBD42B, 0x3EFDE0B6, 0x3EFFEBCD, 0x3F00FAB9, 0x3F01FED4, 0x3F030239,
   0x3F0404E8, 0x3F0506E2, 0x3F060828, 0x3F0708BC, 0x3F08089E, 0x3F0907CF, 0x3F0A0650, 0x3F0B0422,
   0x3F0C0146, 0x3F0CFDBE, 0x3F0DF989, 0x3F0EF4A9, 0x3F0FEF1F, 0x3F10E8EB, 0x3F11E20F, 0x3F12DA8B,
   0x3F13D260, 0x3F14C990, 0x3F15C01A]

/-- Part of logTable. -/
def logTable3 : List Nat :=
  [0x3F16B601, 0x3F17AB44, 0x3F189FE4, 0x3F1993E3, 0x3F1A8742, 0x3F1B7A00, 0x3F1C6C1F, 0x3F1D5DA0,
   0x3F1E4E83, 0x3F1F3ECA, 0x3F202E74, 0x3F211D84, 0x3F220BF9, 0x3F22F9D5, 0x3F23E718, 0x3F24D3C2,
   0x3F25BFD6, 0x3F26AB53, 0x3F27963A, 0x3F28808C, 0x3F296A4A, 0x3F2A5374, 0x3F2B3C0C, 0x3F2C2411,
   0x3F2D0B85, 0x3F2DF268, 0x3F2ED8BC, 0x3F2FBE80, 0x3F30A3B5, 0x3F31885C, 0x3F326C77, 0x3F335004,
   0x3F343306, 0x3F35157D, 0x3F35F769, 0x3F36D8CB, 0x3F37B9A4, 0x3F3899F5, 0x3F3979BD, 0x3F3A58FF,
   0x3F3B37B9, 0x3F3C15EE, 0x3F3CF39D]

/-- Part of logTable. -/
def logTable4 : List Nat :=
  [0x3F3DD0C8, 0x3F3EAD6E, 0x3F3F8991, 0x3F406531, 0x3F41404F, 0x3F421AEB, 0x3F42F506, 0x3F43CEA0,
   0x3F44A7BA, 0x3F458055, 0x3F465872, 0x3F473010, 0x3F480731, 0x3F48DDD4, 0x3F49B3FB, 0x3F4A89A7,
   0x3F4B5ED7, 0x3F4C338C, 0x3F4D07C7, 0x3F4DDB88, 0x3F4EAED0, 0x3F4F819F, 0x3F5053F7, 0x3F5125D7,
   0x3F51F740, 0x3F52C832, 0x3F5398AF, 0x3F5468B6, 0x3F553848, 0x3F560765, 0x3F56D60F, 0x3F57A446,
   0x3F587209, 0x3F593F5A, 0x3F5A0C3A, 0x3F5AD8A8, 0x3F5BA4A4, 0x3F5C7031, 0x3F5D3B4E, 0x3F5E05FB,
   0x3F5ED039, 0x3F5F9A09, 0x3F60636A]

/-- Part of logTable. -/
def logTable5 : List Nat :=
  [0x3F612C5E, 0x3F61F4E5, 0x3F62BCFF, 0x3F6384AD, 0x3F644BF0, 0x3F6512C7, 0x3F65D933, 0x3F669F35,
   0x3F6764CD, 0x3F6829FB, 0x3F68EEC1, 0x3F69B31E, 0x3F6A7712, 0x3F6B3A9F, 0x3F6BFDC5, 0x3F6CC083,
   0x3F6D82DB, 0x3F6E44CD, 0x3F6F065A, 0x3F6FC781, 0x3F708843, 0x3F7148A1, 0x3F72089B, 0x3F72C832,
   0x3F738765, 0x3F744636, 0x3F7504A4, 0x3F75C2B0, 0x3F76805A, 0x3F773DA4, 0x3F77FA8C, 0x3F78B714,
   0x3F79733C, 0x3F7A2F04, 0x3F7AEA6D, 0x3F7BA578, 0x3F7C6023, 0x3F7D1A71, 0x3F7DD460, 0x3F7E8DF2,
   0x3F7F4728, 0x3F800000]

/-- T of VLOG2: log2(1 + i/256), each entry rounded to FP32 under RNE (R97). -/
def logTable : List Nat :=
  logTable0 ++ logTable1 ++ logTable2 ++ logTable3 ++ logTable4 ++ logTable5

/-- Part of rcpTable. -/
def rcpTable0 : List Nat :=
  [0x3F800000, 0x3F7F00FF, 0x3F7E03F8, 0x3F7D08E5, 0x3F7C0FC1, 0x3F7B1885, 0x3F7A232D, 0x3F792FB2,
   0x3F783E10, 0x3F774E40, 0x3F76603E, 0x3F757404, 0x3F74898D, 0x3F73A0D5, 0x3F72B9D6, 0x3F71D48C,
   0x3F70F0F1, 0x3F700F01, 0x3F6F2EB7, 0x3F6E500F, 0x3F6D7304, 0x3F6C9791, 0x3F6BBDB3, 0x3F6AE564,
   0x3F6A0EA1, 0x3F693965, 0x3F6865AC, 0x3F679373, 0x3F66C2B4, 0x3F65F36D, 0x3F652598, 0x3F645933,
   0x3F638E39, 0x3F62C4A7, 0x3F61FC78, 0x3F6135AA, 0x3F607038, 0x3F5FAC1F, 0x3F5EE95C, 0x3F5E27EB,
   0x3F5D67C9, 0x3F5CA8F1, 0x3F5BEB62]

/-- Part of rcpTable. -/
def rcpTable1 : List Nat :=
  [0x3F5B2F17, 0x3F5A740E, 0x3F59BA42, 0x3F5901B2, 0x3F584A5A, 0x3F579436, 0x3F56DF44, 0x3F562B81,
   0x3F5578E9, 0x3F54C77B, 0x3F541733, 0x3F53680D, 0x3F52BA08, 0x3F520D21, 0x3F516154, 0x3F50B6A0,
   0x3F500D01, 0x3F4F6475, 0x3F4EBCF9, 0x3F4E168A, 0x3F4D7127, 0x3F4CCCCD, 0x3F4C2978, 0x3F4B8728,
   0x3F4AE5D8, 0x3F4A4588, 0x3F49A634, 0x3F4907DA, 0x3F486A79, 0x3F47CE0C, 0x3F473294, 0x3F46980C,
   0x3F45FE74, 0x3F4565C8, 0x3F44CE08, 0x3F443730, 0x3F43A13E, 0x3F430C31, 0x3F427806, 0x3F41E4BC,
   0x3F415250, 0x3F40C0C1, 0x3F40300C]

/-- Part of rcpTable. -/
def rcpTable2 : List Nat :=
  [0x3F3FA030, 0x3F3F112B, 0x3F3E82FA, 0x3F3DF59D, 0x3F3D6910, 0x3F3CDD53, 0x3F3C5264, 0x3F3BC841,
   0x3F3B3EE7, 0x3F3AB656, 0x3F3A2E8C, 0x3F39A786, 0x3F392144, 0x3F389BC3, 0x3F381703, 0x3F379301,
   0x3F370FBB, 0x3F368D31, 0x3F360B61, 0x3F358A48, 0x3F3509E7, 0x3F348A3A, 0x3F340B41, 0x3F338CFA,
   0x3F330F63, 0x3F32927C, 0x3F321643, 0x3F319AB6, 0x3F311FD4, 0x3F30A59B, 0x3F302C0B, 0x3F2FB322,
   0x3F2F3ADE, 0x3F2EC33E, 0x3F2E4C41, 0x3F2DD5E6, 0x3F2D602B, 0x3F2CEB10, 0x3F2C7692, 0x3F2C02B0,
   0x3F2B8F6A, 0x3F2B1CBE, 0x3F2AAAAB]

/-- Part of rcpTable. -/
def rcpTable3 : List Nat :=
  [0x3F2A392F, 0x3F29C84A, 0x3F2957FB, 0x3F28E83F, 0x3F287917, 0x3F280A81, 0x3F279C7B, 0x3F272F05,
   0x3F26C21E, 0x3F2655C4, 0x3F25E9F7, 0x3F257EB5, 0x3F2513FD, 0x3F24A9CF, 0x3F244029, 0x3F23D70A,
   0x3F236E72, 0x3F23065E, 0x3F229ECF, 0x3F2237C3, 0x3F21D13A, 0x3F216B31, 0x3F2105A9, 0x3F20A0A1,
   0x3F203C17, 0x3F1FD80A, 0x3F1F747A, 0x3F1F1166, 0x3F1EAECD, 0x3F1E4CAD, 0x3F1DEB07, 0x3F1D89D9,
   0x3F1D2922, 0x3F1CC8E1, 0x3F1C6917, 0x3F1C09C1, 0x3F1BAADF, 0x3F1B4C70, 0x3F1AEE73, 0x3F1A90E8,
   0x3F1A33CD, 0x3F19D723, 0x3F197AE7]

/-- Part of rcpTable. -/
def rcpTable4 : List Nat :=
  [0x3F191F1A, 0x3F18C3BB, 0x3F1868C8, 0x3F180E41, 0x3F17B426, 0x3F175A75, 0x3F17012E, 0x3F16A850,
   0x3F164FDA, 0x3F15F7CC, 0x3F15A025, 0x3F1548E5, 0x3F14F209, 0x3F149B93, 0x3F144581, 0x3F13EFD2,
   0x3F139A86, 0x3F13459C, 0x3F12F114, 0x3F129CEC, 0x3F124925, 0x3F11F5BD, 0x3F11A2B4, 0x3F115009,
   0x3F10FDBC, 0x3F10ABCC, 0x3F105A38, 0x3F100901, 0x3F0FB824, 0x3F0F67A2, 0x3F0F177A, 0x3F0EC7AB,
   0x3F0E7835, 0x3F0E2918, 0x3F0DDA52, 0x3F0D8BE3, 0x3F0D3DCB, 0x3F0CF009, 0x3F0CA29C, 0x3F0C5584,
   0x3F0C08C1, 0x3F0BBC51, 0x3F0B7034]

/-- Part of rcpTable. -/
def rcpTable5 : List Nat :=
  [0x3F0B246B, 0x3F0AD8F3, 0x3F0A8DCD, 0x3F0A42F8, 0x3F09F874, 0x3F09AE41, 0x3F09645C, 0x3F091AC7,
   0x3F08D181, 0x3F088889, 0x3F083FDE, 0x3F07F781, 0x3F07AF70, 0x3F0767AB, 0x3F072033, 0x3F06D905,
   0x3F069223, 0x3F064B8A, 0x3F06053C, 0x3F05BF37, 0x3F05797C, 0x3F053408, 0x3F04EEDD, 0x3F04A9FA,
   0x3F04655E, 0x3F042108, 0x3F03DCF9, 0x3F039930, 0x3F0355AD, 0x3F03126F, 0x3F02CF75, 0x3F028CC0,
   0x3F024A4E, 0x3F020821, 0x3F01C636, 0x3F01848E, 0x3F014328, 0x3F010204, 0x3F00C122, 0x3F008081,
   0x3F004020, 0x3F000000]

/-- T of VRCP: 1/(1 + i/256), each entry rounded to FP32 under RNE (R97). -/
def rcpTable : List Nat :=
  rcpTable0 ++ rcpTable1 ++ rcpTable2 ++ rcpTable3 ++ rcpTable4 ++ rcpTable5

/-- Part of rsqrtTable. -/
def rsqrtTable0 : List Nat :=
  [0x3F800000, 0x3F7F8060, 0x3F7F017E, 0x3F7E8358, 0x3F7E05EC, 0x3F7D893A, 0x3F7D0D3E, 0x3F7C91F7,
   0x3F7C1764, 0x3F7B9D83, 0x3F7B2452, 0x3F7AABCF, 0x3F7A33F9, 0x3F79BCCF, 0x3F79464E, 0x3F78D075,
   0x3F785B42, 0x3F77E6B5, 0x3F7772CB, 0x3F76FF83, 0x3F768CDC, 0x3F761AD3, 0x3F75A969, 0x3F75389A,
   0x3F74C867, 0x3F7458CD, 0x3F73E9CB, 0x3F737B60, 0x3F730D8A, 0x3F72A048, 0x3F723399, 0x3F71C77C,
   0x3F715BEF, 0x3F70F0F1, 0x3F708681, 0x3F701C9D, 0x3F6FB345, 0x3F6F4A77, 0x3F6EE232, 0x3F6E7A74,
   0x3F6E133E, 0x3F6DAC8D, 0x3F6D4660]

/-- Part of rsqrtTable. -/
def rsqrtTable1 : List Nat :=
  [0x3F6CE0B7, 0x3F6C7B90, 0x3F6C16EA, 0x3F6BB2C5, 0x3F6B4F1E, 0x3F6AEBF5, 0x3F6A8949, 0x3F6A271A,
   0x3F69C565, 0x3F69642A, 0x3F690368, 0x3F68A31D, 0x3F68434A, 0x3F67E3ED, 0x3F678505, 0x3F672691,
   0x3F66C891, 0x3F666B02, 0x3F660DE5, 0x3F65B139, 0x3F6554FC, 0x3F64F92E, 0x3F649DCE, 0x3F6442DB,
   0x3F63E854, 0x3F638E39, 0x3F633488, 0x3F62DB41, 0x3F628263, 0x3F6229ED, 0x3F61D1DE, 0x3F617A36,
   0x3F6122F3, 0x3F60CC16, 0x3F60759C, 0x3F601F87, 0x3F5FC9D4, 0x3F5F7483, 0x3F5F1F93, 0x3F5ECB04,
   0x3F5E76D5, 0x3F5E2305, 0x3F5DCF93]

/-- Part of rsqrtTable. -/
def rsqrtTable2 : List Nat :=
  [0x3F5D7C7F, 0x3F5D29C8, 0x3F5CD76E, 0x3F5C856F, 0x3F5C33CC, 0x3F5BE282, 0x3F5B9193, 0x3F5B40FD,
   0x3F5AF0BF, 0x3F5AA0D9, 0x3F5A514A, 0x3F5A0212, 0x3F59B330, 0x3F5964A3, 0x3F59166B, 0x3F58C887,
   0x3F587AF7, 0x3F582DBA, 0x3F57E0CF, 0x3F579436, 0x3F5747EE, 0x3F56FBF8, 0x3F56B051, 0x3F5664FA,
   0x3F5619F2, 0x3F55CF39, 0x3F5584CD, 0x3F553AB0, 0x3F54F0DF, 0x3F54A75A, 0x3F545E22, 0x3F541535,
   0x3F53CC93, 0x3F53843B, 0x3F533C2E, 0x3F52F469, 0x3F52ACEE, 0x3F5265BB, 0x3F521ED0, 0x3F51D82D,
   0x3F5191D1, 0x3F514BBB, 0x3F5105EC]

/-- Part of rsqrtTable. -/
def rsqrtTable3 : List Nat :=
  [0x3F50C062, 0x3F507B1D, 0x3F50361D, 0x3F4FF162, 0x3F4FACEA, 0x3F4F68B6, 0x3F4F24C5, 0x3F4EE116,
   0x3F4E9DAA, 0x3F4E5A7F, 0x3F4E1796, 0x3F4DD4ED, 0x3F4D9285, 0x3F4D505E, 0x3F4D0E76, 0x3F4CCCCD,
   0x3F4C8B63, 0x3F4C4A38, 0x3F4C094B, 0x3F4BC89B, 0x3F4B8829, 0x3F4B47F4, 0x3F4B07FC, 0x3F4AC83F,
   0x3F4A88BF, 0x3F4A497A, 0x3F4A0A71, 0x3F49CBA2, 0x3F498D0D, 0x3F494EB3, 0x3F491092, 0x3F48D2AB,
   0x3F4894FD, 0x3F485787, 0x3F481A4A, 0x3F47DD45, 0x3F47A078, 0x3F4763E2, 0x3F472783, 0x3F46EB5A,
   0x3F46AF68, 0x3F4673AC, 0x3F463826]

/-- Part of rsqrtTable. -/
def rsqrtTable4 : List Nat :=
  [0x3F45FCD6, 0x3F45C1BA, 0x3F4586D3, 0x3F454C21, 0x3F4511A3, 0x3F44D759, 0x3F449D42, 0x3F44635F,
   0x3F4429AF, 0x3F43F031, 0x3F43B6E6, 0x3F437DCD, 0x3F4344E6, 0x3F430C31, 0x3F42D3AD, 0x3F429B59,
   0x3F426337, 0x3F422B45, 0x3F41F383, 0x3F41BBF1, 0x3F41848F, 0x3F414D5C, 0x3F411659, 0x3F40DF84,
   0x3F40A8DE, 0x3F407266, 0x3F403C1C, 0x3F400600, 0x3F3FD012, 0x3F3F9A51, 0x3F3F64BD, 0x3F3F2F56,
   0x3F3EFA1C, 0x3F3EC50E, 0x3F3E902C, 0x3F3E5B76, 0x3F3E26EB, 0x3F3DF28C, 0x3F3DBE58, 0x3F3D8A4F,
   0x3F3D5671, 0x3F3D22BE, 0x3F3CEF34]

/-- Part of rsqrtTable. -/
def rsqrtTable5 : List Nat :=
  [0x3F3CBBD5, 0x3F3C889F, 0x3F3C5593, 0x3F3C22B1, 0x3F3BEFF7, 0x3F3BBD67, 0x3F3B8AFF, 0x3F3B58C0,
   0x3F3B26A9, 0x3F3AF4BA, 0x3F3AC2F3, 0x3F3A9154, 0x3F3A5FDC, 0x3F3A2E8C, 0x3F39FD62, 0x3F39CC60,
   0x3F399B84, 0x3F396ACE, 0x3F393A3F, 0x3F3909D6, 0x3F38D993, 0x3F38A975, 0x3F38797D, 0x3F3849AA,
   0x3F3819FD, 0x3F37EA74, 0x3F37BB10, 0x3F378BD0, 0x3F375CB5, 0x3F372DBF, 0x3F36FEEC, 0x3F36D03D,
   0x3F36A1B1, 0x3F36734A, 0x3F364505, 0x3F3616E4, 0x3F35E8E5, 0x3F35BB09, 0x3F358D50, 0x3F355FBA,
   0x3F353245, 0x3F3504F3]

/-- T of VRSQRT: 1/sqrt(1 + i/256), each entry rounded to FP32 under RNE (R97). -/
def rsqrtTable : List Nat :=
  rsqrtTable0 ++ rsqrtTable1 ++ rsqrtTable2 ++ rsqrtTable3 ++ rsqrtTable4 ++ rsqrtTable5

/-- y = RNE(T[i] + r * RNE(T[i+1] - T[i])) for 256 f = i + r, f = num / 2^k in [0, 1) (R97). -/
def interp (table : List Nat) (num k : Nat) : Fp :=
  let i := (num * 256) >>> k
  let t0 := fp32 (BitVec.ofNat 32 (table.getD i 0))
  let t1 := fp32 (BitVec.ofNat 32 (table.getD (i + 1) 0))
  let d := fp32 (toF32 (fpAdd t1 (fpNeg t0))).1
  let r := Fp.fin false ((num * 256) % 2 ^ k) (-(k : Int))
  fp32 (toF32 (fpFma r d t0)).1

/-- A positive value split as g * 2^n with g in [1, 2): the fraction g - 1 as num / 2^k, and n (R97). -/
def splitG (m : Nat) (e : Int) : Nat × Nat × Int :=
  let k := Nat.log2 m
  (m - 2 ^ k, k, (k : Int) + e)

/-- A value times 2^n. -/
def fpScale (n : Int) : Fp → Fp
  | .fin neg m e => .fin neg m (e + n)
  | v => v

/-- VEXP2 on a value: bits and flags (R97). -/
def vexp2 (v : Fp) : Lane :=
  match v with
  | .nan => (nan32, 0)
  | .inf true => (0, 0)
  | .inf false => toF32 (.inf false)
  | .fin neg m e =>
    let z := sm neg m
    let n : Int := if 0 ≤ e then z * (2 ^ e.toNat : Nat) else Int.fdiv z ((2 ^ (-e).toNat : Nat) : Int)
    let (num, k) := if 0 ≤ e then (0, 0) else ((z - n * ((2 ^ (-e).toNat : Nat) : Int)).toNat, (-e).toNat)
    if 127 < n then (0x7F800000, AFlags.vecOvf)
    else if n < -200 then (0, 0)
    else toF32 (fpScale n (interp expTable num k))

/-- VLOG2 on a value (R97). -/
def vlog2 (v : Fp) : Lane :=
  match v with
  | .nan => (nan32, 0)
  | .inf false => toF32 (.inf false)
  | .inf true => (nan32, AFlags.vecInvalid)
  | .fin neg m e =>
    if m = 0 then toF32 (.inf true)
    else if neg then (nan32, AFlags.vecInvalid)
    else
      let (num, k, n) := splitG m e
      toF32 (fpAdd (fpOfInt n 0) (interp logTable num k))

/-- VRCP on a value (R97). -/
def vrcp (v : Fp) : Lane :=
  match v with
  | .nan => (nan32, 0)
  | .inf neg => toF32 (.fin neg 0 0)
  | .fin neg m e =>
    if m = 0 then toF32 (.inf neg)
    else
      let (num, k, n) := splitG m e
      let y := fpScale (-n) (interp rcpTable num k)
      toF32 (if neg then fpNeg y else y)

/-- VRSQRT on a value (R97). -/
def vrsqrt (v : Fp) : Lane :=
  match v with
  | .nan => (nan32, 0)
  | .inf false => (0, 0)
  | .inf true => (nan32, AFlags.vecInvalid)
  | .fin neg m e =>
    if m = 0 then toF32 (.inf neg)
    else if neg then (nan32, AFlags.vecInvalid)
    else
      let (num, k, n) := splitG m e
      let y := interp rsqrtTable num k
      if n % 2 = 0 then toF32 (fpScale (-(n / 2)) y)
      else
        let y' := fp32 (toF32 (fpMul y (fp32 0x3F3504F3))).1
        toF32 (fpScale (-((n - 1) / 2)) y')

/-- Join the flags of an earlier stage. -/
def Lane.also (x : Lane) (f : AFlags) : Lane := (x.1, x.2 ||| f)

/-- VEXP: VEXP2(RNE(x * 0x3FB8_AA3B)) (R97). -/
def vexp (v : Fp) : Lane :=
  let t := toF32 (fpMul v (fp32 0x3FB8AA3B))
  (vexp2 (fp32 t.1)).also t.2

/-- VSIGM: VRCP(RNE(1 + VEXP(-x))) (R97). -/
def vsigm (v : Fp) : Lane :=
  let t := vexp (fpNeg v)
  let u := toF32 (fpAdd (fp32 0x3F800000) (fp32 t.1))
  (vrcp (fp32 u.1)).also (t.2 ||| u.2)

/-- VTANH: RNE(2 * VSIGM(RNE(2x)) - 1), one fused multiply-add (R97). -/
def vtanh (v : Fp) : Lane :=
  let t := toF32 (fpMul (fp32 0x40000000) v)
  let g := vsigm (fp32 t.1)
  (toF32 (fpFma (fp32 0x40000000) (fp32 g.1) (fp32 0xBF800000))).also (t.2 ||| g.2)

end Sys2Proof
end

