-- ==== Sys2Proof/Machine/Flags.lean ====
section
/-!
DEFINITION. Lane operations and every flag computation of the vector unit (02_arithmetic.md R85 to R99;
05_core_program.md R201 to R208).
-/
namespace Sys2Proof.Machine

open Sys2Proof

/-- The element types of a slot 3 syllable, mod[5:4] (R201). -/
inductive LaneTy where
  | f32
  | b16
  | wrap
  | sat
deriving DecidableEq, Repr

def laneTy (n : Nat) : LaneTy :=
  match n with
  | 0 => .f32
  | 1 => .b16
  | 2 => .wrap
  | _ => .sat

/-- The value of a lane in a floating type. -/
def LaneTy.dec (t : LaneTy) (w : Word) : Fp :=
  match t with
  | .b16 => bf16 w.toNat
  | _ => fp32 w

/-- A value rounded into a floating type. -/
def LaneTy.enc (t : LaneTy) (v : Fp) : Lane :=
  match t with
  | .b16 => toB16 v
  | _ => toF32 v

/-- A floating result with its flags: VEC_INVALID for a NaN from no NaN, VEC_OVF on overflow (R93). -/
def LaneTy.result (t : LaneTy) (inputs : List Fp) (v : Fp) : Lane :=
  let (w, f) := t.enc v
  (w, f ||| invalidFlag inputs v)

/-- An exact integer result in an INT32 type (R94). -/
def intResult (t : LaneTy) (z : Int) : Lane :=
  match t with
  | .sat => (BitVec.ofInt 32 (clampInt (-(2 ^ 31 : Int)) (2 ^ 31 - 1) z), 0)
  | _ => (BitVec.ofInt 32 z, 0)

def LaneTy.isInt : LaneTy → Bool
  | .wrap => true
  | .sat => true
  | _ => false

/-- A two-operand lane operation from its floating and its integer meaning. -/
def lane2 (fop : Fp → Fp → Fp) (iop : Int → Int → Int) (t : LaneTy) (x y : Word) : Lane :=
  if t.isInt then intResult t (iop x.toInt y.toInt)
  else t.result [t.dec x, t.dec y] (fop (t.dec x) (t.dec y))

def laneAdd := lane2 fpAdd (· + ·)
def laneSub := lane2 (fun x y => fpAdd x (fpNeg y)) (· - ·)
def laneMul := lane2 fpMul (· * ·)
def laneMax := lane2 fpMax (fun x y => if x ≤ y then y else x)
def laneMin := lane2 fpMin (fun x y => if x ≤ y then x else y)

/-- VFMA: x * y + z rounded once (R93, R94). -/
def laneFma (t : LaneTy) (x y z : Word) : Lane :=
  if t.isInt then intResult t (x.toInt * y.toInt + z.toInt)
  else t.result [t.dec x, t.dec y, t.dec z] (fpFma (t.dec x) (t.dec y) (t.dec z))

/-- VABS. -/
def laneAbs (t : LaneTy) (x : Word) : Lane :=
  if t.isInt then intResult t x.toInt.natAbs
  else
    let v := t.dec x
    t.enc (if v.isNeg then fpNeg v else v)

/-- VNEG. -/
def laneNeg (t : LaneTy) (x : Word) : Lane :=
  if t.isInt then intResult t (-x.toInt) else t.enc (fpNeg (t.dec x))

/-- VCMP conditions EQ, NE, LT, LE, GT, GE; NaN compares false except under NE (R201). -/
def laneCmp (t : LaneTy) (cond : Nat) (x y : Word) : Option Bool :=
  let lt := if t.isInt then decide (x.toInt < y.toInt) else fpLt (t.dec x) (t.dec y)
  let gt := if t.isInt then decide (y.toInt < x.toInt) else fpLt (t.dec y) (t.dec x)
  let eq := if t.isInt then x == y else fpEq (t.dec x) (t.dec y)
  match cond with
  | 0 => some eq
  | 1 => some (!eq)
  | 2 => some lt
  | 3 => some (lt || eq)
  | 4 => some gt
  | 5 => some (gt || eq)
  | _ => none

/-- The types of VCVT: FP32, BF16, FP16, INT32 (R201). -/
def cvtDec (ty : Nat) (w : Word) : Fp :=
  match ty with
  | 0 => fp32 w
  | 1 => bf16 w.toNat
  | 2 => fp16 w.toNat
  | _ => fpOfInt w.toInt 0

/-- VCVT of one lane (R93). -/
def laneCvt (src dst : Nat) (w : Word) : Lane :=
  let v := cvtDec src w
  match dst with
  | 0 => toF32 v
  | 1 => toB16 v
  | 2 =>
    let (b, o) := fpEncode 5 10 v
    (BitVec.ofNat 32 b, flagIf o AFlags.vecOvf)
  | _ =>
    let (z, f) := floatToInt .rne v 15
    (BitVec.ofInt 32 z, f)

/-- The lanes of a register as a list of 64. -/
def Vec.list (x : Vec) : List Word := (List.range 64).map x.lane

/-- VRED (R94 to R96, R201, R208). -/
def vredSum (t : LaneTy) (detm : Bool) (x : Vec) : Lane :=
  match t with
  | .wrap => intResult .wrap (x.list.map BitVec.toInt).sum
  | .sat => intResult .sat (x.list.map BitVec.toInt).sum
  | .b16 => treeSum toB16 (LaneTy.dec .b16) 6 x.list
  | .f32 =>
    if detm then
      let vs := x.list.map fp32
      LaneTy.result .f32 vs (exactSum vs)
    else treeSum toF32 fp32 6 x.list

def vredFold (f : LaneTy → Word → Word → Lane) (t : LaneTy) (x : Vec) : Lane :=
  let first : Word := if t = .b16 then (t.enc (t.dec (x.lane 0))).1 else if t = .f32 then (toF32 (fp32 (x.lane 0))).1 else x.lane 0
  (x.list.drop 1).foldl (fun (acc : Lane) w =>
    let (r, g) := f t acc.1 w
    (r, acc.2 ||| g)) (first, 0)

def vred (t : LaneTy) (op : Nat) (detm : Bool) (x : Vec) : Option Lane :=
  match op with
  | 0 => some (vredSum t detm x)
  | 1 => some (vredFold laneMax t x)
  | 2 => some (vredFold laneMin t x)
  | _ => none

/-- The vector of a lane function and the flags of the lanes that `on` names (R202). -/
def lanes (on : BitVec 64) (f : Nat → Lane) : Vec × AFlags :=
  let rs := (List.range 64).map f
  (Vec.tab fun i => (rs.getD i (0, 0)).1,
   (List.range 64).foldl (fun acc i => if on.getLsbD i then acc ||| (rs.getD i (0, 0)).2 else acc) 0)

/-- The new register under a predicate: lanes off keep the old value (R202). -/
def blend (on : BitVec 64) (new old : Vec) : Vec :=
  Vec.tab fun i => if on.getLsbD i then new.lane i else old.lane i

/-! ### Containers (R79, R207) -/

/-- Container c of a register, in lanes 4c to 4c + 3. -/
def Vec.container (x : Vec) (c : Nat) : Acc :=
  ofContainer ((List.range 4).foldl (fun acc k => acc ||| ((x.lane (4 * c + k)).zeroExtend 128 <<< (32 * k))) (0 : BitVec 128))

/-- The four lanes of a container. -/
def containerLanes (c : Acc) : List Word := (List.range 4).map fun i => BitVec.ofNat 32 ((container c).toNat >>> (32 * i))

end Sys2Proof.Machine
end

