-- ==== Sys2Proof/Machine/Matrix.lean ====
section
/-!
DEFINITION. The matrix unit: sequencer, Deck loader, arrays and drainer, cycle by cycle (03_matrix_unit.md R100 to
R128). One MATRIX_STEP_START is one issued cycle of the unit.
-/
namespace Sys2Proof.Machine

open Sys2Proof

/-! ### Operand classes -/

/-- Whether two formats form an operand pair of Table "Operand pairs" (R67, R200). -/
def pairOk (afmt wfmt : Nat) : Bool :=
  let a := fmtClass afmt
  let w := fmtClass wfmt
  (a == 2 && w == 2) || (decide (a ≤ 1) && decide (w ≤ 1))

/-- The 4-bit by 4-bit class (R102). -/
def isFourFour (afmt wfmt : Nat) : Bool := fmtClass afmt == 1 && fmtClass wfmt == 1

/-- The 16-bit class. -/
def isSixteen (afmt wfmt : Nat) : Bool := fmtClass afmt == 2 && fmtClass wfmt == 2

/-- Write latency L_w (Table "Step by operand class"). -/
def writeLatency (afmt wfmt : Nat) : Nat := if isSixteen afmt wfmt then 5 else 3

/-! ### Decks -/

/-- Key of byte i of row j of array a, and of the scale byte of block g, array a, column c (R104, R111). -/
def deckKey (j a i : Nat) : Nat := (4 * j + a) * 64 + i
def scaleKey (g a c : Nat) : Nat := (4 * g + a) * 32 + c

def Deck.byte (d : Deck) (j a i : Nat) : Byte × Bool := Tbl.get (fun _ => (0, false)) d.rows (deckKey j a i)
def Deck.scale (d : Deck) (g a c : Nat) : Byte × Bool := Tbl.get (fun _ => (0, false)) d.scales (scaleKey g a c)

/-- Blocks of scale bytes of an image (R111). -/
def imageBlocks (rows perRow : Nat) : Nat := ceilDiv (rows * perRow) 32

/-- Bytes of a Deck image (R111). -/
def imageBytes (rows width : Nat) (mx : Bool) (perRow : Nat) : Nat :=
  4 * rows * width + (if mx then 128 * imageBlocks rows perRow else 0)

/-- Reduction indices per Deck row under a weight format (R111). -/
def reductionPerRow (wfmt width : Nat) : Nat := if fmtClass wfmt = 1 && width == 32 then 2 else 1

/-- The Deck with an image's rows and scale bytes; the rest keeps its content (R111, R114). -/
def Deck.load (d : Deck) (rows width : Nat) (mx : Bool) (perRow : Nat) (image : List (Byte × Bool)) : Deck :=
  let put (t : Tbl (Byte × Bool)) (k i : Nat) := Tbl.put (fun _ => (0, false)) t k (image.getD i (0, false))
  { rows := (List.range (4 * rows * width)).foldl
      (fun t i => put t (deckKey (i / width / 4) (i / width % 4) (i % width)) i) d.rows
    scales := if mx then
        (List.range (128 * imageBlocks rows perRow)).foldl
          (fun t i => put t i (4 * rows * width + i)) d.scales
      else d.scales }

/-- Weights of column c of array a in Deck row j under a format: raw encodings, scale bytes, poison (R102 to R104,
R114). -/
def Deck.weights (d : Deck) (wfmt : Nat) (ff : Bool) (j a c : Nat) : List (Nat × Nat × Bool) :=
  let g := (if ff then 2 * j else j) / 32
  let s := d.scale g a c
  let sc (raw : Nat) (bad : Bool) : Nat × Nat × Bool :=
    if fmtIsMx wfmt then (raw, s.1.toNat, bad || s.2) else (raw, 127, bad)
  if ff then
    let x := d.byte j a c
    [sc (x.1.toNat % 16) x.2, sc (x.1.toNat / 16) x.2]
  else match fmtBits wfmt with
    | 4 =>
      let x := d.byte j a (c / 2)
      [sc (nbits x.1.toNat (4 * (c % 2) + 3) (4 * (c % 2))) x.2]
    | 6 =>
      let x := d.byte j a (6 * c / 8)
      let y := d.byte j a (6 * c / 8 + 1)
      [sc (nbits (leNat [x.1, y.1]) (6 * c % 8 + 5) (6 * c % 8)) (x.2 || y.2)]
    | 16 =>
      let x := d.byte j a (2 * c)
      let y := d.byte j a (2 * c + 1)
      [sc (leNat [x.1, y.1]) (x.2 || y.2)]
    | _ =>
      let x := d.byte j a c
      [sc x.1.toNat x.2]

/-- The active and the shadow Deck (R113). -/
def MatrixUnit.activeDeck (m : MatrixUnit) : Deck := if m.activeD1 then m.deck1 else m.deck0
def MatrixUnit.shadowDeck (m : MatrixUnit) : Deck := if m.activeD1 then m.deck0 else m.deck1
def MatrixUnit.setShadow (m : MatrixUnit) (d : Deck) : MatrixUnit :=
  if m.activeD1 then { m with deck0 := d } else { m with deck1 := d }

/-! ### Cells -/

/-- Key of cell (r, c) of array a in a bank (R71). -/
def cellKey (bank : Bool) (a r c : Nat) : Nat := bank.toNat * 8192 + (a * 64 + r) * 32 + c

def MatrixUnit.cell (m : MatrixUnit) (bank : Bool) (a r c : Nat) : Acc :=
  Tbl.get (fun _ => Acc.zero) m.acc (cellKey bank a r c)

/-- E_acc latched for a bank (R71). -/
def MatrixUnit.latch (m : MatrixUnit) (bank : Bool) : BitVec 8 := if bank then m.latch1 else m.latch0

/-- The accumulators with one bank's 8,192 cells replaced (R100). -/
def setBank (acc : Tbl Acc) (bank : Bool) (f : Nat → Acc) : Tbl Acc :=
  let base := bank.toNat * 8192
  let new := (List.range 8192).filterMap fun i =>
    let v := f i
    if v = Acc.zero then none else some (base + i, v)
  (acc.filter fun e => decide (e.1 < base)) ++ new ++ (acc.filter fun e => decide (base + 8192 ≤ e.1))

/-- One cell after a step: cleared first if flagged, then each product rounded alone and added; and whether a product
lay outside the window (R73, R74, R100, R102, R110). In negate mode each weight is negated first (12 R498). -/
def cellStep (neg : Bool) (f : StepFlight) (old : Acc) (r n : Nat) (eacc : Int) : Acc × Bool :=
  let start := if f.clear then Acc.zero else old
  let xs := f.col.getD r []
  let ws := f.wts.getD n []
  (xs.zip ws).foldl (fun (st : Acc × Bool) xw =>
    let w := decodeElem f.wfmt xw.2.1
    let w' := { w with m := if neg then -w.m else w.m, special := w.special || xw.2.2.2 }
    let (c, o) := mac st.1 xw.1.1 w' xw.1.2 xw.2.2.1 eacc
    (c, st.2 || o)) (start, false)

/-! ### Sequencer -/

/-- SETEACC and SETFMT take effect at the head, and entries with nothing to do leave it; the third pass of R106 (`post`)
stops at the first MMA (R106, R108, R199). -/
def settleQueue (post : Bool) (eacc : BitVec 8) (wfmt : BitVec 4) : List MxOp → BitVec 8 × BitVec 4 × List MxOp
  | .setEacc v :: q => settleQueue post v wfmt q
  | .setFmt v :: q => settleQueue post eacc v q
  | .dload _ 0 _ _ :: q => settleQueue post eacc wfmt q
  | .mma bank clear j0 n started :: q =>
    if n ≤ started && !post then settleQueue post eacc wfmt q else (eacc, wfmt, .mma bank clear j0 n started :: q)
  | .drain bank form neg mask toP base :: q =>
    if mask % 16 = 0 then settleQueue post eacc wfmt q else (eacc, wfmt, .drain bank form neg mask toP base :: q)
  | q => (eacc, wfmt, q)

/-- The head of the Matrix Queue in the first pass of a cycle, or in the third once the arrays have started the last
step of an MMA (R106). -/
def MatrixUnit.settle (m : MatrixUnit) : MatrixUnit :=
  let (e, w, q) := settleQueue m.cycled m.eacc m.wfmt m.queue
  { m with eacc := e, wfmt := w, queue := q }

/-- Arrays selected by a mask, ascending (R115). -/
def maskArrays (mask : Nat) : List Nat := (List.range 4).filter fun a => mask.testBit a

/-- The DLOAD or DRAIN at the head goes to its unit when that has no pending operation (R106, R107, R111): in the
first pass of a cycle, or in the third. -/
def MatrixUnit.handover (m : MatrixUnit) : Option MatrixUnit :=
  let m := m.settle
  if m.cycled && !m.pass3 then none
  else match m.queue with
    | .dload base rows width mx :: q =>
      if m.loadPend.isSome then none
      else
        let j : DloadJob :=
          { base, rows, width, mx, perRow := reductionPerRow m.wfmt.toNat width, fresh := true, image := [], cyc := 0 }
        some { m with queue := q, loadPend := some j }.settle
    | .drain bank form neg mask toP base :: q =>
      if m.drainPend.isSome then none
      else
        let d : DrainJob := { bank, form, neg, mask, toPantry := toP, base, next := 0, second := false, fresh := true }
        some { m with queue := q, drainPend := some d }.settle
    | _ => none

/-- The SWAP at the head executes in the first pass of a cycle, once the DLOAD before it has completed in an earlier
one (R106, R112, R113). -/
def MatrixUnit.swap (m : MatrixUnit) : Option MatrixUnit :=
  let m := m.settle
  match m.queue with
  | .swap :: q =>
    if m.cycled || m.loadRun.isSome || m.loadPend.isSome || m.loaded then none
    else some ({ m with queue := q, activeD1 := !m.activeD1, shadowOk := false }).settle
  | _ => none

/-- The first MMA with a step left, and the entries ahead of it (R122). -/
def headStep : List MxOp → Option (List MxOp × MxOp)
  | [] => none
  | .mma bank clear j0 n started :: q =>
    if started < n then some ([], .mma bank clear j0 n started)
    else (headStep q).map fun x => (.mma bank clear j0 n started :: x.1, x.2)
  | e :: q => (headStep q).map fun x => (e :: x.1, x.2)

/-! ### Drainer -/

/-- Reads a drain has left (R120): rows not yet read. Of a P72 drain, whose rows take two drain cycles each, the rule
does not say whether rows or drain cycles count; the model counts rows (DESIGN CHOICE, log entry 99), so that up to two
of its reads may follow the write of a step that R120 has let start. -/
def DrainJob.left (d : DrainJob) : Nat := 64 * (maskArrays d.mask).length - d.next

/-- Drain Queue entries that a row needs (R117). -/
def DrainJob.entries (d : DrainJob) : Nat := if d.form = 2 then 2 else 1

/-- Entries in flight to the Drain Queue (R118). -/
def MatrixUnit.toQueue (m : MatrixUnit) : Nat := (m.rowsOut.filter fun r => r.dest.isNone).length + m.landed.length

/-- The drain at work, the pending one moving up when none runs (R107). -/
def MatrixUnit.drainNow (m : MatrixUnit) : Option DrainJob :=
  match m.drainRun with
  | some d => some d
  | none => m.drainPend

/-- What the drainer can do in this cycle. -/
inductive DrainCan where
  | idle
  /-- R119 forbids the first read, or the drainer has done its part of this cycle. -/
  | blocked
  /-- R118 forbids the read. -/
  | backup
  | reads
deriving DecidableEq, Repr

def MatrixUnit.drainCan (m : MatrixUnit) : DrainCan :=
  match m.drainNow with
  | none => .idle
  | some d =>
    if m.drained || m.cycled || d.fresh then .blocked
    else if d.second then .reads
    else if d.next = 0 && (m.wrote == some d.bank || m.flights.any fun f => f.bank == d.bank) then .blocked
    else if !d.toPantry && decide (4 < m.drainQueue.length + m.toQueue + d.entries) then .backup
    else .reads

/-- The 32 cells of a drained row, negated if asked (R78, R115). -/
def MatrixUnit.rowCells (m : MatrixUnit) (d : DrainJob) : List Acc :=
  let a := (maskArrays d.mask).getD (d.next / 64) 0
  (List.range 32).map fun c => (m.cell d.bank a (d.next % 64) c).neg (d.neg != m.negate)

/-- A list of words in the first lanes of a vector. -/
def Vec.ofList (ws : List Word) : Vec := Vec.tab fun i => ws.getD i 0

/-- The words of 64-bit or 128-bit values, low word first. -/
def wordsOf (n : Nat) (v : Nat) : List Word := (List.range n).map fun i => BitVec.ofNat 32 (v >>> (32 * i))

/-- The lanes of a row in its form, and the flags of its conversion (R77, R116, R117). -/
def rowLanes (form : Nat) (eacc : Int) (cells : List Acc) : List Vec × AFlags :=
  match form with
  | 0 =>
    let xs := cells.map drainI64
    ([Vec.ofList (xs.map fun x => wordsOf 2 x.1.toNat).flatten], xs.foldl (fun f x => f ||| x.2) 0)
  | 1 =>
    let xs := cells.map fun c => drainF32 c eacc
    ([Vec.ofList (xs.map Prod.fst)], xs.foldl (fun f x => f ||| x.2) 0)
  | _ =>
    let xs := cells.map fun c => wordsOf 4 (container c).toNat
    ([Vec.ofList (xs.take 16).flatten, Vec.ofList (xs.drop 16).flatten], 0)

/-- Bytes of a drained row in the Pantry (R116). -/
def rowBytes (form : Nat) : Nat :=
  match form with
  | 0 => 256
  | 1 => 128
  | _ => 512

/-- The drainer's read of one row, or the second drain cycle of a P72 row (R115, R118, R119): the unit and the flags. -/
def MatrixUnit.readRow (m : MatrixUnit) (pbase : Nat) : Option (MatrixUnit × AFlags) :=
  if m.drainCan ≠ .reads then none
  else match m.drainNow with
    | none => none
    | some d =>
      let m := if m.drainRun.isNone then { m with drainPend := none } else m
      let total := 64 * (maskArrays d.mask).length
      if d.second then
        let d' := { d with second := false }
        some ({ m with drained := true, drainRun := if total ≤ d.next then none else some d' }, 0)
      else
        let (vs, fl) := rowLanes d.form (m.latch d.bank).toInt (m.rowCells d)
        let dest (h : Nat) : Option Nat :=
          if d.toPantry then some (32 * pbase + d.base + d.next * rowBytes d.form + 256 * h) else none
        let rows := (List.range vs.length).map fun h =>
          ({ lanes := vs.getD h Vec.zero, dest := dest h, bytes := min 256 (rowBytes d.form), left := 2 + h } : DrainRow)
        let d' := { d with next := d.next + 1, second := d.form == 2 }
        some ({ m with drained := true, rowsOut := m.rowsOut ++ rows,
                       drainRun := if total ≤ d'.next && !d'.second then none else some d' }, fl)

/-! ### One issued cycle of the unit -/

/-- Whether the ramp forbids a start in this cycle for the core of a logical index, given its window (R127, R128). -/
def rampForbids (logical : Nat) (r : Ramp) : Bool :=
  match r.windowAt with
  | none => decide (r.cycle < 8 * logical)
  | some w =>
    let j := r.cycle - w
    if j < 16 then j % 4 != 0
    else if j < 32 then j % 2 != 0
    else if j < 48 then j % 4 == 3
    else false

/-- The states of Table "Array cycle states" (R122). -/
inductive CycleState where
  | drainBackup
  | active
  | idle
  | rampFreeze
  | deckFreeze
  | bankFreeze
  | feedFreeze
  | starts
deriving DecidableEq, Repr

/-- Columns that a step takes (R102). -/
def stepColumns (afmt wfmt : Nat) : Nat := if isFourFour afmt wfmt then 2 else 1

/-- Whether the Window Register presents a valid column to the arrays (R122). -/
def columnReady (g : GenP) (w : Option Walk) (k : Nat) : Bool :=
  match w with
  | some ⟨_, some p, _, col, _⟩ => p.ready && !g.vector && decide (col + k ≤ g.columns)
  | _ => false

/-- The walk after k columns of the front plane are taken (R151, R152, R626). -/
def Walk.take (w : Walk) (g : GenP) (k : Nat) : Walk :=
  match w.front with
  | none => w
  | some p =>
    let lastOfTile := (p.index + 1) % g.planesPerTile == 0
    if g.columns ≤ w.col + k then
      { w with front := w.back, back := none, col := 0,
               avgDue := if g.avg && lastOfTile then some p.index else none }
    else { w with col := w.col + k }

/-- The bank rule of R120 for a start into a bank. -/
def MatrixUnit.bankFree (m : MatrixUnit) (bank : Bool) (lw : Nat) : Bool :=
  let ok (d : Option DrainJob) : Bool :=
    match d with
    | none => true
    | some d => d.bank != bank || decide (d.left ≤ lw - 1)
  ok m.drainRun && ok m.drainPend

/-- The state of the current cycle, without the ramp window being opened (R122). -/
def cycleState (b : CoreBody) : CycleState :=
  let m := b.mx
  let g := b.genP
  if m.drainCan = .backup then .drainBackup
  else if m.flights.any fun f => f.passesLeft != 0 then .active
  else match headStep m.queue with
    | some (ahead, .mma bank _ _ _ _) =>
      let wf := m.wfmt.toNat
      let blocked : MxOp → Bool
        | .dload .. => m.loadPend.isSome
        | .drain .. => m.drainPend.isSome
        | _ => false
      let isSwap : MxOp → Bool
        | .swap => true
        | _ => false
      let deck := ahead.any isSwap
      let bankOk := m.bankFree bank (writeLatency g.fmt wf)
      let feed := columnReady g b.walk (stepColumns g.fmt wf)
      let ramp := match m.ramp with
        | none => false
        | some r =>
          let opens := r.windowAt.isNone && decide (8 * b.logical ≤ r.cycle) && !deck && bankOk && feed
          rampForbids b.logical (if opens then { r with windowAt := some r.cycle } else r)
      if ahead.any blocked then .idle
      else if ramp then .rampFreeze
      else if deck then .deckFreeze
      else if !bankOk then .bankFreeze
      else if !feed then .feedFreeze
      else .starts
    | _ => .idle

/-- The window of the ramp opens in the first cycle at or after 8i in which a step would start (R127). -/
def rampOpen (logical : Nat) (r : Ramp) : Ramp :=
  if r.windowAt.isNone && decide (8 * logical ≤ r.cycle) then { r with windowAt := some r.cycle } else r

/-- The ramp one issued cycle later: its window lasts 64 cycles (R127). -/
def rampNext (r : Ramp) : Option Ramp :=
  match r.windowAt with
  | some w => if w + 63 ≤ r.cycle then none else some { r with cycle := r.cycle + 1 }
  | none => some { r with cycle := r.cycle + 1 }

/-- A step is in its write cycle (R100, Table "Step stages"). -/
def MatrixUnit.writeDue (m : MatrixUnit) : Bool :=
  !m.cycled && m.drainCan != .backup &&
    match m.flights with
    | [] => false
    | f :: _ => decide (writeLatency f.afmt f.wfmt ≤ f.age + 1)

/-- A drained row is delivered in this cycle (R115). -/
def MatrixUnit.deliverDue (m : MatrixUnit) : Bool :=
  !m.cycled && m.drainCan != .backup &&
    match m.rowsOut with
    | [] => false
    | r :: _ => r.left == 0

/-- The loader begins the pending DLOAD in this cycle: the first after its handover and after the completion of the
DLOAD before it (R112). -/
def MatrixUnit.beginDue (m : MatrixUnit) : Bool :=
  m.loadRun.isNone && !m.loaded && (m.loadPend.any fun j => !j.fresh)

/-- Accesses of a DLOAD (R112). -/
def DloadJob.accesses (j : DloadJob) : Nat := ceilDiv (imageBytes j.rows j.width j.mx j.perRow) 256

/-- The DLOAD that began in cycle l with N accesses completes at the end of this cycle, l + N + 5 (R112). -/
def MatrixUnit.completeDue (m : MatrixUnit) : Bool := m.loadRun.any fun j => j.cyc == j.accesses + 5

/-- The sequencer can hand over or swap in this cycle; in a drain back-up it stands still, as the pseudocode of 03 has it
(DEDUCED, log entry 98). -/
def MatrixUnit.seqDue (m : MatrixUnit) : Bool :=
  m.drainCan != .backup && (m.handover.isSome || m.swap.isSome)

/-- Nothing that an issued cycle moves is in the unit: such a cycle is idle whatever happens (R122). -/
def MatrixUnit.still (m : MatrixUnit) : Bool :=
  m.queue.isEmpty && m.flights.isEmpty && m.rowsOut.isEmpty && m.drainRun.isNone && m.drainPend.isNone

/-- What comes before the state of the arrays is decided in a cycle has not all happened (R106, R112, R115, R123). -/
def MatrixUnit.beforeDue (m : MatrixUnit) : Bool :=
  m.writeDue || m.deliverDue || (m.drainCan == .reads) || m.beginDue || m.completeDue || m.seqDue

/-- A plane becomes ready in this cycle, the first after the sixth that follows its last access (04 R150). -/
def CoreBody.readyDue (b : CoreBody) : Bool :=
  let one (x : Option Plane) : Bool := x.any fun p => !p.ready && p.cyc == b.genP.accesses + 6
  b.walk.any fun w => one w.front || one w.back

/-- The next plane begins to load in this cycle: the first plane in the cycle after AGGO, another in the cycle in which
the front plane presents its first column (04 R151). -/
def CoreBody.planeDue (b : CoreBody) : Bool :=
  b.walk.any fun w => w.back.isNone && decide (w.nextLoad < b.genP.planes) && (w.front.isNone || w.col != 0)

/-- Work of the matrix unit and of the plane loader that belongs to this issued cycle and has not been done. -/
def CoreBody.unitsDue (b : CoreBody) : Bool :=
  b.mx.beforeDue || b.readyDue || b.planeDue || (!b.mx.cycled && !b.mx.still)

/-- The pipeline and the drained rows one issued cycle later (R122). -/
def MatrixUnit.advance (m : MatrixUnit) : MatrixUnit :=
  { m with
    flights := m.flights.map fun f => { f with age := f.age + 1, passesLeft := f.passesLeft - 1 }
    rowsOut := m.rowsOut.map fun r => { r with left := r.left - 1 } }

/-- The weights of a Deck row for the 128 output columns (R100). -/
def Deck.row (d : Deck) (wfmt : Nat) (ff : Bool) (j : Nat) : List (List (Nat × Nat × Bool)) :=
  (List.range 128).map fun n => d.weights wfmt ff j (n / 32) (n % 32)

/-- An activation as an array step takes it: decoded, with its block scale (R100, R104). -/
def GenP.stepElem (g : GenP) (e : ColElem) : Elem × Nat := (g.arrayElem e, if fmtIsMx g.fmt then e.scale else 127)

/-- Start the head step (R100, R103, R110): its operands are taken, and the MMA leaves with its last step; then the third
pass of R106 may follow. -/
def CoreBody.startStep (b : CoreBody) : CoreBody :=
  let m := b.mx
  let g := b.genP
  match m.queue, b.walk with
  | .mma bank clear j0 n started :: q, some w =>
    match w.front with
    | none => b
    | some p =>
      let wf := m.wfmt.toNat
      let ff := isFourFour g.fmt wf
      let c1 := g.column p.index w.col p.elems
      let c2 := g.column p.index (w.col + 1) p.elems
      let col := (List.range 64).map fun r =>
        ((if ff then [c1.getD r g.padElem, c2.getD r g.padElem] else [c1.getD r g.padElem])).map g.stepElem
      let f : StepFlight :=
        { bank, clear := clear && started == 0, eacc := m.eacc, afmt := g.fmt, wfmt := wf, col,
          wts := m.activeDeck.row wf ff (j0 + started), age := 0, passesLeft := if isSixteen g.fmt wf then 3 else 0 }
      let last := decide (n ≤ started + 1)
      let q' := if last then q else .mma bank clear j0 n (started + 1) :: q
      let m' := { m with queue := q', flights := m.flights ++ [f], pass3 := last }
      { b with mx := if last then m'.settle else m', walk := some (w.take g (stepColumns g.fmt wf)) }
  | _, _ => b

/-- The matrix unit's decision in one issued cycle (R122, R135): the counter of its state advances, and a step starts
where one may. It comes once in a cycle, after the writes, the drainer and the first pass of the sequencer. -/
def CoreBody.matrixCycle (b : CoreBody) : CoreBody :=
  if b.mx.cycled || b.mx.beforeDue || b.readyDue then b
  else if b.mx.drainCan = .backup then { b with mx := { b.mx with cycled := true, frzDrain := b.mx.frzDrain + 1 } }
  else
    let b := { b with mx := b.mx.settle }
    let st := cycleState b
    let m := { b.mx.advance with cycled := true }
    match st with
    | .drainBackup => b
    | .active => { b with mx := { m with active := m.active + 1 } }
    | .idle => { b with mx := m }
    | .rampFreeze => { b with mx := { m with frzRamp := m.frzRamp + 1 } }
    | .deckFreeze => { b with mx := { m with frzDeck := m.frzDeck + 1 } }
    | .bankFreeze => { b with mx := { m with frzBank := m.frzBank + 1 } }
    | .feedFreeze => { b with mx := { m with frzFeed := m.frzFeed + 1 } }
    | .starts =>
      CoreBody.startStep { b with mx := { m with active := m.active + 1, ramp := m.ramp.map (rampOpen b.logical) } }

/-- The write cycle of the oldest step (R73, R100, R110, R123). -/
def CoreBody.writeStep (b : CoreBody) : CoreBody :=
  let m := b.mx
  match m.flights with
  | [] => b
  | f :: fs =>
    if !m.writeDue then b
    else
      let m1 := if f.clear then (if f.bank then { m with latch1 := f.eacc } else { m with latch0 := f.eacc }) else m
      let eacc := (m1.latch f.bank).toInt
      let one (i : Nat) : Acc × Bool :=
        let a := i / 2048
        let r := i / 32 % 64
        let c := i % 32
        cellStep m.negate f (m.cell f.bank a r c) r (32 * a + c) eacc
      let range := (List.range 8192).any fun i => (one i).2
      { b with mx := { m1 with flights := fs, wrote := some f.bank, acc := setBank m.acc f.bank fun i => (one i).1 }
               arith := b.arith ||| flagIf range AFlags.prodRange }

/-- The end of an issued cycle in the matrix unit: what has landed is in the Drain Queue, the loader has gone on, and the
next cycle begins (R112, R115, R127; 05 R203). -/
def MatrixUnit.nextCycle (m : MatrixUnit) : MatrixUnit :=
  { m with
    drainQueue := m.drainQueue ++ m.landed, landed := [], cycled := false, pass3 := false, drained := false
    wrote := none, loaded := false
    loadRun := m.loadRun.map fun j => { j with cyc := j.cyc + 1 }
    loadPend := m.loadPend.map fun j => { j with fresh := false }
    drainPend := m.drainPend.map fun j => { j with fresh := false }
    ramp := m.ramp.bind rampNext }

end Sys2Proof.Machine
end

