-- ==== Sys2Proof/Machine/Syl1.lean ====
section
/-!
DEFINITION. Slot 1 syllables: addresses, loads, generator, DMA and Hatches (05_core_program.md R186 to R197).
-/
namespace Sys2Proof.Machine

open Sys2Proof

/-- An address register from a value (R186). -/
def sylAddr (srcs : List Nat) (d : Nat) (v : BitVec 48) : Syl :=
  { srcs, dests := [(keyA d, 1)], eff := fun n => n.setA d v }

/-- AMOV (R186). -/
def sylAmov (d s : Nat) (b : CoreBody) : Syl := sylAddr [keyS s] d ((b.sr s).zeroExtend 48)

/-- AMOVH keeps Ad[31:0] (R186). -/
def sylAmovh (d s : Nat) (b : CoreBody) : Syl :=
  sylAddr [keyA d, keyS s] d
    ((((b.sr s) &&& 0xFFFF).zeroExtend 48 <<< 32) ||| (b.ar d &&& 0xFFFFFFFF))

/-- AADD (R186). -/
def sylAadd (d a s : Nat) (b : CoreBody) : Syl := sylAddr [keyA a, keyS s] d (addrPlus (b.ar a) (b.sr s).toInt)

/-- AADDI (R186). -/
def sylAaddi (d a : Nat) (imm : BitVec 16) (b : CoreBody) : Syl := sylAddr [keyA a] d (addrPlus (b.ar a) imm.toInt)

/-- AMOVS (R186). -/
def sylAmovs (d a : Nat) (b : CoreBody) : Syl :=
  { srcs := [keyA a], dests := [(keyS d, 1)], eff := fun n => n.setS d ((b.ar a).truncate 32) }

/-- The address of a load or store: Aa plus the displacement (R186, R198). -/
def memAddr (b : CoreBody) (a : Nat) (size : Nat) (disp : Int) : BitVec 48 := addrPlus (b.ar a) (disp * size)

/-- The post-increment of Aa (R186, R198). -/
def postInc (a : Nat) (inc : Bool) (addr : BitVec 48) (size : Nat) (n : CoreBody) : CoreBody :=
  if inc then n.setA a (addrPlus addr size) else n

/-- Whether an earlier store to a 256-byte unit of [pa, pa + n) has not passed its access cycle (R189). -/
def CoreBody.storeAhead (b : CoreBody) (pa n : Nat) : Bool :=
  let hit (u : Nat) : Bool := u == pa / 256 || u == (pa + n - 1) / 256
  (b.storeQ.any fun e => hit e.unit) ||
  match b.lastStore with
  | some (cycle, u) => cycle == b.cycle && hit u
  | none => false

/-- VLD and SLD: `r` is the destination, `size` 256 or 4 (R187 to R189). -/
def sylLoad (vec : Bool) (r a : Nat) (inc : Bool) (disp : Int) (up : Nat) (b : CoreBody) : Syl :=
  let size := if vec then 256 else 4
  let addr := memAddr b a size disp
  let pa := b.phys addr.toNat
  let key := if vec then keyV r else keyS r
  { srcs := [keyA a]
    dests := (key, 8 + b.loadQ.length) :: (if inc then [(keyA a, 1)] else [])
    stall := decide (4 ≤ b.loadQ.length) || b.storeAhead pa size
    traps := b.accessTraps up addr.toNat size size
    eff := fun n =>
      let n := postInc a inc addr size n
      { n with
        loadQ := n.loadQ ++ [{ vec, reg := r, addr := pa, cycle := b.cycle }]
        loading := if key = keyS 0 then n.loading else n.loading ++ [key] } }

/-- A step of an MMA issued before has not started, so its last column has not been taken (R191). -/
def CoreBody.columnsDue (b : CoreBody) : Bool :=
  b.mx.queue.any fun e =>
    match e with
    | .mma _ _ _ n started => decide (started < n)
    | _ => false

/-- AGSET and AGSETI (R191): the field takes the low bits of the value; a walk is discarded. -/
def sylAgset (srcs : List Nat) (i : Nat) (v : Word) (b : CoreBody) : Syl :=
  match fieldWidth i with
  | none => Syl.illegal
  | some w =>
    { srcs, stall := b.columnsDue
      eff := fun n => { n with gen := Tbl.put (fun _ => 0) n.gen i (BitVec.ofNat 32 (v.toNat % 2 ^ w)), walk := none } }

/-- A walk that has presented nothing (R192). -/
def Walk.start : Walk := ⟨0, none, none, 0, none⟩

/-- AGGO (R192). -/
def sylAggo (up : Nat) (b : CoreBody) : Syl :=
  { stall := b.columnsDue, traps := aggoTraps b up, eff := fun n => { n with walk := some Walk.start } }

/-- Chunks of 8 words of a FILL or COPY of `words` words. -/
def chunks (words : Nat) : Nat := ceilDiv words 8

/-- Slot-5 cycles of a COPY of `n` chunks: a batch of m chunks takes max(m, 7) + m (06 R227). -/
def copyCycles (n : Nat) : Nat := n / 8 * 16 + if n % 8 = 0 then 0 else max (n % 8) 7 + n % 8

/-- Slot-5 cycles of an entry from its first access to its last. -/
def DmaKind.cycles : DmaKind → Nat
  | .desc .. => 0
  | .fill _ words _ => chunks words
  | .copy _ _ words => copyCycles (chunks words)

/-- A FILL or COPY that has started holds slot 5 until its last access (R227). -/
def CoreBody.slot5Held (b : CoreBody) : Bool :=
  b.dmaQ.any fun e =>
    match e.kind with
    | .desc .. => false
    | k => e.started && decide (e.issued < k.cycles)

/-- The core DMA queue is full (R193). -/
def CoreBody.dmaFull (b : CoreBody) : Bool := decide (16 ≤ b.dmaQ.length)

/-- A new entry of the core DMA queue (R193). -/
def CoreBody.queueDma (n : CoreBody) (k : DmaKind) (c pc : Nat) : CoreBody :=
  { n with
    dmaQ := n.dmaQ ++ [{ id := n.dmaNext, kind := k, cnt := c, pc, started := false, issued := 0, acked := [],
                         paused := false, buf := [], pieces := 0, jobDone := false }]
    dmaNext := n.dmaNext + 1 }

/-- DMAQ captures the descriptor in its issue cycle (R193). -/
def sylDmaq (a c : Nat) (up : Nat) (v : PantryView) (b : CoreBody) : Syl :=
  let off := (b.ar a).toNat
  let pa := b.phys off
  { srcs := [keyA a]
    stall := b.slot5Held
    full := b.dmaFull
    traps := b.accessTraps up off 32 32
    eff := fun n =>
      let bytes := (List.range 32).map fun i => v.byte (pa + i)
      { n.queueDma (.desc bytes (v.mem.anyBad (pantryAddr v.core pa) 32)) c b.pc with
        flags := n.flags ||| readFlags v pa 32 }
    outs := [.captured pa] }

/-- The traps of a range of words at an address: none of bound and granule for an empty range; alignment always (R28,
R187, R209, R211). -/
def CoreBody.wordTraps (b : CoreBody) (up off words : Nat) : List (Nat × Word) :=
  if words = 0 then (if off % 32 = 0 then [] else [(trapMisaligned, BitVec.ofNat 32 off)])
  else b.accessTraps up off (32 * words) 32

/-- FILL (R194). -/
def sylFill (a s v c : Nat) (up : Nat) (b : CoreBody) : Syl :=
  let off := (b.ar a).toNat
  let words := (b.sr s).toNat
  { srcs := [keyA a, keyS s, keyS v], full := b.dmaFull
    traps := b.wordTraps up off words
    eff := fun n => n.queueDma (.fill (b.phys off) words (b.sr v)) c b.pc }

/-- COPY; overlapping ranges raise COPY_OVERLAP (R194). R187 names only Aa for the 32-byte alignment; the model raises
MISALIGNED for a destination Ad that is not a multiple of 32 too (DESIGN CHOICE, log entry 99). -/
def sylCopy (d a s c : Nat) (up : Nat) (b : CoreBody) : Syl :=
  let src := (b.ar a).toNat
  let dst := (b.ar d).toNat
  let words := (b.sr s).toNat
  { srcs := [keyA a, keyA d, keyS s], full := b.dmaFull
    traps := b.wordTraps up src words ++ b.wordTraps up dst words ++
      (if src < dst + 32 * words && dst < src + 32 * words then [(trapCopyOverlap, 0)] else [])
    eff := fun n => n.queueDma (.copy (b.phys dst) (b.phys src) words) c b.pc }

/-- HOPEN (R195). -/
def sylHopen (h a s c : Nat) (b : CoreBody) : Syl :=
  let off := (b.ar a).toNat
  let ss := b.sr s
  let words := fld ss 17 0
  { srcs := [keyA a, keyS s]
    traps := (if off % 32 = 0 then [] else [(trapMisaligned, BitVec.ofNat 32 off)]) ++
      (if b.inBound off (32 * words) then [] else [(trapPantryBound, BitVec.ofNat 32 off)]) ++
      (if fld ss 31 19 = 0 then [] else [(trapRange, ss)]) ++
      (if (b.hatch h).isOpen then [(trapHatch, 0)] else [])
    eff := fun n => n.setHatch h
      { isOpen := true, base := b.pbase + off / 32, words, partner := bitOf ss 18, cnt := c, gen := (n.hatch h).gen,
        accepted := 0, closing := false, awaiting := [] }
    outs := [.opened h] }

/-- HCLOSE: a wait syllable (R196, R258). -/
def sylHclose (h : Nat) (b : CoreBody) : Syl :=
  let x := b.hatch h
  let info := some (BitVec.ofNat 32 (h * 2 ^ 21 + 4), (0 : Word))
  if !x.isOpen then { wait := some true, wheel := true, info, traps := [(trapHatch, 0)] }
  else
    { wait := some x.closable, wheel := true, info
      early := if x.closing then [] else [.closing h]
      eff := fun n => n.closeHatch h }

/-- The bytes of a vector register, lane 0 first (R165, R21). -/
def Vec.bytes (x : Vec) : List Byte := ((List.range 64).map fun i => leBytes 4 (x.lane i).toNat).flatten

/-- The vector that 256 bytes hold. -/
def Vec.ofBytes (bs : List Byte) : Vec := Vec.tab fun i => BitVec.ofNat 32 (leField bs (4 * i) 4)

/-- HPUT (R197). -/
def sylHput (vs s c : Nat) (b : CoreBody) : Syl :=
  let ss := b.sr s
  { srcs := [keyV vs, keyS s]
    traps := if fld ss 27 11 % 8 != 0 || fld ss 31 28 != 0 then [(trapRange, ss)] else []
    eff := fun n => { n with hputs := n.hputs ++ [c] }
    outs := [.hput ss c (b.vr vs).bytes] }

/-- Pantry writes issued before have not all been made (R190). -/
def CoreBody.writesDue (b : CoreBody) : Bool :=
  let toPantry (d : Option DrainJob) : Bool := (d.map fun x => x.toPantry).getD false
  !b.storeQ.isEmpty || toPantry b.mx.drainRun || toPantry b.mx.drainPend ||
  (b.mx.rowsOut.any fun r => r.dest.isSome) ||
  (b.mx.queue.any fun e =>
    match e with
    | .drain _ _ _ mask toP _ => toP && mask % 16 != 0
    | _ => false) ||
  b.dmaQ.any fun e => decide (e.issued < e.kind.cycles)

/-- PFENCE (R190). -/
def sylPfence (b : CoreBody) : Syl := { stall := b.writesDue }

end Sys2Proof.Machine
end

