-- ==== Sys2Proof/Machine/Syl2.lean ====
section
/-!
DEFINITION. Slot 2 syllables: matrix and stores (05_core_program.md R198 to R200).
-/
namespace Sys2Proof.Machine

open Sys2Proof

/-- The Matrix Queue is full: 8 entries (R105). -/
def CoreBody.mxFull (b : CoreBody) : Bool := decide (8 ≤ b.mx.queue.length)

/-- An entry joins the Matrix Queue; the sequencer finds it there in the next cycle (R105, R106, R199). -/
def CoreBody.queueMx (n : CoreBody) (e : MxOp) : CoreBody :=
  { n with mx := { n.mx with queue := n.mx.queue ++ [e] } }

/-- WFMT as it will stand behind the entries queued so far (R199, R200). -/
def CoreBody.wfmtAhead (n : CoreBody) : Nat :=
  (n.mx.queue.foldl (fun (w : BitVec 4) e =>
    match e with
    | .setFmt v => v
    | _ => w) n.mx.wfmt).toNat

/-- Bytes of a Deck row by width code; code 3 is reserved (R198). -/
def dloadWidth (code : Nat) : Option Nat :=
  match code with
  | 0 => some 16
  | 1 => some 32
  | 2 => some 64
  | _ => none

/-- Traps of a range and an alignment, bound and granule checked when the range is not empty (R200, R209, R211). -/
def CoreBody.imageTraps (b : CoreBody) (up off n al : Nat) : List (Nat × Word) :=
  if n = 0 then (if off % al = 0 then [] else [(trapMisaligned, BitVec.ofNat 32 off)]) else b.accessTraps up off n al

/-- DLOAD (R111, R198, R200). -/
def sylDload (a rows widthCode : Nat) (mx : Bool) (up : Nat) (b now : CoreBody) : Syl :=
  match dloadWidth widthCode with
  | none => Syl.illegal
  | some width =>
    let off := (b.ar a).toNat
    let n := imageBytes rows width mx (reductionPerRow now.wfmtAhead width)
    { srcs := [keyA a], stall := b.mxFull
      traps := (if 64 < rows then [(trapMatrix, BitVec.ofNat 32 rows)] else []) ++ b.imageTraps up off n 256
      eff := fun c => c.queueMx (.dload off rows width mx) }

/-- SWAP (R113). -/
def sylSwap (b : CoreBody) : Syl := { stall := b.mxFull, eff := fun c => c.queueMx .swap }

/-- MMA (R100, R110, R200). -/
def sylMma (bank clear : Bool) (j0 n : Nat) (b now : CoreBody) : Syl :=
  let f := now.field 0
  let w := now.wfmtAhead
  { stall := b.mxFull
    traps := if 64 < j0 + n then [(trapMatrix, BitVec.ofNat 32 (j0 + n))]
      else if pairOk f w then [] else [(trapMatrix, BitVec.ofNat 32 (16 * f + w))]
    eff := fun c => c.queueMx (.mma bank clear j0 n 0) }

/-- DRAIN (R115, R116, R200). -/
def sylDrain (bank : Bool) (form : Nat) (neg : Bool) (mask : Nat) (toPantry : Bool) (a : Nat) (up : Nat)
    (b : CoreBody) : Syl :=
  if 2 < form then Syl.illegal
  else
    let off := (b.ar a).toNat
    let n := 64 * (maskArrays mask).length * rowBytes form
    { srcs := if toPantry then [keyA a] else [], stall := b.mxFull
      traps := if toPantry then b.imageTraps up off n (rowBytes form) else []
      eff := fun c => c.queueMx (.drain bank form neg mask toPantry off) }

/-- SETEACC (R199). -/
def sylSeteacc (v : BitVec 8) (b : CoreBody) : Syl := { stall := b.mxFull, eff := fun c => c.queueMx (.setEacc v) }

/-- SETFMT (R199). -/
def sylSetfmt (v : BitVec 4) (b : CoreBody) : Syl := { stall := b.mxFull, eff := fun c => c.queueMx (.setFmt v) }

/-- The runs of bytes that a VST writes: the lanes on (R189, R198). -/
def storeRuns (pa : Nat) (on : BitVec 64) (x : Vec) : List (Nat × List Byte) :=
  if on = BitVec.allOnes 64 then [(pa, x.bytes)]
  else (List.range 64).filterMap fun i =>
    if on.getLsbD i then some (pa + 4 * i, leBytes 4 (x.lane i).toNat) else none

/-- A store of `size` bytes as runs (R189). -/
def sylStore (srcs : List Nat) (a : Nat) (inc : Bool) (size : Nat) (disp : Int) (runs : Nat → List (Nat × List Byte))
    (up : Nat) (b : CoreBody) : Syl :=
  let addr := memAddr b a size disp
  let pa := b.phys addr.toNat
  { srcs := keyA a :: srcs
    dests := if inc then [(keyA a, 1)] else []
    stall := decide (4 ≤ b.storeQ.length)
    traps := b.accessTraps up addr.toNat size size
    eff := fun n =>
      let n := postInc a inc addr size n
      { n with storeQ := n.storeQ ++ [{ unit := pa / 256, runs := runs pa, cycle := b.cycle }] } }

/-- VST under a predicate (R198, R202). -/
def sylVst (vs a : Nat) (inc : Bool) (pg : Nat) (imm : BitVec 11) (up : Nat) (b : CoreBody) : Syl :=
  sylStore [keyV vs, keyP pg] a inc 256 imm.toInt (fun pa => storeRuns pa (b.pr pg) (b.vr vs)) up b

/-- SST (R198). -/
def sylSst (s a : Nat) (inc : Bool) (imm : BitVec 14) (up : Nat) (b : CoreBody) : Syl :=
  sylStore [keyS s] a inc 4 imm.toInt (fun pa => [(pa, leBytes 4 (b.sr s).toNat)]) up b

end Sys2Proof.Machine
end

