-- ==== Sys2Proof/Machine/Syl3.lean ====
section
/-!
DEFINITION. Slot 3 syllables: the vector unit (05_core_program.md R201 to R208).
-/
namespace Sys2Proof.Machine

open Sys2Proof

/-- A syllable that writes Vd under predicate pg: lanes off keep their old value, and then Vd is read too (R202). -/
def sylVec (d pg lat : Nat) (srcs : List Nat) (r : Vec × AFlags) (b : CoreBody) : Syl :=
  { srcs := srcs ++ (if pg = 0 then [] else [keyP pg, keyV d]), dests := [(keyV d, lat)]
    eff := fun n =>
      { n.setV d (if pg = 0 then r.1 else blend (b.pr pg) r.1 (b.vr d)) with arith := n.arith ||| r.2 } }

/-- A lane operation of one source. -/
def sylLane1 (f : Word → Lane) (d a pg lat : Nat) (b : CoreBody) : Syl :=
  sylVec d pg lat [keyV a] (lanes (b.pr pg) fun i => f ((b.vr a).lane i)) b

/-- A lane operation of two sources. -/
def sylLane2 (f : Word → Word → Lane) (d a c pg lat : Nat) (b : CoreBody) : Syl :=
  sylVec d pg lat [keyV a, keyV c] (lanes (b.pr pg) fun i => f ((b.vr a).lane i) ((b.vr c).lane i)) b

/-- Latency of the typed arithmetic: floating 4, integer 2 (R201). -/
def LaneTy.latency (t : LaneTy) : Nat := if t.isInt then 2 else 4

/-- VADD, VSUB, VMUL, VMAX, VMIN (R201). -/
def sylVarith (f : LaneTy → Word → Word → Lane) (t : LaneTy) (d a c pg : Nat) (b : CoreBody) : Syl :=
  sylLane2 (f t) d a c pg t.latency b

/-- VFMA reads Vd (R201). -/
def sylVfma (t : LaneTy) (d a c pg : Nat) (b : CoreBody) : Syl :=
  sylVec d pg t.latency [keyV a, keyV c, keyV d]
    (lanes (b.pr pg) fun i => laneFma t ((b.vr a).lane i) ((b.vr c).lane i) ((b.vr d).lane i)) b

/-- VAND, VOR, VXOR, VSHL, VSHR (R201). -/
def sylVbit (f : Word → Word → Word) (d a c pg : Nat) (b : CoreBody) : Syl :=
  sylLane2 (fun x y => (f x y, 0)) d a c pg 1 b

/-- VCMP: a bit per lane; lanes off are 0 (R201). -/
def sylVcmp (t : LaneTy) (p a c pg cond : Nat) (b : CoreBody) : Syl :=
  if 5 < cond then Syl.illegal
  else
    { srcs := [keyV a, keyV c] ++ (if pg = 0 then [] else [keyP pg]), dests := [(keyP p, 2)]
      eff := fun n => n.setP p (BitVec.ofNat 64 ((List.range 64).foldl (fun acc i =>
        if (b.pr pg).getLsbD i && ((laneCmp t cond ((b.vr a).lane i) ((b.vr c).lane i)).getD false)
        then acc + 2 ^ i else acc) 0)) }

/-- VSEL (R201). -/
def sylVsel (d a c pg : Nat) (b : CoreBody) : Syl :=
  { srcs := [keyV a, keyV c, keyP pg], dests := [(keyV d, 1)]
    eff := fun n => n.setV d (blend (b.pr pg) (b.vr a) (b.vr c)) }

/-- VBCS (R201). -/
def sylVbcs (d s pg : Nat) (b : CoreBody) : Syl := sylVec d pg 1 [keyS s] (Vec.tab fun _ => b.sr s, 0) b

/-- VLANE (R201). -/
def sylVlane (d a lane : Nat) (b : CoreBody) : Syl :=
  { srcs := [keyV a], dests := [(keyS d, 2)], eff := fun n => n.setS d ((b.vr a).lane (lane % 64)) }

/-- VRED: the reduction of all 64 lanes in lane 0, the other lanes 0 (R201, R208). Its flags are those of lane 0: with bit
0 of the predicate off it sets none (R202). -/
def sylVred (t : LaneTy) (op d a pg : Nat) (b : CoreBody) : Syl :=
  match vred t op b.detm (b.vr a) with
  | none => Syl.illegal
  | some (w, fl) =>
    sylVec d pg (if t = .f32 && op == 0 && b.detm then 24 else 12) [keyV a]
      (Vec.tab fun i => if i = 0 then w else 0, if (b.pr pg).getLsbD 0 then fl else 0) b

/-- VCVT; type codes 4 to 7 are reserved (R201). -/
def sylVcvt (src dst d a pg : Nat) (b : CoreBody) : Syl :=
  if 3 < src || 3 < dst then Syl.illegal else sylLane1 (laneCvt src dst) d a pg 3 b

/-- The rounding mode of element `k` of a syllable (R86, R205); code 3 is no mode. -/
def RsRegs.mode (r : RsRegs) (code k : Nat) : RMode :=
  match code with
  | 0 => .rne
  | 1 => .rtz
  | _ => .rsr (u24 r.seed r.step r.tid (r.idxBase + BitVec.ofNat 32 k * r.idxStride))

/-- The stochastic-rounding registers a syllable reads under mode code 2 (R175, R205). -/
def rsSrcs (code : Nat) : List Nat := if code = 2 then (List.range 7).map keyRS else []

/-- VRQ (R85, R204). -/
def sylVrq (d a sm_ sc : Nat) (half : Bool) (b : CoreBody) : Syl :=
  let c := b.sr sc
  let sh := fld c 6 0
  let mode := fld c 9 8
  let fmt := fld c 15 12
  let z := signed 16 (fld c 31 16)
  let srcs := [keyV a, keyV d, keyS sm_, keyS sc] ++ rsSrcs mode
  if 95 < sh || mode == 3 || fld c 11 10 != 0 || !(decide (fmt ≤ 3) || fmt == 15) then
    { srcs, dests := [(keyV d, 5)], traps := [(trapRange, c)] }
  else
    let x (k : Nat) : Int :=
      signed 64 (((b.vr a).lane (2 * k)).toNat + 2 ^ 32 * ((b.vr a).lane (2 * k + 1)).toNat)
    let rs := (List.range 32).map fun k => requantInt (b.rs.mode mode k) (x k) (b.sr sm_).toInt sh z fmt
    let base := if half then 32 else 0
    { srcs, dests := [(keyV d, 5)]
      eff := fun n =>
        { n.setV d (Vec.tab fun i =>
            if base ≤ i && i < base + 32 then BitVec.ofInt 32 (rs.getD (i - base) (0, 0)).1 else (b.vr d).lane i) with
          arith := rs.foldl (fun f r => f ||| r.2) n.arith } }

/-- VFQ; an MX format raises OPERAND_RANGE, with no register operand for TRAP_ADDR to hold: `open_` (R87, R168, R206,
R214; log entry 21). -/
def sylVfq (d a pg fmt mode : Nat) (open_ : Word) (b : CoreBody) : Syl :=
  if mode = 3 then Syl.illegal
  else if fmtIsMx fmt then { srcs := [keyV a], dests := [(keyV d, 4)], traps := [(trapRange, open_)] }
  else
    sylVec d pg 4 ([keyV a] ++ rsSrcs mode) (lanes (b.pr pg) fun i =>
      let (w, f) := requantFloat (b.rs.mode mode i) (fp32 ((b.vr a).lane i)) fmt
      (BitVec.ofNat 32 w, f)) b

/-- VMXQ (R89, R90, R206); a code that is no block-scaled format is a reserved value (log entry 22). -/
def sylVmxq (d a s fmt mode : Nat) (b : CoreBody) : Syl :=
  if mode = 3 || !fmtIsMx fmt then Syl.illegal
  else
    let block (h : Nat) : List Nat × Nat × AFlags :=
      requantMx ((List.range 32).map fun i => b.rs.mode mode (32 * h + i))
        ((List.range 32).map fun i => fp32 ((b.vr a).lane (32 * h + i))) fmt
    let x := block 0
    let y := block 1
    { srcs := [keyV a] ++ rsSrcs mode, dests := [(keyV d, 8), (keyS s, 8)]
      eff := fun n =>
        { (n.setV d (Vec.tab fun i => BitVec.ofNat 32 ((x.1 ++ y.1).getD i 0))).setS s
            (BitVec.ofNat 32 (x.2.1 + 256 * y.2.1)) with
          arith := n.arith ||| x.2.2 ||| y.2.2 } }

/-- The reserved cases of VPACK (R206). -/
def vpackOk (fmt word : Nat) (half : Bool) : Bool :=
  decide (fmt < 14) && (decide (word ≤ 7) || fmtBits fmt == 4) && (!half || fmtBits fmt == 16)

/-- The bytes that VPACK writes and their offset in Vd (R66, R137, R206). -/
def vpackBytes (fmt word : Nat) (half : Bool) (x : Vec) : Nat × List Byte :=
  let w := fmtBits fmt
  let lane (i : Nat) : Nat := (x.lane i).toNat % 2 ^ w
  if w = 16 then
    (32 * word, ((List.range 16).map fun i => leBytes 2 (lane (i + if half then 16 else 0))).flatten)
  else
    let v := (List.range 32).foldl (fun acc i => acc + lane i * 2 ^ (w * i)) 0
    if w = 4 then (16 * word, leBytes 16 v) else (32 * word, leBytes 32 v)

/-- VPACK (R206). -/
def sylVpack (d a pg fmt word : Nat) (half : Bool) (b : CoreBody) : Syl :=
  if !vpackOk fmt word half then Syl.illegal
  else
    let (off, bs) := vpackBytes fmt word half (b.vr a)
    sylVec d pg 2 [keyV a, keyV d] (Vec.ofBytes (overwrite (b.vr d).bytes off bs), 0) b

/-- A transcendental syllable, FP32 only (R97, R201). -/
def sylVfun (f : Fp → Lane) (lat d a pg : Nat) (b : CoreBody) : Syl :=
  sylLane1 (fun w => f (fp32 w)) d a pg lat b

/-- V72ADD (R80, R207). -/
def sylV72add (d a c pg : Nat) (b : CoreBody) : Syl :=
  let sum (k : Nat) : Acc :=
    let x := (b.vr a).container k
    let y := (b.vr c).container k
    ⟨x.a + y.a, x.poison || y.poison⟩
  let ws := ((List.range 16).map fun k => containerLanes (sum k)).flatten
  sylVec d pg 2 [keyV a, keyV c] (Vec.ofList ws, 0) b

/-- V72CVT: form 0 I64, 1 F32, 2 F32I; 3 is reserved (R207). A container none of whose lanes is on sets no flag. -/
def sylV72cvt (d a s pg form : Nat) (b : CoreBody) : Syl :=
  if 2 < form then Syl.illegal
  else
    let e := signed 8 (fld (b.sr s) 7 0)
    let on (i : Nat) : Bool := (b.pr pg).getLsbD i
    let one (k : Nat) : List Word × AFlags :=
      let x := (b.vr a).container k
      match form with
      | 0 =>
        let (v, f) := drainI64 x
        (wordsOf 2 v.toNat, flagIf (on (2 * k) || on (2 * k + 1)) f)
      | 1 =>
        let (v, f) := drainF32 x e
        ([v], flagIf (on k) f)
      | _ =>
        let (v, f) := drainF32I x e
        ([v], flagIf (on k) f)
    let rs := (List.range 16).map one
    sylVec d pg 4 [keyV a, keyS s]
      (Vec.ofList (rs.map Prod.fst).flatten, rs.foldl (fun f r => f ||| r.2) 0) b

/-- VFIXSUM into the container in lanes 0 to 3 of Vd (R207). -/
def sylVfixsum (d a s pg : Nat) (b : CoreBody) : Syl :=
  let u : Int := (b.sr s).toInt - 40
  let term (i : Nat) : Int :=
    match fp32 ((b.vr a).lane i) with
    | .fin n m e => sm n (gridMag .rne m e u)
    | _ => 0
  let old := (b.vr d).container 0
  let sum : BitVec 72 := (List.range 64).foldl (fun acc i => acc + BitVec.ofInt 72 (term i)) old.a
  let ws := containerLanes ⟨sum, old.poison⟩
  sylVec d pg 8 [keyV a, keyV d, keyS s] (Vec.tab fun i => if i < 4 then ws.getD i 0 else (b.vr d).lane i, 0) b

/-- The exponent summary of a vector (R207). -/
def expSummary (x : Vec) : Word :=
  let vs := x.list.map fp32
  let top : Int := (maxLog vs).getD (-(2 ^ 28 : Int))
  BitVec.ofNat 32 (wrap 29 top + (vs.any (· == .inf true)).toNat * 2 ^ 29 +
    (vs.any (· == .inf false)).toNat * 2 ^ 30 + (vs.any Fp.isNan).toNat * 2 ^ 31)

/-- VEXPMAX (R207). -/
def sylVexpmax (d a : Nat) (b : CoreBody) : Syl :=
  { srcs := [keyV a], dests := [(keyS d, 6)], eff := fun n => n.setS d (expSummary (b.vr a)) }

/-- What a VWLD finds (R156, R203, R626). -/
inductive NextColumn where
  | none
  | notReady
  | average (n : Nat)
  | column (p : Plane) (j : Nat)
deriving DecidableEq, Repr

/-- The next column of a vector-consumer walk: none left, one not yet ready, the count column, or a plane's column. -/
def CoreBody.nextColumn (b : CoreBody) : NextColumn :=
  let g := b.genP
  match b.walk with
  | none => .none
  | some w =>
    if !g.vector then .none
    else match w.avgDue with
      | some n => .average n
      | none => match w.front with
        | some p => if p.ready then .column p w.col else .notReady
        | none => if w.nextLoad < g.planes then .notReady else .none

/-- VWLD (R156, R203). -/
def sylVwld (d pg : Nat) (b : CoreBody) : Syl :=
  let g := b.genP
  match b.nextColumn with
  | .none => { dests := [(keyV d, 1)], traps := [(trapDrainEmpty, 1)] }
  | .notReady => { dests := [(keyV d, 1)], stall := true }
  | .average k =>
    let y := sylVec d pg 1 [] (g.avgColumn k, 0) b
    { y with eff := fun n => { y.eff n with walk := n.walk.map fun w => { w with avgDue := none } } }
  | .column p j =>
    let y := sylVec d pg 1 [] (lanes (b.pr pg) fun r =>
      g.vectorLane ((g.column p.index j p.elems).getD r g.padElem)) b
    { y with eff := fun n => { y.eff n with walk := n.walk.map fun w => w.take g 1 } }

/-- A drain to the queue is running, pending or waiting, or a row of one is on its way (R203). -/
def CoreBody.drainDue (b : CoreBody) : Bool :=
  let toQueue (d : Option DrainJob) : Bool := (d.map fun x => !x.toPantry).getD false
  toQueue b.mx.drainRun || toQueue b.mx.drainPend || b.mx.toQueue != 0 ||
  b.mx.queue.any fun e =>
    match e with
    | .drain _ _ _ mask toP _ => !toP && mask % 16 != 0
    | _ => false

/-- VPOP (R203). -/
def sylVpop (d pg : Nat) (b : CoreBody) : Syl :=
  match b.mx.drainQueue with
  | [] =>
    if b.drainDue then { dests := [(keyV d, 1)], stall := true }
    else { dests := [(keyV d, 1)], traps := [(trapDrainEmpty, 0)] }
  | x :: _ =>
    let y := sylVec d pg 1 [] (x, 0) b
    { y with eff := fun n =>
        let m := y.eff n
        { m with mx := { m.mx with drainQueue := m.mx.drainQueue.drop 1 } } }

end Sys2Proof.Machine
end

