-- ==== Sys2Proof/Machine/CoreUnits.lean ====
section
/-!
DEFINITION. The units of a core that act on their own: load and store accesses, Pantry reads and their errors, FILL and
COPY, plane and Deck loads, drains (05 R188 to R194; 03 R107 to R118; 04 R150, R151; 06 R222 to R231).
-/
namespace Sys2Proof.Machine

open Sys2Proof

/-- A load access is due in this cycle (R188). -/
def CoreBody.loadDue (b : CoreBody) : Option LoadEntry :=
  match b.loadQ with
  | [] => none
  | x :: _ => if x.cycle < b.cycle && b.lastLoad != some b.cycle then some x else none

/-- A store access is due in this cycle (R189). -/
def CoreBody.storeDue (b : CoreBody) : Option StoreEntry :=
  match b.storeQ with
  | [] => none
  | x :: _ => if x.cycle < b.cycle && (b.lastStore.map Prod.fst) != some b.cycle then some x else none

/-- The load at the head of the queue accesses the Pantry; its register is available seven cycles later (R188). -/
def Eff.loadAccess (e : Eff) (p : Nat) : Eff :=
  match (e.hw.body p).loadDue with
  | none => e
  | some x =>
    let n := if x.vec then 256 else 4
    let bs := e.mem.bytes (pantryAddr p x.addr) n
    let key := if x.vec then keyV x.reg else keyS x.reg
    (e.coreRead p x.addr n).up fun h => h.updBody p fun b =>
      let b := if x.vec then b.setV x.reg (Vec.ofBytes bs) else b.setS x.reg (BitVec.ofNat 32 (leNat bs))
      { b with loadQ := b.loadQ.drop 1, loading := b.loading.erase key, lastLoad := some b.cycle,
               ready := if key = keyS 0 then b.ready else Tbl.put (fun _ => 0) b.ready key (b.cycle + 7) }

/-- The store at the head of the queue writes the Pantry through slot 4 (R189). -/
def Eff.storeAccess (e : Eff) (p : Nat) : Eff :=
  match (e.hw.body p).storeDue with
  | none => e
  | some x =>
    let e := e.each x.runs fun e r => e.slotWrite p 4 r.1 r.2 false
    e.up fun h => h.updBody p fun b =>
      { b with storeQ := b.storeQ.drop 1, lastStore := some (b.cycle, x.unit) }

/-! ### FILL and COPY (R194, 06 R227) -/

/-- The FILL or COPY at the head of the core DMA queue starts in this cycle: every earlier entry has completed, and its
context is neither paused nor ending (R194, 09 R370). -/
def CoreBody.fillDue (b : CoreBody) : Bool :=
  match b.dmaQ with
  | [] => false
  | x :: _ =>
    match x.kind with
    | .desc .. => false
    | _ => !x.started

/-- A FILL or COPY has made its last access: it completes in this cycle (R193, R194). -/
def CoreBody.fillEnds (b : CoreBody) : Bool :=
  match b.dmaQ with
  | [] => false
  | x :: _ =>
    match x.kind with
    | .desc .. => false
    | k => x.started && decide (k.cycles ≤ x.issued)

/-- The FILL or COPY at the head of the core DMA queue starts: its first access falls in this cycle (R194, 06 R227). -/
def Eff.fillCopy (e : Eff) (p : Nat) : Eff :=
  let b := e.hw.body p
  if !b.fillDue || e.hw.noStart b.ctxId then e
  else e.up fun h => h.updBody p fun b =>
    { b with dmaQ := match b.dmaQ with | [] => [] | x :: q => { x with started := true } :: q }

/-- Chunk `k` of `words` words from a word: its first byte and its words, clipped to the length. -/
def chunkAt (words k : Nat) : Nat × Nat := (256 * k, min 8 (words - 8 * k))

/-- The words of a chunk as the Pantry holds them: offset from the start, bytes, whether a read delivers poison. -/
def chunkWords (v : PantryView) (src words k : Nat) : List (Nat × List Byte × Bool) :=
  let (o, n) := chunkAt words k
  (List.range n).map fun i =>
    (o + 32 * i, v.mem.bytes (pantryAddr v.core (src + o + 32 * i)) 32, v.bad (src + o + 32 * i))

/-- The slot-5 access of cycle `k` of a FILL: chunk k is written (06 R227). -/
def Eff.fillCycle (e : Eff) (p a words : Nat) (v : Word) (k : Nat) : Eff :=
  let (o, n) := chunkAt words k
  e.slotWrite p 5 (a + o) (List.replicate (8 * n) (leBytes 4 v.toNat)).flatten false

/-- The slot-5 access of cycle `k` of a COPY (06 R227): a batch of n chunks reads them in its first n cycles and writes
them in n cycles from cycle max(n, 7) on; a poisoned word is written as arrived poisoned and sets no flag (R194, 06
R229). -/
def Eff.copyCycle (e : Eff) (p : Nat) (x : DmaEntry) (dst src words k : Nat) : Eff :=
  let batch := k / 16
  let o := k % 16
  let n := min 8 (chunks words - 8 * batch)
  let w := max n 7
  if o < n then
    let c := 8 * batch + o
    let got := chunkWords ⟨e.mem, p⟩ src words c
    (e.pantryErrors p (src + (chunkAt words c).1) (32 * (chunkAt words c).2) false).up fun h =>
      h.updBody p fun b => { b with dmaQ := b.dmaQ.map fun y => if y.id = x.id then { y with buf := y.buf ++ got } else y }
  else if w ≤ o && o < w + n then
    let (f, m) := chunkAt words (8 * batch + (o - w))
    let mine (y : Nat × List Byte × Bool) : Bool := decide (f ≤ y.1) && decide (y.1 < f + 32 * m)
    (e.each (x.buf.filter mine) fun e y => e.slotWrite p 5 (dst + y.1) y.2.1 y.2.2).up fun h =>
      h.updBody p fun b => { b with dmaQ := b.dmaQ.map fun y =>
        if y.id = x.id then { y with buf := y.buf.filter fun z => !mine z } else y }
  else e

/-- A granule of a Pantry range is down: core DMA raises PANTRY_GRANULE imprecisely (06 R234). -/
def Eff.dmaGranule (e : Eff) (p : Nat) (x : DmaEntry) (a n : Nat) (f : Eff → Eff) : Eff :=
  if granulesUp (e.hw.up p) a n then f e
  else e.imprecise p x.pc trapGranule (BitVec.ofNat 32 (a - 32 * (e.hw.body p).pbase))

/-- Bytes [o, o + n) of a transfer have been written at the destination (09 R369). -/
def Hw.dmaAcked (h : Hw) (p id o n : Nat) : Hw :=
  h.updBody p fun b => b.updDma id fun x => { x with acked := x.acked ++ [(o, n)] }

/-- Data of a transfer into the Pantry that waits for slot 5: the oldest entry that has any, its descriptor, and its
first piece. -/
def CoreBody.landing (b : CoreBody) : Option (DmaEntry × Desc × Nat × List Byte × Bool) :=
  b.dmaQ.findSome? fun x =>
    match x.desc, x.buf with
    | some d, y :: _ => if d.kind = 0 then some (x, d, y) else none
    | _, _ => none

/-- Slot 5 writes a piece of a transfer into the Pantry, which is then complete at its destination (09 R369, R377). -/
def Eff.land (e : Eff) (p : Nat) : Eff :=
  let b := e.hw.body p
  match b.landing with
  | none => e
  | some (x, d, o, bs, poison) =>
    e.dmaGranule p x (b.dmaByte d o) bs.length fun e =>
      (e.slotWords p 5 (b.dmaByte d o) bs (List.replicate (bs.length / 32) poison)).up fun h =>
        (h.updBody p fun b => b.updDma x.id fun y => { y with buf := y.buf.drop 1 }).dmaAcked p x.id o bs.length

/-- The access of slot 5 in this cycle: that of a FILL or COPY, which holds the slot from its first access to its last, or
else a piece of a transfer that has come (06 R225, R227). -/
def Eff.slot5Cycle (e : Eff) (p : Nat) : Eff :=
  if !(e.hw.body p).slot5Held then e.land p
  else match (e.hw.body p).dmaQ with
  | [] => e
  | x :: _ =>
    let e := match x.kind with
      | .desc .. => e
      | .fill a words v => e.fillCycle p a words v x.issued
      | .copy dst src words => e.copyCycle p x dst src words x.issued
    e.up fun h => h.updBody p fun b =>
      { b with dmaQ := match b.dmaQ with | [] => [] | y :: q => { y with issued := y.issued + 1 } :: q }

/-! ### Planes (04 R150, R151) -/

/-- A plane that begins to load. -/
def Plane.begin_ (index : Nat) : Plane := { index, cyc := 0, words := Memory.empty, ready := false, elems := [] }

/-- The next plane begins to load, in the cycle that R151 gives. -/
def CoreBody.planeBegin (b : CoreBody) : CoreBody :=
  if !b.planeDue then b
  else { b with walk := b.walk.map fun w =>
    if w.front.isNone then { w with front := some (Plane.begin_ w.nextLoad), nextLoad := w.nextLoad + 1, col := 0 }
    else { w with back := some (Plane.begin_ w.nextLoad), nextLoad := w.nextLoad + 1 } }

/-- A plane becomes ready: its elements stand for the columns (R150). -/
def CoreBody.planeReady (b : CoreBody) (p : Nat) : CoreBody :=
  let g := b.genP
  let one (x : Option Plane) : Option Plane := x.map fun q =>
    if !q.ready && q.cyc == g.accesses + 6 then { q with ready := true, elems := g.planeElems b ⟨q.words, p⟩ q.index }
    else q
  { b with walk := b.walk.map fun w => { w with front := one w.front, back := one w.back } }

/-- A memory with the words that a view holds at the given physical words of core `p`, and their states. -/
def Memory.take (m : Memory) (from_ : Memory) (p : Nat) (words : List Nat) : Memory :=
  words.foldl (fun m w =>
    let a := pantryAddr p (32 * w)
    (m.putBytes a (from_.bytes a 32)).apply (.setState (a / 32) (from_.state a))) m

/-- The access of slot 0 in this cycle for a plane that loads (R150). -/
def Eff.planeCycle (e : Eff) (p : Nat) (back : Bool) : Eff :=
  let b := e.hw.body p
  let g := b.genP
  match b.walk.bind fun w => if back then w.back else w.front with
  | none => e
  | some pl =>
    let ws := if pl.cyc < g.accesses then g.planeAccess b pl.index pl.cyc else []
    let mem := e.mem
    let pl' := { pl with cyc := pl.cyc + 1, words := pl.words.take mem p ws }
    (e.each ws fun e w => e.coreRead p (32 * w) 32).up fun h => h.updBody p fun b =>
      { b with walk := b.walk.map fun w => if back then { w with back := some pl' } else { w with front := some pl' } }

/-! ### Decks (03 R111, R112) -/

/-- The pending DLOAD begins (R112). -/
def CoreBody.dloadBegin (b : CoreBody) : CoreBody :=
  if b.mx.beginDue then { b with mx := { b.mx with loadRun := b.mx.loadPend, loadPend := none } } else b

/-- The access of slot 1 in this cycle: 256 bytes of the Deck image, 8 whole words whatever the image's length (R111,
R112). -/
def Eff.deckCycle (e : Eff) (p : Nat) : Eff :=
  let b := e.hw.body p
  match b.mx.loadRun with
  | none => e
  | some j =>
    if j.accesses ≤ j.cyc then e
    else
      let a := b.phys j.base + 256 * j.cyc
      let part := (List.range 256).map fun i =>
        (e.mem.byte (pantryAddr p (a + i)), (e.mem.state (pantryAddr p (a + i))).bad)
      (e.coreRead p a 256).up fun h => h.updBody p fun b =>
        { b with mx := { b.mx with loadRun := some { j with image := j.image ++ part } } }

/-- The shadow Deck completes at the end of cycle l + N + 5 of a DLOAD that began in cycle l (R112). -/
def CoreBody.dloadComplete (b : CoreBody) : CoreBody :=
  match b.mx.loadRun with
  | some j =>
    if b.mx.completeDue then
      let m := b.mx.setShadow (b.mx.shadowDeck.load j.rows j.width j.mx j.perRow j.image)
      { b with mx := { m with loadRun := none, shadowOk := true, loaded := true } }
    else b
  | none => b

/-! ### Sequencer and drainer -/

/-- The head entry is handed to its unit (R107). -/
def CoreBody.handover (b : CoreBody) : CoreBody :=
  match b.mx.handover with
  | some m => { b with mx := m }
  | none => b

/-- The SWAP at the head executes (R113). -/
def CoreBody.swapDecks (b : CoreBody) : CoreBody :=
  match b.mx.swap with
  | some m => { b with mx := m }
  | none => b

/-- The drainer reads a row (R115). -/
def CoreBody.drainRead (b : CoreBody) : CoreBody :=
  match b.mx.readRow b.pbase with
  | some (m, fl) => { b with mx := m, arith := b.arith ||| fl }
  | none => b

/-- The oldest row whose cycles have passed is delivered, to the Pantry through slot 2 or to the Drain Queue (R115 to
R117). -/
def Eff.drainDeliver (e : Eff) (p : Nat) : Eff :=
  let m := (e.hw.body p).mx
  if !m.deliverDue then e
  else match m.rowsOut with
    | [] => e
    | r :: rs =>
      let e := match r.dest with
        | some a => e.slotWrite p 2 a (r.lanes.bytes.take r.bytes) false
        | none => e
      e.up fun h => h.updBody p fun b =>
        { b with mx := { b.mx with rowsOut := rs,
                                   landed := if r.dest.isNone then b.mx.landed ++ [r.lanes] else b.mx.landed } }

/-! ### The issued cycle -/

/-- Work of core `p` that belongs to this issued cycle and has not been done: accesses of loads and stores, planes, the
matrix unit, and the start and end of a FILL or COPY. The bundle of the cycle comes after it. -/
def Hw.cycleDue (h : Hw) (p : Nat) : Bool :=
  let b := h.body p
  b.loadDue.isSome || b.storeDue.isSome || b.unitsDue || (b.fillDue && !h.noStart b.ctxId) || b.fillEnds

/-- The end of an issued cycle of core `p`: a plane whose turn a VWLD of this cycle gave begins to load; slots 0, 1 and 5
make their accesses; the writes of the cycle take effect; and every unit goes on to the next cycle (06 R222, R223). -/
def Eff.endCycle (e : Eff) (p : Nat) : Eff :=
  let e := e.up fun h => h.updBody p fun b => if b.walk.any fun w => w.front.isSome then b.planeBegin else b
  let e := (((e.planeCycle p false).planeCycle p true).deckCycle p).slot5Cycle p
  (e.settleWrites p).up fun h => h.updBody p fun b => { b with mx := b.mx.nextCycle, arithSeen := b.arith }

end Sys2Proof.Machine
end

