-- ==== Sys2Proof/Machine/LoftOps.lean ====
section
/-!
DEFINITION. The Loft's scratchpad ways: who may read and write them, their errors and their writes
(06_pantry_loft_gather.md R236 to R240, R246).
-/
namespace Sys2Proof.Machine

open Sys2Proof

/-- Slice and way of a Loft word (R236). -/
def loftSlice (w : Nat) : Nat := nbits w 20 17
def loftWayOf (w : Nat) : Nat := nbits w 16 13

/-- A partition may read or write `n` Loft words from `w`, all of one way (R237). -/
def Hw.loftOk (h : Hw) (part w n : Nat) (write : Bool) : Bool :=
  let r := h.reg (Reg.loftWay (loftWayOf w))
  decide (w + n ≤ 2 ^ 21) && (n == 0 || (w + n - 1) / wayWords == w / wayWords) && fld r 9 8 == 0 &&
  (fld r 3 0 == part || (bitOf r 4 && !write)) && !h.sliceOff (loftSlice w)

/-- The way of a Loft word is being cleared: accesses wait (R246). -/
def Hw.loftBusy (h : Hw) (w : Nat) : Bool := h.loft.clearing.contains (loftWayOf w)

/-- Errors of a read of `n` Loft words from `w` (R240). -/
def Eff.loftErrors (e : Eff) (w n : Nat) (scrub : Bool) : Eff :=
  let c := e.mem.countState (loftAddr w) (32 * n) .single
  let u := e.mem.countState (loftAddr w) (32 * n) .uncorrectable
  if c = 0 && u = 0 then e
  else
    let last := (List.range n).foldl (fun (x : Option (Nat × Bool)) i =>
      match e.mem.state (loftAddr (w + i)) with
      | .single => some (w + i, false)
      | .uncorrectable => some (w + i, true)
      | _ => x) none
    e.up fun h =>
      let h := (h.satRegFld Reg.loftCorrCnt 31 0 c).satRegFld Reg.loftUncCnt 31 0 u
      let h := match last with
        | some (a, unc) => h.setReg Reg.loftErrAddr
            (BitVec.ofNat 32 (2 ^ 31 + unc.toNat * 2 ^ 30 + scrub.toNat * 2 ^ 29 + a % 2 ^ 21))
        | none => h
      h.corrected 2 (loftSlice w) c

/-- The poison of each of `n` words of the memory from an address. -/
def Memory.poisons (m : Memory) (a n : Nat) : List Bool := (List.range n).map fun i => (m.state (a + 32 * i)).bad

/-- Write bytes of Loft word `w` from byte `off` on; while the way is being cleared the write waits for the end of the
clear (R246). -/
def Eff.loftPut (e : Eff) (w off : Nat) (bs : List Byte) (poison : Bool) : Eff :=
  if e.hw.loftBusy w then
    e.up fun h => h.updLoft fun l => { l with waiting := l.waiting ++ [(loftAddr w + off, bs, poison)] }
  else e.write (.bytes (loftAddr w + off) bs poison)

/-- Write words with the poison of each. -/
def Eff.loftWrite (e : Eff) (w : Nat) (bs : List Byte) (poison : List Bool) : Eff :=
  e.each (List.range (bs.length / 32)) fun e i => e.loftPut (w + i) 0 ((bs.drop (32 * i)).take 32) (poison.getD i false)

/-- The clear of a way has ended: the writes to it that waited are made, oldest first (R246). -/
def Eff.loftRelease (e : Eff) (way : Nat) : Eff :=
  let mine (x : Nat × List Byte × Bool) : Bool := loftWayOf ((x.1 - loftAddr 0) / 32) == way
  (e.each (e.hw.loft.waiting.filter mine) fun e x => e.write (.bytes x.1 x.2.1 x.2.2)).up fun h =>
    h.updLoft fun l => { l with waiting := l.waiting.filter fun x => !mine x }

end Sys2Proof.Machine
end

