-- ==== Sys2Proof/Machine/Mesh.lean ====
section
/-!
DEFINITION. Hatches between sender and owner: messages on the mesh, the directory, the checks of an arriving write, its
answer, and the close (06_pantry_loft_gather.md R252 to R260; 05_core_program.md R195 to R197).
-/
namespace Sys2Proof.Machine

open Sys2Proof

/-! ### Messages in order, and closing (R253, R258) -/

/-- Message `i` can arrive: no earlier message of its sender to its destination is on the way. -/
def Hw.arrivable (h : Hw) (i : Nat) : Option Message :=
  match h.loft.mesh[i]? with
  | none => none
  | some m => if (h.loft.mesh.take i).any fun x => x.src == m.src && x.dst == m.dst then none else some m

/-- Take message `i` off the mesh. -/
def Hw.taken (h : Hw) (i : Nat) : Hw := h.updLoft fun l => { l with mesh := l.mesh.eraseIdx i }

/-- Whom a close waits for: the admitted cores, and the Partner (64) while its session is up (R258). -/
def Hw.closers (h : Hw) (cores : Nat) (partner : Bool) : List Nat :=
  ((List.range 64).filter fun l => cores.testBit l) ++ (if partner && h.session then [64] else [])

/-- A core opens its Hatch `k` (R195, R252). -/
def Hw.hatchOpened (h : Hw) (p k : Nat) : Hw :=
  let b := h.body p
  let x := b.hatch k
  h.notify p x.partner (hatchKey b.logical k) x.gen true

/-- A core begins to close its Hatch `k` (R258). -/
def Hw.hatchClosing (h : Hw) (p k : Nat) : Hw :=
  let b := h.body p
  let x := b.hatch k
  if !x.isOpen || x.closing then h
  else
    let h := h.updBody p fun b =>
      b.setHatch k { b.hatch k with closing := true, awaiting := h.closers (h.partMask b.part) x.partner }
    h.notify p x.partner (hatchKey b.logical k) x.gen false

/-! ### Sending -/

/-- The statuses of an answer that only set a flag: CORE_FLAGS bits (R197). -/
def answerFlag (status : Status) : BitVec 4 :=
  if status = Status.staleHatch then 4 else if status = Status.undelivered then 8 else 0

/-- An HPUT is answered: its counter advances and the flag of its status is set (R179, R197). -/
def CoreBody.answered (b : CoreBody) (cnt status : Nat) : CoreBody :=
  { b.countC cnt 1 with hputs := b.hputs.erase cnt, flags := b.flags ||| answerFlag status }

/-- The age of the kernel of a partition (12 R507). -/
def Hw.ageOf (h : Hw) (part : Nat) : DWord := ((h.kernel? part).map Kernel.age).getD ageNone

/-- The run of the kernel on a partition is a Redeal copy (12 R498). -/
def Hw.isCopy (h : Hw) (part : Nat) : Bool :=
  match h.kernel? part with
  | some k =>
    match k.kind with
    | .copy .. => true
    | _ => false
  | none => false

/-- A core sends an HPUT (R197, R254): to a closed entry it is answered STALE_HATCH at once, to the Partner without a
session LINK_UNDELIVERED. -/
def Hw.hput (h : Hw) (p : Nat) (s : Word) (cnt : Nat) (data : List Byte) : Hw :=
  let b := h.body p
  let core := fld s 5 0
  let partner := bitOf s 6
  let k := fld s 10 7
  let answer (status : Nat) : Hw := h.updBody p fun b => b.answered cnt status
  if partner && !h.session then answer Status.undelivered
  else
    let d := b.dirAt (if partner then partnerKey core k else hatchKey core k)
    if !d.isOpen then answer Status.staleHatch
    else h.send p (if partner then stopPartner else h.phys core)
      (.write b.logical b.part (if partner then 64 * 16 + hatchKey core k else k) (fld s 27 11) d.gen data []
        (some cnt) 0 b.ctxId b.genOf (h.ageOf b.part))

/-! ### Arrival (R255) -/

/-- The owner of a core Hatch admits a sender (R255 row 1). -/
def Hw.admits (h : Hw) (src dst logical : Nat) (x : Hatch) : Bool :=
  if src = stopPartner then x.partner
  else match (h.logicalOf dst).bind h.partOf with
    | some p => (h.partMask p).testBit logical
    | none => false

/-- Rows 1 to 4 of Table "Arrival checks" for a core Hatch: the answer of a write that is discarded. -/
def Hw.arrivalCheck (h : Hw) (src dst logical k offset : Nat) (stamp : BitVec 8) : Option Status :=
  let x := (h.body dst).hatch k
  if !h.admits src dst logical x then some Status.faultFirewall
  else if !x.isOpen || stamp != x.gen then some Status.staleHatch
  else if x.words < offset + 8 then some Status.faultPermission
  else if !granulesUp (h.up dst) (32 * (x.base + offset)) 256 then some Status.faultPermission
  else none

/-- The same rows for a Loft Hatch, whose owner is the Caller (R260). -/
def Hw.loftArrivalCheck (h : Hw) (src logical n offset : Nat) (stamp : BitVec 8) : Option Status :=
  let x := h.loftHatch n
  let ok := if src = stopPartner then x.partner else x.senders.getLsbD logical
  if !ok then some Status.faultFirewall
  else if !x.isOpen || stamp != x.gen then some Status.staleHatch
  else if x.words < offset + 8 then some Status.faultPermission
  else none

/-- An accepted write enters the arrival buffer (R226), which holds 32 units. -/
def Hw.bufferArrival (h : Hw) (dst : Nat) (a : Arrival) : Hw :=
  h.updBody dst fun b =>
    let b := { b with arrivals := b.arrivals ++ [a] }
    b.setHatch a.hatch { b.hatch a.hatch with accepted := (b.hatch a.hatch).accepted + 1 }

/-- An accepted write to a Loft Hatch is written by the slice's port, and its counter advances (R260). -/
def Eff.loftArrival (e : Eff) (n offset : Nat) (data : List Byte) (poison : List Bool) : Eff :=
  let x := e.hw.loftHatch n
  (e.loftWrite (x.base + offset) data poison).up fun h => h.setLoftHatch n { x with cnt := x.cnt + 1 }

/-- A Hatch write arrives (R255). A core whose arrival buffer is full takes none (R226). -/
def Eff.arrive (e : Eff) (i : Nat) : Eff :=
  match e.hw.arrivable i with
  | none => e
  | some m =>
    match m.body with
    | .write logical _ k offset stamp data poison hput item ctx gen age =>
      let answer (h : Hw) (st : Status) : Hw := h.send m.dst m.src (.answer st hput item ctx gen)
      if m.dst = stopCaller then
        match e.hw.loftArrivalCheck m.src logical (k - 2048) offset stamp with
        | some st => e.up fun h => answer (h.taken i) st
        | none =>
          -- a way that is being cleared takes no access (R246)
          if e.hw.loftBusy ((e.hw.loftHatch (k - 2048)).base + offset) then e
          else ((e.up fun h => h.taken i).loftArrival (k - 2048) offset data poison).up fun h => answer h Status.ok
      else if m.dst = stopPartner then e
      else if 32 ≤ (e.hw.body m.dst).arrivals.length then e
      else e.up fun h =>
        let h := h.taken i
        match h.arrivalCheck m.src m.dst logical k offset stamp with
        | some st => answer h st
        | none =>
          let b := h.body m.dst
          (h.bufferArrival m.dst
            { addr := 32 * ((b.hatch k).base + offset), data, poison, hatch := k, gen := stamp, src := m.src, hput,
              item, ctx, ctxGen := gen }).lowerAge b.part age
    | _ => e

/-- Slot 6 writes the oldest buffered arrival; the counter of its Hatch advances and its sender is answered (R226, R255
row 5). A write whose Hatch has closed meanwhile is discarded as stale (R259). -/
def Eff.arrivalWrite (e : Eff) (p : Nat) : Eff :=
  match (e.hw.body p).arrivals with
  | [] => e
  | a :: _ =>
    let x := (e.hw.body p).hatch a.hatch
    let live := x.isOpen && x.gen == a.gen
    let e := if live then e.slotWords p 6 a.addr a.data a.poison else e
    e.up fun h =>
      let h := h.updBody p fun b =>
        let b := { b with arrivals := b.arrivals.drop 1 }
        if live then
          let b := b.setHatch a.hatch { b.hatch a.hatch with accepted := (b.hatch a.hatch).accepted - 1 }
          b.countC (b.hatch a.hatch).cnt 1
        else b
      h.send p a.src (.answer (if live then Status.ok else Status.staleHatch) a.hput a.item a.ctx a.ctxGen)

/-- Slot 6 serves an arrival buffer until it is empty, in order of arrival (R226). -/
def Eff.serveArrivals (e : Eff) (p : Nat) : Eff := e.each (e.hw.body p).arrivals fun e _ => e.arrivalWrite p

/-- A stream's or a Gather Unit's unit passes through the arrival buffer of its core: slot 6 writes what arrived before
it, and then the unit (R226, log entry 98). -/
def Eff.arrivalUnit (e : Eff) (p a : Nat) (bs : List Byte) (poison : List Bool) : Eff :=
  let e := e.serveArrivals p
  if bs.length % 32 = 0 then e.slotWords p 6 a bs poison else e.slotWrite p 6 a bs (poison.any id)

/-! ### Answers, notices and replies -/

/-- The core still runs the kernel that sent the write. -/
def CoreBody.runs (b : CoreBody) (ctx gen : Nat) : Bool := b.loaded && b.ctxId == ctx && b.genOf == gen

/-- The answer to a TO_HATCH piece of a core DMA item (09 R378): the first status other than OK stays in the flags. -/
def CoreBody.pieceAnswered (b : CoreBody) (id status : Nat) : CoreBody :=
  { b with
    dmaQ := b.dmaQ.map fun x => if x.id = id then { x with pieces := x.pieces - 1 } else x
    flags := b.flags ||| answerFlag status }

/-- An answer reaches the core that sent the write (R179, R256). -/
def Eff.hatchAnswer (e : Eff) (i : Nat) : Eff :=
  match e.hw.arrivable i with
  | none => e
  | some m =>
    match m.body with
    | .answer status hput item ctx gen =>
      if m.dst = stopPartner then e
      else
        let e := e.up fun h => h.taken i
        if !(e.hw.body m.dst).runs ctx gen then e
        else
          let e := e.up fun h => h.updBody m.dst fun b =>
            match hput with
            | some cnt => b.answered cnt status
            | none => b.pieceAnswered item status
          e.when (status == Status.faultFirewall || status == Status.faultPermission) fun e => e.killCore m.dst status
    | _ => e

/-- A notice reaches a core: its directory entry follows, and a CLOSE awaits its reply (R252, R258). -/
def Hw.hatchNotice (h : Hw) (i : Nat) : Hw :=
  match h.arrivable i with
  | none => h
  | some m =>
    match m.body with
    | .notice key gen open_ =>
      if m.dst = stopPartner then h
      else
        let h := (h.taken i).updBody m.dst fun b => b.setDir key ⟨gen, open_⟩
        if open_ then h else h.updLoft fun l => { l with replies := l.replies ++ [(m.dst, key, gen)] }
    | _ => h

/-- A write of core `p` to the Hatch of a directory key is on the mesh. -/
def Hw.writesOut (h : Hw) (p key : Nat) : Bool :=
  h.loft.mesh.any fun m =>
    m.src == p &&
    match m.body with
    | .write _ _ k .. =>
      if 2048 ≤ key then m.dst == stopCaller && k == key
      else if 1024 ≤ key then m.dst == stopPartner && k == key
      else m.dst == h.phys (key / 16) && k == key % 16
    | _ => false

/-- One awaited reply to a close has come (R258). -/
def Hw.closeReplied (h : Hw) (key : Nat) (gen : BitVec 8) (who : Nat) : Hw :=
  if 2048 ≤ key then
    let x := h.loftHatch (key - 2048)
    if x.closing && x.gen == gen then h.setLoftHatch (key - 2048) { x with awaiting := x.awaiting.erase who } else h
  else
    let p := h.phys (key / 16)
    let x := (h.body p).hatch (key % 16)
    if x.closing && x.gen == gen then
      h.updBody p fun b => b.setHatch (key % 16) { b.hatch (key % 16) with awaiting := (b.hatch (key % 16)).awaiting.erase who }
    else h

/-- A core replies to a CLOSE notice once every write it sent before has reached the owner (R258). For a Hatch of the
Partner the reply goes out by the link (11 R462). -/
def Hw.hatchCloseReply (h : Hw) (p key : Nat) : Hw :=
  match h.loft.replies.find? fun r => r.1 == p && r.2.1 == key with
  | none => h
  | some r =>
    if h.writesOut p key then h
    else
      let h := h.updLoft fun l => { l with replies := l.replies.erase r }
      if 1024 ≤ key && key < 2048 then h.send p stopPartner (.notice key r.2.2 false)
      else match h.logicalOf p with
        | some l => h.closeReplied key r.2.2 l
        | none => h

end Sys2Proof.Machine
end

