-- ==== Sys2Proof/Machine/LinkOps.lean ====
section
/-!
DEFINITION. What the rest of the engine asks of the links: frames for the Partner, cutTime time, Partnership Cuts and
Counted Launch (11_links_and_partnership.md R455, R477 to R479).
-/
namespace Sys2Proof.Machine

open Sys2Proof

/-! The HTP types of Table "HTP types". -/
namespace HtpType
def opening : Nat := 0
def openAck : Nat := 1
def ack : Nat := 2
def data : Nat := 3
def answer : Nat := 4
def notice : Nat := 5
def noticeReply : Nat := 6
def mirror : Nat := 7
def mirrorCommit : Nat := 8
def heartbeat : Nat := 9
def cutArrive : Nat := 10
def opExchange : Nat := 11
end HtpType

/-- The engine has a Partner (R468). -/
def Hw.partnered (h : Hw) : Bool := h.regBit Reg.ptnCfg 17

/-- ROLE_STATE (Table "Role states"). -/
def Hw.role (h : Hw) : Nat := h.regFld Reg.ptnStatus 2 0

/-- A sequenced frame for the Partner joins those that wait for the window (R458). -/
def Hw.htpSend (h : Hw) (typ count : Nat) (args payload : List Byte) : Hw :=
  let a := args ++ List.replicate (16 - args.length) 0
  h.updPartner fun p => { p with waiting := p.waiting ++ [⟨typ, 0, count, a, payload, []⟩] }

/-- The PTN_CTRL vector: role, session and mirror events. -/
def Hw.ptnIrq (h : Hw) : Hw := h.irqOf Reg.ptnCtrl 22 16

/-! ### Cuts (R477 to R479) -/

/-- Dealer time plus CUT_CAL, in units of 2^-32 ns. -/
def Hw.cutTime (h : Hw) : Int := (h.dealer.time : Int) + (h.reg Reg.cutCal).toInt * 2 ^ 24

/-- The armed Counted Launch slot of a barrier. -/
def Hw.launchSlot (h : Hw) (part id : Nat) : Option Nat :=
  (List.range 8).find? fun n =>
    h.regBit (Reg.clCtrl n) 31 && h.regFld (Reg.clCtrl n) 11 8 == id && h.regFld (Reg.clCtrl n) 3 0 == part

/-- CL_TIME of a slot has come. -/
def Hw.launchPassed (h : Hw) (n : Nat) : Bool := decide (((h.reg64 (Reg.clTime n) * 2 ^ 32 : Nat) : Int) ≤ h.cutTime)

/-- The run of a barrier that waits for an agreed time. -/
def Hw.cutRun (h : Hw) (part id : Nat) : Option CutRun := h.partner.cuts.find? fun c => c.part == part && c.id == id

def Hw.setCutRun (h : Hw) (part id : Nat) (c : Option CutRun) : Hw :=
  h.updPartner fun p => { p with cuts := p.cuts.filter (fun c => !(c.part == part && c.id == id)) ++ c.toList }

/-- The Partner's arrivals at a barrier that are known, with the use of each. -/
def Hw.cutOthers (h : Hw) (part id : Nat) : List (Nat × Int) := (h.cutRun part id).elim [] CutRun.others

/-- Releases of a barrier since the session opened. -/
def Hw.useOf (h : Hw) (part id : Nat) : Nat := Tbl.get (fun _ => 0) h.partner.uses (16 * part + id)

/-- T_rel, once both arrivals of the same use are known. -/
def Hw.releaseAt (h : Hw) (c : CutRun) : Option Int :=
  match c.own, (c.others.find? fun x => x.1 == c.use).map Prod.snd with
  | some a, some b => some (max a b + (h.regFld Reg.cutLead 19 0 * 2 ^ 32 : Nat))
  | _, _ => none

/-- A T_rel that has passed when it is known is counted. -/
def Hw.cutLate (h : Hw) (c : CutRun) : Hw :=
  match h.releaseAt c with
  | some t => if t ≤ h.cutTime then h.satReg (Reg.ptnCnt 6) else h
  | none => h

/-- The last participant has arrived at a Partnership Cut: T_a is taken and CUT_ARRIVE goes out. -/
def Hw.cutOwn (h : Hw) (part id : Nat) : Hw :=
  let t := h.cutTime
  let use := h.useOf part id % 2 ^ 16
  let c : CutRun := ⟨part, id, use, some t, h.cutOthers part id, none⟩
  let ns := wrap 64 (t / 2 ^ 32)
  let frac := wrap 32 t
  ((h.setCutRun part id (some c)).cutLate c).htpSend HtpType.cutArrive 0
    (leBytes 1 part ++ leBytes 1 id ++ leBytes 2 use ++ leBytes 4 frac ++ leBytes 8 ns) []

/-- The Partner's arrival at a barrier. -/
def Hw.cutOther (h : Hw) (part id use : Nat) (t : Int) : Hw :=
  let c := (h.cutRun part id).getD ⟨part, id, use, none, [], none⟩
  let c := { c with others := c.others.filter (fun x => x.1 != use) ++ [(use, t)] }
  let h := h.setCutRun part id (some c)
  if use = c.use then h.cutLate c else h

/-- A use of a barrier is over: arrivals of the Partner for later ones stay. -/
def Hw.cutOver (h : Hw) (part id : Nat) : Hw :=
  let later := (h.cutOthers part id).filter fun x => x.1 != h.useOf part id % 2 ^ 16
  h.setCutRun part id (if later.isEmpty then none else some ⟨part, id, 0, none, later, none⟩)

end Sys2Proof.Machine
end

