-- ==== Sys2Proof/Machine/Bundles.lean ====
section
/-!
DEFINITION. A syllable offered to a core and what its bundle sends out; Cuts; Redeal signatures
(05_core_program.md R171 to R185; 12_functional_safety.md R500).
-/
namespace Sys2Proof.Machine

open Sys2Proof

/-! ### Redeal signatures (12 R500) -/

def Hw.sigOf (h : Hw) (p : Nat) : SigRun := Tbl.get (fun _ => SigRun.start) h.caller.sig p
def Hw.setSig (h : Hw) (p : Nat) (s : SigRun) : Hw :=
  h.updCaller fun c => { c with sig := Tbl.put (fun _ => SigRun.start) c.sig p s }

/-- The kernel that runs on a partition is a primary or a copy of a Redeal pair. -/
def Hw.isRedeal (h : Hw) (part : Nat) : Bool :=
  match h.kernel? part with
  | some k => k.kind != .plain
  | none => false

/-- Put a chunk in order of offset. -/
def insertChunk (c : Nat × List Byte) : List (Nat × List Byte) → List (Nat × List Byte)
  | [] => [c]
  | x :: xs => if c.1 < x.1 then c :: x :: xs else x :: insertChunk c xs

/-- The bytes of an item's chunks in ascending offset. -/
def chunkBytes (cs : List (Nat × List Byte)) : List Byte :=
  ((cs.foldl (fun t c => insertChunk c t) []).map Prod.snd).flatten

/-- Enter what stands at the front and is complete; a window closes at its mark, and the 64th takes all that follows. -/
def SigRun.settle : Nat → SigRun → SigRun
  | 0, s => s
  | n + 1, s =>
    match s.parts with
    | .bytes bs :: q => SigRun.settle n { s with crc := crc32Run s.crc bs, parts := q }
    | .item _ cs true :: q => SigRun.settle n { s with crc := crc32Run s.crc (chunkBytes cs), parts := q }
    | .mark :: q =>
      SigRun.settle n (if s.windows.length < 63 then
          { crc := 0xFFFFFFFF, windows := s.windows ++ [s.crc ^^^ 0xFFFFFFFF], parts := q }
        else { s with parts := q })
    | _ => s

/-- Add a contribution of core `p` in issue order. -/
def Hw.sign (h : Hw) (p : Nat) (x : SigPart) : Hw :=
  if h.isRedeal (h.body p).part && (h.body p).loaded then
    let s := h.sigOf p
    h.setSig p (SigRun.settle (s.parts.length + 1) { s with parts := s.parts ++ [x] })
  else h

/-- Bytes of a core DMA item leave the core: they enter its signature. -/
def Hw.signChunk (h : Hw) (p id off : Nat) (bs : List Byte) : Hw :=
  let s := h.sigOf p
  h.setSig p { s with parts := s.parts.map fun x =>
    match x with
    | .item i cs d => if i = id then .item i (cs ++ [(off, bs)]) d else x
    | _ => x }

/-- A core DMA item of core `p` has completed. -/
def Hw.signDone (h : Hw) (p id : Nat) : Hw :=
  let s := h.sigOf p
  let parts := s.parts.map fun x =>
    match x with
    | .item i cs d => .item i cs (d || i == id)
    | _ => x
  h.setSig p (SigRun.settle parts.length { s with parts })

/-- The windows of core `p` at HALT. -/
def SigRun.final (s : SigRun) : List Word := s.windows ++ [s.crc ^^^ 0xFFFFFFFF]

/-! ### Where a Redeal copy's messages go (12 R499, R500) -/

/-- The logical core that a core's program means by `l`: itself, or in a copy the core of the copy partition that serves
the rank of `l` in the primary partition; none where a copy names a core outside its partition. -/
def Hw.mapLogical (h : Hw) (part l : Nat) : Option Nat :=
  match h.kernel? part with
  | some k =>
    match k.kind with
    | .copy _ rot =>
      match (h.partCores k.job.part).idxOf? l with
      | some r => (h.partCores part)[(r + rot) % (h.partCores part).length]?
      | none => none
    | _ => some l
  | none => some l

/-- An HPUT issues: bytes that leave the partition enter the signature; a copy sends none of them and they are answered
OK (12 R500). -/
def Hw.hputIssued (h : Hw) (p : Nat) (s : Word) (cnt : Nat) (data : List Byte) : Hw :=
  let b := h.body p
  let own := if h.isCopy b.part then ((h.kernel? b.part).map fun k => k.job.part).getD b.part else b.part
  let leaves := bitOf s 6 || !(h.partMask own).testBit (fld s 5 0)
  let h := if leaves then h.sign p (.bytes data) else h
  if leaves && h.isCopy b.part then h.updBody p fun b => b.answered cnt Status.ok
  else h.hput p (match h.mapLogical b.part (fld s 5 0) with | some l => setFld s 5 0 l | none => s) cnt data

/-! ### Cuts (R182, R183) -/

/-- Physical cores of the kernel that runs on a partition which wait at a barrier that has not been released. -/
def Hw.cutWaiters (h : Hw) (part : Nat) : List Nat :=
  (h.partPhys part).filter fun p =>
    (h.body p).cut.any fun c => c.release.isNone

/-- Cores of a partition that wait at a Partnership Cut: at a barrier at which a CUT with x = 1 waits, on a partnered engine,
that no Counted Launch is bound to (11 R463, R477, R479). -/
def Hw.ptnWaiters (h : Hw) (part : Nat) : List Nat :=
  let ws := h.cutWaiters part
  let ids := ws.filterMap fun p => ((h.body p).cut.filter CutWait.x).map CutWait.id
  if !h.partnered || h.isCopy part then []
  else ws.filter fun p => (h.body p).cut.any fun c => ids.contains c.id && (h.launchSlot part c.id).isNone

/-- Cores that wait at a barrier raise CUT_ABANDONED. -/
def Eff.abandonCut (e : Eff) (waiting : List Nat) : Eff :=
  match waiting with
  | [] => e
  | p :: _ =>
    let e := (e.settleAll waiting).each waiting fun e p => e.up fun h => h.stopBody p fun b =>
      { b with run := .trapped, trapCause := trapWord false b.pc 0 trapCutAbandoned, trapAddr := 0 }
    e.trap p trapCutAbandoned

/-- A participant has halted while others wait: every waiting core raises CUT_ABANDONED (R183). -/
def Eff.cutAbandoned (e : Eff) (part : Nat) : Eff :=
  let halted := (e.hw.partPhys part).any fun p => (e.hw.body p).run == .idle && (e.hw.body p).loaded
  if halted then e.abandonCut (e.hw.cutWaiters part) else e

/-- Cycle 0 of the stagger and the ramp: a core's first issued cycle at or after the release of its barrier (03 R127).
`before` is its clock in the cycle before. -/
def CoreBody.atRelease (b : CoreBody) (before : Nat) : CoreBody :=
  match b.cut.bind CutWait.release with
  | some t => if before < t && t ≤ b.clock then { b with mx := { b.mx with ramp := some ⟨0, none⟩ } } else b
  | none => b

/-- The clock at which barrier `id` of a partition is released: the first cycle of wheel position 0 at least 4 CCLK
after the last arrival (R182); where the release was decided later, the next such cycle of all cores. -/
def Hw.releaseClock (h : Hw) (part id : Nat) : Nat :=
  let cs := h.partPhys part
  let last := cs.foldl (fun n p => match (h.body p).cut with
    | some c => if c.id = id then max n c.arrived else n
    | none => n) 0
  let now := cs.foldl (fun n p => max n (h.body p).clock) 0
  let t := 8 * ceilDiv (last + 4) 8
  if now ≤ t then t else 8 * (now / 8 + 1)

/-- Release the barrier `id` on every core of a partition, in one cycle (R182). A slot of a Counted Launch disarms (11
R479). -/
def Hw.releaseCut (h : Hw) (part id : Nat) : Hw :=
  let t := h.releaseClock part id
  let h := (h.partPhys part).foldl (fun h p => h.updBody p fun b =>
    match b.cut with
    | some c => if c.id = id then
        { b with cut := some { c with release := some t } }.atRelease (b.clock - 1) else b
    | none => b) h
  let h := match h.launchSlot part id with
    | some n => h.setRegBit (Reg.clCtrl n) 31 false
    | none => h
  (h.cutOver part id).updPartner fun q =>
    { q with uses := Tbl.upd (fun _ => 0) q.uses (16 * part + id) fun n => n + 1 }

/-- Every core of a partition has arrived at barrier `id`, and whether the barrier spans the Partnership: with x = 1 on
a partnered engine (11 R477); in a Redeal copy x = 1 acts as x = 0 (12 R499). -/
def Hw.cutComplete (h : Hw) (part id : Nat) : Option Bool :=
  let cs := h.partPhys part
  let at_ (p : Nat) : Option Bool :=
    match (h.body p).cut with
    | some c => if c.id = id && c.release.isNone then some c.x else none
    | none => none
  if cs.isEmpty || cs.any fun p => (at_ p).isNone then none
  else some ((cs.any fun p => at_ p == some true) && h.partnered && !h.isCopy part)

/-- The last participant has arrived at a barrier (11 R477, R479): a Counted Launch whose time is to come waits for it; a
Partnership Cut goes to the Partner, or is abandoned while no session is up (11 R463). -/
def Eff.cutReached (e : Eff) (part id : Nat) : Eff :=
  match e.hw.cutComplete part id with
  | none => e
  | some cross =>
    match e.hw.launchSlot part id with
    | some n =>
      e.up fun h => h.setCutRun part id
        (some ⟨part, id, 0, none, h.cutOthers part id, if h.launchPassed n then none else some n⟩)
    | none =>
      if !cross then e
      else if e.hw.session then e.up fun h => h.cutOwn part id
      else e.abandonCut (e.hw.cutWaiters part)

/-- CUT_RELEASE: the engine releases a barrier at which every participant has arrived (R182). One that waits for an
agreed time is released by CUT_PTN_RELEASE; a Counted Launch whose time had passed is late (11 R479). -/
def Hw.cutRelease (h : Hw) (part id : Nat) : Hw :=
  match h.cutComplete part id with
  | none => h
  | some cross =>
    match h.launchSlot part id with
    | some n =>
      if (h.cutRun part id).any (fun c => c.launch.isSome) || !h.launchPassed n then h
      else (h.releaseCut part id).satReg (Reg.ptnCnt 7)
    | none => if cross then h else h.releaseCut part id

/-- CUT_PTN_RELEASE: the agreed time, or the time of a Counted Launch, has come (11 R477, R479). -/
def Hw.cutPtnRelease (h : Hw) (part id : Nat) : Hw :=
  match h.cutComplete part id, h.cutRun part id with
  | some _, some c =>
    match c.launch with
    | some n => if h.launchPassed n then h.releaseCut part id else h
    | none =>
      match h.releaseAt c with
      | some t => if t ≤ h.cutTime then h.releaseCut part id else h
      | none => h
  | _, _ => h

/-- A core that waits at a barrier stands still: until every participant that has not arrived has come as far in time,
and, once all have arrived, from the cycle of the release until CUT_RELEASE has made it (R182, log entry 98). -/
def Hw.cutHolds (h : Hw) (p : Nat) : Bool :=
  let b := h.body p
  match b.cut with
  | some c =>
    c.release.isNone &&
    match h.cutComplete b.part c.id with
    | some cross => !cross && (h.launchSlot b.part c.id).isNone && decide (h.releaseClock b.part c.id ≤ b.clock)
    | none => (h.partPhys b.part).any fun q =>
        let o := h.body q
        o.canIssue && !(o.cut.any fun d => d.id == c.id) && decide (o.clock < b.clock)
  | none => false

/-! ### Traps of one cycle (R214) -/

/-- The core whose trap ends the kernel of a partition: of those that trapped in the earliest cycle the lowest logical
core (R214). -/
def Hw.firstTrapped (h : Hw) (part : Nat) : Option Nat :=
  let cs := (h.partPhys part).filter fun p => (h.body p).run == .trapped && (h.body p).loaded
  let t := cs.foldl (fun n p => min n (h.body p).clock) (((cs.head?).map fun p => (h.body p).clock).getD 0)
  cs.find? fun p => (h.body p).clock == t

/-- Once no core of the kernel has that cycle still before it, the trap ends the kernel (R214, log entry 98). -/
def Eff.settleTraps (e : Eff) (part : Nat) : Eff :=
  match e.hw.firstTrapped part with
  | none => e
  | some p =>
    let t := (e.hw.body p).clock
    if (e.hw.partPhys part).any fun q => (e.hw.body q).canIssue && decide ((e.hw.body q).clock < t) then e
    else e.trap p (fld (e.hw.body p).trapCause 7 0)

/-! ### Syllables -/

/-- What one message of an issuing core does outside it. -/
def Eff.coreOut (p : Nat) (e : Eff) : CoreOut → Eff
  | .hput s cnt data => e.up fun h => h.hputIssued p s cnt data
  | .captured a =>
    let e := e.pantryErrors p a 32 false
    e.up fun h => h.sign p (.item ((h.body p).dmaNext - 1) [] false)
  | .opened k => e.up fun h => h.hatchOpened p k
  | .closing k => e.up fun h => h.hatchClosing p k
  | .cut id x =>
    let e := e.up fun h => h.updBody p fun b => { b with cut := some ⟨id, x, b.clock - 1, none⟩ }
    (e.cutAbandoned (e.hw.body p).part).cutReached (e.hw.body p).part id
  | .halted => e.cutAbandoned (e.hw.body p).part
  | .gated stream par => e.up fun h =>
      match h.gateAge stream par with
      | some t => h.lowerAge (h.body p).part t
      | none => h
  | .trapped .. => e

/-- The capture of a DMAQ reads the Pantry in the issue cycle, before the writes of the cycle (R193). -/
def CoreOut.isCapture : CoreOut → Bool
  | .captured _ => true
  | _ => false

/-- Core `p` may not begin the bundle of its cycle yet: it is in hold cycles, work of the cycle comes first, or it stands
still at a barrier. -/
def Hw.issueHeld (h : Hw) (p : Nat) : Bool := h.held p || h.cycleDue p || h.cutHolds p

/-- A bundle of core `p` has come to its end and sends `outs`: the capture of a DMAQ, the end of the cycle, and then what
goes out of the core. `before` is the core before the bundle. -/
def Eff.bundleEnded (e : Eff) (p : Nat) (before : CoreBody) (outs : List CoreOut) : Eff :=
  let e := e.each (outs.filter CoreOut.isCapture) (Eff.coreOut p)
  let e := (e.endCycle p).up fun h => h.updBody p fun b => b.atRelease before.clock
  let e := e.each (outs.filter fun o => !o.isCapture) (Eff.coreOut p)
  let e := if (e.hw.body p).tricks ≠ before.tricks then e.up fun h => h.sign p .mark else e
  e.settleTraps before.part

/-- Offer the syllable of slot `k` to core `p`: `mk` builds it from the hardware, the Pantry, the core before the bundle
and the core with the earlier slots' effects. A core in hold cycles issues nothing; the bundle of a cycle begins only
after the work of the units that belongs to the cycle, and with slot 3 the cycle ends. -/
def Eff.syllable (e : Eff) (p k : Nat) (mk : Hw → PantryView → CoreBody → CoreBody → Syl) : Eff :=
  if e.hw.held p || (k == 0 && e.hw.issueHeld p) then e
  else
    let before := e.hw.body p
    let (c, outs) := (e.hw.core p).offer k (mk e.hw ⟨e.mem, p⟩)
    let e := e.up fun h => h.setCore p c
    if (e.hw.body p).cycle = before.cycle then e else e.bundleEnded p before outs

/-- A unit of core `p` acts between bundles; in hold cycles slots 0 to 5 and the matrix unit stand still (06 R225, 03
R124). -/
def Eff.unit (e : Eff) (p : Nat) (f : Eff → Eff) : Eff :=
  if e.hw.held p || !e.hw.between p || e.hw.cutHolds p then e else f e

/-! ### The program (R169) -/

/-- Bundle `i` of the region of the kernel, and byte `n` of the Instruction Store: a bundle lies there little-endian. -/
def CoreBody.bundleAt (b : CoreBody) (i : Nat) : BitVec 128 := Tbl.get (fun _ => 0) b.istore (b.ibase + i)
def CoreBody.storeByte (b : CoreBody) (n : Nat) : Byte := (Tbl.get (fun _ => 0) b.istore (n / 16)).extractLsb' (8 * (n % 16)) 8

/-- The commands that the program of core `p` has next: the syllables of the bundle at its PC, slot 0 first. The sender of the
commands of a core sends these (log entry 104). -/
def Hw.program (h : Hw) (p : CoreIx) : List Instr := decodeBundle p ((h.body p).bundleAt (h.body p).pc)

end Sys2Proof.Machine
end

