-- ==== Sys2Proof/Machine/State.lean ====
section
/-!
DEFINITION. The state of the machine: the hardware, the on-chip memory, and the commands that wait, first in, first
out. No command of this model ends in a fault: every row either has its effect or is not enabled and leaves the
hardware as it is (log entry 1).
-/
namespace Sys2Proof.Machine

open Sys2Proof

/-- The state. -/
structure State where
  hw : Hw
  mem : Memory
  /-- The commands that wait, the next one first. -/
  pending : List Instr
deriving DecidableEq, Repr

/-- Why a step faults. No command raises one: what the spec makes a fault is an effect on the state. -/
inductive Fault where
  /-- Raised by no command; a machine that stops here stops safely. -/
  | never
deriving DecidableEq, Repr

/-- Why a step is refused. -/
inductive Refusal where
  /-- Raised by an arm of `exec` whose command has no meaning yet: safe, the machine stops. -/
  | notModelled (mnemonic : String)
deriving DecidableEq, Repr

/-- The hardware right after a power-up: every register at its reset value, every unit empty (log entries 3, 4, 7). -/
def Hw.reset : Hw :=
  { regs := [], shadow := [], captured := none, snaps := [], staged := [], cores := [], serves := [],
    loft := Loft.reset, caller := Caller.reset, atu := Atu.reset, dealer := Dealer.reset, streams := [], offers := [],
    safety := Safety.reset, coffer := Coffer.reset, boot := Boot.reset, power := Power.reset, links := [],
    partner := Partner.start, rdata := 0, irqOffer := none, outs := [], free := 0 }

/-- The machine right after reset, with no command waiting. -/
def State.reset : State := { hw := Hw.reset, mem := Memory.empty, pending := [] }

end Sys2Proof.Machine
end

