-- ==== Sys2Proof/Machine/Done.lean ====
section
/-!
DEFINITION. From an effect to the next state.
-/
namespace Sys2Proof.Machine

open Sys2Proof

/-- Answer the next state that an effect gives; the queue is as it was. -/
def State.done (s : State) (f : Eff → Eff) : Host.Outcome State Fault Refusal :=
  let e := f (Eff.start s.hw s.mem)
  .next { s with hw := e.hw, mem := s.mem.applyAll e.wr }

/-- Offer a syllable of slot `k` to core `p` (05 R171 to R174). -/
def State.syl (s : State) (p k : Nat) (mk : Hw → PantryView → CoreBody → CoreBody → Syl) :
    Host.Outcome State Fault Refusal :=
  s.done fun e => e.syllable p k mk

end Sys2Proof.Machine
end

