-- ==== Sys2Proof/Machine/Address.lean ====
section
/-!
DEFINITION. The meanings of slot 1 and of the units that it starts (05_core_program.md R186 to R197).
-/
namespace Sys2Proof.Machine

open Sys2Proof

/-- `AMOV`: Move a zero-extended scalar into an address register (R186). -/
def execAmov (p : CoreIx) (d : Fin 16) (a : Fin 32) (s : State) : Host.Outcome State Fault Refusal :=
  s.syl p 1 fun _ _ b _ => sylAmov d a b

/-- `AMOVH`: Set bits [47:32] of an address register (R186). -/
def execAmovh (p : CoreIx) (d : Fin 16) (a : Fin 32) (s : State) : Host.Outcome State Fault Refusal :=
  s.syl p 1 fun _ _ b _ => sylAmovh d a b

/-- `AADD`: Add a sign-extended scalar to an address register (R186). -/
def execAadd (p : CoreIx) (d x : Fin 16) (a : Fin 32) (s : State) : Host.Outcome State Fault Refusal :=
  s.syl p 1 fun _ _ b _ => sylAadd d x a b

/-- `AADDI`: Add a sign-extended immediate to an address register (R186). -/
def execAaddi (p : CoreIx) (d x : Fin 16) (imm : BitVec 16) (s : State) : Host.Outcome State Fault Refusal :=
  s.syl p 1 fun _ _ b _ => sylAaddi d x imm b

/-- `AMOVS`: Move the low 32 bits of an address register to a scalar (R186). -/
def execAmovs (p : CoreIx) (d : Fin 32) (x : Fin 16) (s : State) : Host.Outcome State Fault Refusal :=
  s.syl p 1 fun _ _ b _ => sylAmovs d x b

/-- `VLD`: Enqueue a 256-byte vector load through slot 3 (R188). -/
def execVld (p : CoreIx) (d : Fin 32) (x : Fin 16) (inc : Bool) (imm : BitVec 14) (s : State) : Host.Outcome State
    Fault Refusal :=
  s.syl p 1 fun h _ b _ => sylLoad true d x inc imm.toInt (h.up p) b

/-- `SLD`: Enqueue a 4-byte scalar load through slot 3 (R188). -/
def execSld (p : CoreIx) (d : Fin 32) (x : Fin 16) (inc : Bool) (imm : BitVec 14) (s : State) : Host.Outcome State
    Fault Refusal :=
  s.syl p 1 fun h _ b _ => sylLoad false d x inc imm.toInt (h.up p) b

/-- `LOAD_ACCESS`: A queued load makes its Pantry access; the data lands 7 cycles later (R188). -/
def execLoadAccess (p : CoreIx) (s : State) : Host.Outcome State Fault Refusal :=
  s.done fun e => e.unit p fun e => e.loadAccess p

/-- `STORE_ACCESS`: A queued store makes its Pantry write through slot 4 (R189). -/
def execStoreAccess (p : CoreIx) (s : State) : Host.Outcome State Fault Refusal :=
  s.done fun e => e.unit p fun e => e.storeAccess p

/-- `AGSET`: Set a generator field from a scalar register (R191). -/
def execAgset (p : CoreIx) (f : Fin 64) (a : Fin 32) (s : State) : Host.Outcome State Fault Refusal :=
  s.syl p 1 fun _ _ b _ => sylAgset [keyS a] f (b.sr a) b

/-- `AGSETI`: Set a generator field from an immediate (R191). -/
def execAgseti (p : CoreIx) (f : Fin 64) (imm : BitVec 18) (s : State) : Host.Outcome State Fault Refusal :=
  s.syl p 1 fun _ _ b _ => sylAgset [] f (imm.zeroExtend 32) b

/-- `AGGO`: Check the generator fields and extents, then start a walk (R192). -/
def execAggo (p : CoreIx) (s : State) : Host.Outcome State Fault Refusal :=
  s.syl p 1 fun h _ b _ => sylAggo (h.up p) b

/-- `PLANE_LOAD_BEGIN`: The next Window Register plane begins loading through slot 0 (R151). -/
def execPlaneLoadBegin (p : CoreIx) (s : State) : Host.Outcome State Fault Refusal :=
  s.done fun e => e.unit p fun e => e.up fun h => h.updBody p CoreBody.planeBegin

/-- `PLANE_READY`: A plane becomes ready six cycles after its last access (R150). -/
def execPlaneReady (p : CoreIx) (s : State) : Host.Outcome State Fault Refusal :=
  s.done fun e => e.unit p fun e => e.up fun h => h.updBody p fun b => b.planeReady p

/-- `DMAQ`: Capture a core DMA descriptor and enqueue the item (R193). -/
def execDmaq (p : CoreIx) (x : Fin 16) (c : Fin 32) (s : State) : Host.Outcome State Fault Refusal :=
  s.syl p 1 fun h v b _ => sylDmaq x c (h.up p) v b

/-- `FILL`: Enqueue a fill of Pantry words with a repeated value (R194). -/
def execFill (p : CoreIx) (x : Fin 16) (a w c : Fin 32) (s : State) : Host.Outcome State Fault Refusal :=
  s.syl p 1 fun h _ b _ => sylFill x a w c (h.up p) b

/-- `COPY`: Enqueue a copy of Pantry words (R194). -/
def execCopy (p : CoreIx) (d x : Fin 16) (a c : Fin 32) (s : State) : Host.Outcome State Fault Refusal :=
  s.syl p 1 fun h _ b _ => sylCopy d x a c (h.up p) b

/-- `FILL_COPY_START`: A FILL or COPY starts its slot-5 accesses once every earlier queue entry has completed (R227). -/
def execFillCopyStart (p : CoreIx) (s : State) : Host.Outcome State Fault Refusal :=
  s.done fun e => e.unit p fun e => e.fillCopy p

/-- `HOPEN`: Open a core Hatch over a Pantry range and send OPEN notices (R195). -/
def execHopen (p : CoreIx) (k x : Fin 16) (a c : Fin 32) (s : State) : Host.Outcome State Fault Refusal :=
  s.syl p 1 fun _ _ b _ => sylHopen k x a c b

/-- `HCLOSE`: Wait until every accepted write has landed, then close the Hatch and increment its generation (R196). -/
def execHclose (p : CoreIx) (k : Fin 16) (s : State) : Host.Outcome State Fault Refusal :=
  s.syl p 1 fun _ _ b _ => sylHclose k b

/-- `HPUT`: Send 256 bytes of a vector register to a remote Hatch (R197). -/
def execHput (p : CoreIx) (w a c : Fin 32) (s : State) : Host.Outcome State Fault Refusal :=
  s.syl p 1 fun _ _ b _ => sylHput w a c b

/-- `PFENCE`: Stall issue until earlier Pantry writes have been made (R190). -/
def execPfence (p : CoreIx) (s : State) : Host.Outcome State Fault Refusal :=
  s.syl p 1 fun _ _ b _ => sylPfence b

end Sys2Proof.Machine
end

