-- ==== Sys2Proof/Machine/Atu.lean ====
section
/-!
DEFINITION. Address translation, the firewall and faults: page-table entries, translation buffers, the checks of a
request, fault records and the Fault Ring (09_translation_dma_memory_ports.md R353 to R374, R382).
-/
namespace Sys2Proof.Machine

open Sys2Proof

/-! ### Page tables (R355 to R362) -/

/-- The port of an address (R355). -/
def portOf (a : Nat) : Nat := nbits a 10 8 ^^^ nbits a 13 11 ^^^ nbits a 16 14

/-- The entry index of a level (R356). -/
def tableIndex (level va : Nat) : Nat := nbits va (20 + 9 * level) (12 + 9 * level)

/-- Fields of an entry (R357). -/
def entryV (x : DWord) : Bool := x.getLsbD 0
def entryLeaf (x : DWord) : Bool := x.getLsbD 1
def entryR (x : DWord) : Bool := x.getLsbD 2
def entryW (x : DWord) : Bool := x.getLsbD 3
def entry64 (x : DWord) : Bool := x.getLsbD 4
def entryC (x : DWord) : Bool := x.getLsbD 5
def entryAddr (x : DWord) : Nat := nbits x.toNat 47 12 * 4096

/-- The reserved conditions of R358 for an entry read at a level. -/
def entryReserved (level : Nat) (x : DWord) : Bool :=
  nbits x.toNat 11 6 != 0 || nbits x.toNat 63 48 != 0 ||
  (entryLeaf x && level == 3) || (!entryLeaf x && level == 0) ||
  (!entryLeaf x && (entryR x || entryW x || entry64 x || entryC x)) ||
  (entry64 x && level != 0) ||
  (entryLeaf x && level == 2 && nbits x.toNat 29 12 != 0) ||
  (entryLeaf x && level == 1 && nbits x.toNat 20 12 != 0) ||
  (entryLeaf x && level == 0 && entry64 x && nbits x.toNat 15 12 != 0)

/-- log2 of what a leaf maps (R358). -/
def leafShift (level : Nat) (x : DWord) : Nat :=
  match level with
  | 0 => if entry64 x then 16 else 12
  | 1 => 21
  | _ => 30

/-- The physical address that a leaf gives (R358, R359). -/
def leafPa (level : Nat) (x : DWord) (va : Nat) : Nat :=
  let s := leafShift level x
  entryAddr x / 2 ^ s * 2 ^ s + va % 2 ^ s

/-- A leaf admits an access (R361). -/
def leafAdmits (x : DWord) (write : Bool) : Bool := if write then entryW x else entryR x

/-! ### The firewall (R382) -/

/-- First or last page of a region, from its pair. -/
def Hw.fwPage (h : Hw) (o : Nat) : Nat := fld (h.reg o) 31 12 + 2 ^ 20 * fld (h.reg (o + 4)) 15 0

/-- Region `r` holds a physical page. -/
def Hw.fwHolds (h : Hw) (page r : Nat) : Bool :=
  h.regBit (Reg.fwPerm r) 31 && decide (h.fwPage (Reg.fwBase r) ≤ page) && decide (page ≤ h.fwPage (Reg.fwLimit r))

/-- The firewall admits a request: of a partition, or a system request. -/
def Hw.admitted (h : Hw) (pa part : Nat) (sys write : Bool) : Bool :=
  if !h.regBit Reg.fwCtrl 0 then true
  else match (List.range 64).find? (h.fwHolds (pa / 4096)) with
    | none => false
    | some r =>
      if sys then h.regBit (Reg.fwPerm r) (if write then 30 else 29)
      else h.regBit (Reg.fwMasks r) (part + if write then 16 else 0)

/-! ### Translation buffers (R363, R365) -/

/-- An entry of a buffer serves a virtual address of a context and generation. -/
def TbEntry.serves (t : TbEntry) (shift ctx gen va : Nat) : Bool :=
  t.ctx == ctx && t.gen == gen && t.base == va / 2 ^ shift

/-- The leaf a port's buffer holds for an address. -/
def Port.lookup (p : Port) (ctx gen va : Nat) : Option TbEntry :=
  p.tb.find? fun t => t.serves (leafShift t.level t.leaf) ctx gen va

/-- The table entry of the lowest level that a port's walk cache holds for an address: where a walk may begin. -/
def Port.walkStart (p : Port) (ctx gen va : Nat) : Option TbEntry :=
  [1, 2, 3].findSome? fun l => p.walkCache.find? fun t => t.level == l && t.serves (12 + 9 * l) ctx gen va

/-- Install a leaf; the oldest entry leaves a full buffer. -/
def Port.install (p : Port) (t : TbEntry) : Port := { p with tb := (t :: p.tb).take 4096 }

/-- Install a table entry in the walk cache. -/
def Port.installTable (p : Port) (t : TbEntry) : Port := { p with walkCache := (t :: p.walkCache).take 256 }

/-! ### Faults (R367 to R372) -/

/-! The causes of Table "Fault causes". -/
namespace Cause
def translation : Nat := 1
def permission : Nat := 2
def reservedBit : Nat := 3
def entryPoison : Nat := 4
def firewall : Nat := 5
def decode : Nat := 6
def loftFirewall : Nat := 7
end Cause

/-- The status of a cause. -/
def causeStatus (cause : Nat) : Status :=
  if cause = Cause.permission then Status.faultPermission
  else if cause < 5 then Status.faultTranslation
  else Status.faultFirewall

/-- UNIT and UNIT_INDEX of a requester (R367). -/
def Hw.unitOf (h : Hw) : Requester → Nat × Nat
  | .coreDma p _ _ => (0, (h.body p).logical)
  | .engineDma item _ => (1, ((h.atu.engineDma.find? fun d => d.item == item).bind EngineDma.channel).getD 0)
  | .gather gu .. => (2, gu)
  | .other u i => unitIndex u i
  | .own id _ => ((h.own? id).map fun j => unitIndex j.unit_ j.index).getD (3, 0)
  | .walk _ => (3, 0)
where
  unitIndex (u i : Nat) : Nat × Nat := (u, if u = 4 ∨ u = 6 ∨ u = 7 then i % 64 else if u = 1 then i else 0)

/-- The 64 bytes of a fault record. -/
def FaultRec.bytes (f : FaultRec) : List Byte :=
  leBytes 2 (f.ctx % 4096 + 4096 * (f.gen % 16)) ++ leBytes 1 f.part ++ leBytes 1 f.cause ++ leBytes 1 f.unit_ ++
  leBytes 1 f.index ++ leBytes 1 f.flags ++ leBytes 1 f.port ++ leBytes 8 f.va ++ leBytes 8 f.pa ++
  leBytes 8 f.entry.toNat ++ leBytes 8 f.tag.toNat ++ leBytes 8 f.bytesDone ++ leBytes 8 f.time.toNat ++
  leBytes 4 f.seq.toNat ++ leBytes 4 0

/-- Mark the transfer that faulted as paused (R368). -/
def Hw.markPaused (h : Hw) : Requester → Hw
  | .coreDma p id _ => h.updBody p fun b =>
      { b with dmaQ := b.dmaQ.map fun x => if x.id = id then { x with paused := true } else x }
  | .engineDma item _ => h.updAtu fun a =>
      { a with engineDma := a.engineDma.map fun d => if d.item = item then { d with paused := true } else d }
  | .gather gu p dma _ _ => (h.setGatherQ gu ((h.gatherQ gu).map fun j =>
      if j.core = p ∧ j.dma = dma then { j with paused := true } else j)).updBody p fun b =>
        { b with dmaQ := b.dmaQ.map fun x => if x.id = dma then { x with paused := true } else x }
  | .own id _ => h.updOwn id fun j => { j with paused := true }
  | _ => h

/-- Two requesters are one transfer. -/
def sameTransfer : Requester → Requester → Bool
  | .coreDma p i _, .coreDma q j _ => p == q && i == j
  | .engineDma i _, .engineDma j _ => i == j
  | .gather g p d _ _, .gather g' p' d' _ _ => g == g' && p == p' && d == d'
  | .other u i, .other v j => u == v && i == j
  | .own i _, .own j _ => i == j
  | .walk i, .walk j => i == j
  | _, _ => false

/-- A transfer that faulted issues nothing more: its walks go with it (R368). -/
def Hw.pauseTransfer (h : Hw) (w : Requester) : Hw :=
  (h.markPaused w).updAtu fun a => { a with walks := a.walks.filter fun x => !sameTransfer x.acc.who w }

/-- The item of the kernel of a context that a partition has chosen or runs. -/
def Hw.kernelItem (h : Hw) (part ctx : Nat) : List Nat :=
  match h.kernel? part with
  | some k => if k.job.ctx = ctx then [k.job.item] else []
  | none => []

/-- The items that a transfer belongs to: its own, or the item of the kernel that waits on it (R371, R374). An access of a
link port's rings, of the mirror, of a record, a spill or a save area is no item's. -/
def Hw.itemsOfTransfer (h : Hw) (w : Requester) (part ctx : Nat) : List Nat :=
  match w with
  | .engineDma item _ => [item]
  | .other u q => if u = 3 then ((h.queue? q).bind Queue.holdItem).toList else []
  | .own id _ =>
    match h.own? id with
    | none => []
    | some j =>
      match j.goal with
      | .fence _ item _ => [item]
      | .invalidate item => [item]
      | .composition q => (((h.queue? q).bind fun x => x.batch.head?).map Batch.item).toList
      | _ => if j.unit_ = 4 ∨ j.unit_ = 7 then h.kernelItem part ctx else []
  | .walk _ => []
  | _ => h.kernelItem part ctx

/-- The reset that a non-restartable fault causes (R371). -/
def Eff.faultReset (e : Eff) (a : Access) (record : List Byte) : Eff :=
  match a.who with
  | .coreDma p _ _ => e.killKernel (e.hw.body p).part Status.faultFirewall true (e.hw.body p).logical 0 0 record
  | .gather gu p dma _ _ =>
    let e := e.up fun h => h.setGatherQ gu ((h.gatherQ gu).map fun j =>
      if j.core = p ∧ j.dma = dma then { j with status := Status.faultFirewall } else j)
    e.killKernel (e.hw.body p).part Status.faultFirewall true (e.hw.body p).logical 0 0 record
  | .walk _ => e
  | w => e.reset { ctx := a.ctx, status := Status.faultFirewall, counted := true, part := some a.part,
                   own := (e.hw.itemsOfTransfer w a.part a.ctx).map fun i => (i, Status.faultFirewall, (0 : Word)),
                   fault := record }

/-- The queue whose record a transfer writes. -/
def Hw.recordQueue (h : Hw) : Requester → Option Nat
  | .own id _ =>
    match (h.own? id).map OwnJob.goal with
    | some (.record q) => some q
    | _ => none
  | _ => none

/-- A record's write has faulted, or may not have been performed: its queue's records are held back (08 R345). -/
def Hw.recordFails (h : Hw) (w : Requester) : Hw :=
  match h.recordQueue w, w with
  | some q, .own id _ => (h.holdRecords q).dropOwn id
  | _, _ => h

/-- An access faults (R367 to R372): its transfer issues nothing more, its record waits, and a fault that is not
restartable resets the context. A completion-record write reports once until a record of the context is written (08
R345). -/
def Eff.fault (e : Eff) (a : Access) (port cause : Nat) (walk : Bool) (level pa : Nat) (entry : DWord) : Eff :=
  let h := e.hw
  let restart := decide (cause < 5)
  let (u, i) := h.unitOf a.who
  let f : FaultRec :=
    { ctx := a.ctx, gen := a.gen, part := a.part, cause, unit_ := u, index := i,
      flags := a.write.toNat + 2 * a.nopause.toNat + 4 * restart.toNat + 8 * walk.toNat + 16 * (level % 4),
      port, va := if cause = Cause.loftFirewall then 0 else a.va, pa, entry, tag := a.tag, bytesDone := 0, time := h.now,
      seq := h.atu.faultSeq, who := if a.nopause then none else some a.who, status := causeStatus cause }
  let said := a.nopause && ((h.ctx? a.ctx).map Ctx.recFaultSaid).getD false
  let e := if said then e else
    e.up fun h => h.updAtu fun t => { t with faults := t.faults ++ [f], faultSeq := t.faultSeq + 1 }
  let e := e.up fun h =>
    if a.nopause then ((h.pauseTransfer a.who).updCtx a.ctx fun c => { c with recFaultSaid := true }).recordFails a.who
    else h.pauseTransfer a.who
  if restart || said then e else e.faultReset a ({ f with bytesDone := e.hw.doneOf a.who }).bytes

/-- A request of a transfer awaits its response, a piece to a Hatch its answer, or data for the Pantry its slot (R368). -/
def Hw.flying (h : Hw) (w : Requester) : Bool :=
  ((List.range 8).any fun n => (h.port n).reqs.any fun r => !r.orphan && sameTransfer r.who w) ||
  match w with
  | .coreDma p id _ => ((h.body p).dma id).any fun x =>
      x.pieces != 0 || ((x.desc.map fun d => d.kind == 0).getD false && !x.buf.isEmpty)
  | _ => false

/-- A record of a unit waits to be written: the unit issues nothing more until it is (R373). -/
def Hw.unitWaits (h : Hw) (w : Requester) : Bool :=
  h.atu.faults.any fun f => (f.unit_, f.index) == h.unitOf w && !(f.who.map h.flying).getD false

/-! ### The Fault Ring (R372, R373) -/

/-- log2 of a ring's records: 4 to 12, other values read as 4. -/
def ringLog (w : Word) : Nat := let n := fld w 7 4; if 4 ≤ n ∧ n ≤ 12 then n else 4

/-- A physical base of a ring, 4 KiB aligned. -/
def Hw.ringBase (h : Hw) (o : Nat) : Nat := h.reg64 o % 2 ^ 48 / 4096 * 4096

/-- There is room in a ring of indices. -/
def ringRoom (tail head : Word) (log : Nat) : Bool := decide ((tail - head).toNat < 2 ^ log)

/-- A system write goes out and takes the lines it covers from the caches (R243, R354). -/
def Hw.dropLines (h : Hw) (pa n : Nat) : Hw :=
  let covers (la : Nat) : Bool := decide (la * 128 < pa + n) && decide (pa < la * 128 + 128)
  h.updLoft fun l =>
    { l with lines := l.lines.filter fun x => !covers x.la
             fills := l.fills.map fun f => if covers f.la then { f with install := false } else f }

/-! ### Requests on a port (R389 to R392) -/

/-- QOS of a request (R389). -/
def Hw.qos (h : Hw) (part : Nat) (sys : Bool) : Nat :=
  if sys then 0 else if h.partSafety part then 3 else if h.partPlan part then 2 else 1

/-- The lowest tag of a port that is not outstanding (log entry 10). -/
def Port.freeTag (p : Port) : Option Nat :=
  (List.range (p.reqs.length + 1)).find? fun t => decide (t < 2048) && !p.reqs.any fun r => r.tag == t

/-- First byte and beats of a request: a fill reads its line. -/
def Req.base (r : Req) : Nat := match r.fill with | some la => 128 * la | none => r.pa / 64 * 64
def Req.beats (r : Req) : Nat := match r.fill with | some _ => 2 | none => ceilDiv (r.pa + r.bytes - r.base) 64

/-- A beat of a write of `bs` at `pa`: its 64 bytes, its byte enables, and WD_POISON, which it carries for its own words
alone (R379). -/
def beatOf (pa : Nat) (bs : List Byte) (poison : List Bool) (k : Nat) : List Byte × DWord × Bool :=
  let all := List.replicate (pa % 64) 0 ++ bs
  let here := (all.drop (64 * k)).take 64
  let lo := if k = 0 then pa % 64 else 0
  (here ++ List.replicate (64 - here.length) 0, BitVec.ofNat 64 (2 ^ here.length - 2 ^ lo),
   (List.range (bs.length / 32)).any fun w => poison.getD w false && (pa % 64 + 32 * w) / 64 == k)

/-- Put a request on a port; the data of a write follows it, its beats in order (R392). -/
def Hw.request (h : Hw) (port : Nat) (r : Req) (data : List Byte) (poison : List Bool) : Hw :=
  let p := h.port port
  let h := (h.setPort port { p with reqs := p.reqs ++ [r] }).out
    (.request port r.tag r.base (64 * r.beats) r.write r.ctx r.gen r.part r.sys (h.qos r.part r.sys))
  if r.write then
    (List.range r.beats).foldl (fun h k =>
      let b := beatOf r.pa data poison k
      h.out (.data port r.tag b.1 b.2.1 b.2.2 (k + 1 == r.beats))) h
  else h

/-! ### System requests (R354) -/

/-- Bytes of a piece at an address: it stays within a 256-byte block (R355). -/
def pieceLen (a n : Nat) : Nat := min n (256 - a % 256)

/-- The next piece of a system write goes to its port, where a tag is free. -/
def Hw.sysPiece (h : Hw) (id : Nat) : Hw :=
  match h.own? id with
  | none => h
  | some j =>
    match partAt j.parts j.issued with
    | none => h
    | some (p, o) =>
      let pa := p.at_ + o
      let n := pieceLen pa (p.len - o)
      let port := portOf pa
      match (h.port port).freeTag with
      | none => h
      | some tag =>
        (h.request port { tag, ctx := 0, gen := 0, sys := true, write := true, pa, bytes := n, beat := 0,
                          who := .own id j.issued, orphan := false, part := 0, va := 0, page := none, fill := none }
          ((p.data.drop o).take n) []).updOwn id fun j => { j with issued := j.issued + n }

/-- The system writes that have a piece left to send go on. -/
def Hw.sysPump (h : Hw) : Hw :=
  (h.atu.own.filter fun j => j.sys && decide (j.issued < j.total)).foldl (fun h j => h.sysPiece j.id) h

/-- A system write begins. -/
def Hw.sysWrite (h : Hw) (pa : Nat) (bs : List Byte) (goal : OwnGoal) : Hw := (h.addOwn (ownSys pa bs goal)).sysPump

/-- System requests over [pa, pa + n) whose responses come with the command that makes them: each goes out under the
lowest tag that is free (log entry 10). -/
def Hw.sysNow (h : Hw) (pa n : Nat) (write : Bool) (bs : List Byte) : Hw :=
  (List.range (ceilDiv (pa % 256 + n) 256)).foldl (fun h k =>
    let a := if k = 0 then pa else pa / 256 * 256 + 256 * k
    let m := min (256 - a % 256) (pa + n - a)
    let port := portOf a
    match (h.port port).freeTag with
    | none => h
    | some tag =>
      let p := h.port port
      (h.request port { tag, ctx := 0, gen := 0, sys := true, write, pa := a, bytes := m, beat := 0, who := .other 3 0,
                        orphan := false, part := 0, va := 0, page := none, fill := none }
        ((bs.drop (a - pa)).take m) []).setPort port p) h

/-- A write of a ring's HEAD (R373): accepted when it leaves at most the ring's size unread, else `err` is set. -/
def Hw.headWrite (h : Hw) (head tail ctrl : Nat) (v : Word) (errReg errBit : Nat) : Hw :=
  if (h.reg tail - v).toNat ≤ 2 ^ ringLog (h.reg ctrl) then h.setReg head v else h.setRegBit errReg errBit true

def Hw.faultHeadWrite (h : Hw) (v : Word) : Hw :=
  h.headWrite Reg.faultHead Reg.faultTail Reg.faultRingCtrl v Reg.faultStatus 1

end Sys2Proof.Machine
end

