-- ==== Sys2Proof/Machine/CoreDma.lean ====
section
/-!
DEFINITION. Core DMA: the start of an item, the pieces of a transfer on each side, delivery, completion
(09_translation_dma_memory_ports.md R376 to R379).
-/
namespace Sys2Proof.Machine

open Sys2Proof

/-! ### Entries of a core's queue -/

/-- The first entry that has not started, when the engine may start it: up to four descriptor items run at once
(R377). -/
def Hw.dmaNextStart (h : Hw) (p : Nat) : Option DmaEntry :=
  let b := h.body p
  if !b.loaded || h.noStart b.ctxId then none
  else match b.dmaQ.find? fun x => !x.started with
    | none => none
    | some x =>
      match x.kind with
      | .desc .. => if (b.dmaQ.filter fun y => y.started && y.desc.isSome).length < 4 then some x else none
      | _ => none

/-- CORE_DMA_ITEM_START (R376, R377). A gather item waits while the queue of its unit is full (06 R261). -/
def Eff.dmaStart (e : Eff) (p : Nat) : Eff :=
  match e.hw.dmaNextStart p with
  | none => e
  | some x =>
    match x.desc with
    | none => e
    | some d =>
      let b := e.hw.body p
      let start (e : Eff) : Eff := e.up fun h => h.updBody p fun b => b.updDma x.id fun x => { x with started := true }
      if !d.ok then e.killCore p Status.invalidPacket
      else if d.kind = 7 then
        if !b.inBound d.pantry 128 then e.imprecise p x.pc trapPantryBound (BitVec.ofNat 32 d.pantry)
        else
          let ctrl := e.mem.byte (pantryAddr p (b.phys d.pantry + 1))
          if e.hw.gatherOff (ctrl.toNat % 4) then e.killCore p Status.invalidPacket
          else if 64 ≤ (e.hw.gatherQ (ctrl.toNat % 4)).length then e else start e
      else if d.total = 0 then start e
      else if d.hasPantry && !b.inBound d.pantry (d.extent d.pantryPitch) then
        e.imprecise p x.pc trapPantryBound (BitVec.ofNat 32 d.pantry)
      else start e

/-- The next request has left: the transfer goes on behind it. -/
def Hw.dmaIssued (h : Hw) (p id n : Nat) : Hw :=
  h.updBody p fun b => b.updDma id fun x => { x with issued := x.issued + n }

/-- Slot 5 of a core makes no access of core DMA: in hold cycles, and while a FILL or COPY holds it (06 R225, R227). -/
def Hw.slot5Busy (h : Hw) (p : Nat) : Bool := h.held p || (h.body p).slot5Held

/-- The next access of an entry to memory (R353): none when it has none to make. A read that the descriptor flags may use
the Loft's cache, whatever its destination (06 R241). -/
def Eff.dmaAccess (e : Eff) (p id : Nat) : Option Access :=
  let b := e.hw.body p
  match b.dma id with
  | none => none
  | some x =>
    match x.desc with
    | none => none
    | some d =>
      if !x.started || x.paused || !d.hasMem || d.total ≤ x.issued || (d.kind == 1 && e.hw.slot5Busy p) then none
      else
        let n := d.piece x.issued
        let write := d.kind == 1 || d.kind == 5
        let src := if d.kind = 1 then pantryAddr p (b.dmaByte d x.issued) else loftAddr (d.loftWord x.issued)
        some { who := .coreDma p id x.issued, ctx := b.ctxId, gen := b.genOf, part := b.part, va := d.va x.issued,
               bytes := n, write, cache := d.cache && !write,
               data := if write then e.mem.bytes src n else [],
               poison := if write then e.mem.poisons src (n / 32) else [] }

/-! ### Pieces to a Loft Hatch (R378) -/

/-- One 256-byte piece of a TO_HATCH item leaves: stamped with the directory entry, answered locally when that is
closed (06 R254); a Redeal copy sends nothing (12 R500). -/
def Hw.sendPiece (h : Hw) (p id o : Nat) (d : Desc) (data : List Byte) (poison : List Bool) : Hw :=
  let b := h.body p
  let n := d.loft % 64
  let entry := b.dirAt (loftKey n)
  let h := (h.signChunk p id o data).dmaAcked p id o 256
  if h.isCopy b.part then h
  else if !entry.isOpen then h.updBody p fun b => { b with flags := b.flags ||| answerFlag Status.staleHatch }
  else
    (h.send p stopCaller (.write b.logical b.part (loftKey n) (nbits d.loft 28 16 + d.at_ d.dstPitch o / 32) entry.gen
      data poison none id b.ctxId b.genOf (h.ageOf b.part))).updBody p fun b =>
        b.updDma id fun x => { x with pieces := x.pieces + 1 }

/-- The bytes of the piece at `o` in a buffer, when all have come. -/
def pieceOf (buf : List (Nat × List Byte × Bool)) (o n : Nat) : Option (List Byte × Bool) :=
  let parts := (buf.filter fun x => decide (o ≤ x.1) && decide (x.1 < o + n))
  let at_ (i : Nat) : Option Byte := parts.findSome? fun x => if x.1 ≤ o + i then x.2.1[o + i - x.1]? else none
  let bs := (List.range n).map at_
  if bs.all Option.isSome then some (bs.map fun b => b.getD 0, parts.any fun x => x.2.2) else none

/-- The poison of each 32-byte word of the piece at `o` in a buffer. -/
def piecePoison (buf : List (Nat × List Byte × Bool)) (o n : Nat) : List Bool :=
  (List.range (n / 32)).map fun w => buf.any fun x =>
    x.2.2 && decide (x.1 < o + 32 * w + 32) && decide (o + 32 * w < x.1 + x.2.1.length)

/-- Send the pieces of a TO_HATCH item that the buffer holds whole, in order. -/
def Hw.sendReady (h : Hw) (p id : Nat) (d : Desc) : Nat → Hw
  | 0 => h
  | n + 1 =>
    match (h.body p).dma id with
    | none => h
    | some x =>
      let o := bytesDone x.acked.length x.acked
      match pieceOf x.buf o 256 with
      | some (bs, _) =>
        if d.total ≤ o then h
        else Hw.sendReady ((h.updBody p fun b => b.updDma id fun x =>
          { x with buf := x.buf.filter fun y => !(decide (o ≤ y.1) && decide (y.1 < o + 256)) }).sendPiece p id o d bs (piecePoison x.buf o 256)) p id d n
      | none => h

/-- A TO_HATCH item from the Pantry sends its next piece. -/
def Eff.pantryPiece (e : Eff) (p id : Nat) : Eff :=
  let b := e.hw.body p
  match b.dma id with
  | none => e
  | some x =>
    match x.desc with
    | none => e
    | some d =>
      if !x.started || x.paused || d.kind != 6 || !d.srcPantry || decide (d.total ≤ x.issued) || e.hw.slot5Busy p ||
          e.hw.unitWaits (.coreDma p id 0) then e
      else
        let a := b.dmaByte d x.issued
        e.dmaGranule p x a 256 fun e =>
          let data := e.mem.bytes (pantryAddr p a) 256
          let pz := e.mem.poisons (pantryAddr p a) 8
          (e.pantryErrors p a 256 false).up fun h => (h.sendPiece p id x.issued d data pz).dmaIssued p id 256

/-! ### Delivery and completion -/

/-- Read data of an entry arrives for transfer bytes from `o`: into the Pantry, where slot 5 writes it in a cycle of its
own (06 R225, R227), into the Loft, or towards a Hatch (R377 to R379). -/
def Eff.dmaDeliver (e : Eff) (p id o : Nat) (bs : List Byte) (poison : Bool) : Eff :=
  let b := e.hw.body p
  match b.dma id with
  | none => e
  | some x =>
    match x.desc with
    | none => e
    | some d =>
      let pz := List.replicate (bs.length / 32) poison
      if d.kind = 0 then
        e.up fun h => h.updBody p fun b => b.updDma id fun x => { x with buf := x.buf ++ [(o, bs, poison)] }
      else if d.kind = 4 then
        (if e.hw.isCopy b.part then e.up fun h => h.signChunk p id o bs
         else (e.up fun h => h.signChunk p id o bs).loftWrite (d.loftWord o) bs pz).up
          fun h => h.dmaAcked p id o bs.length
      else if d.kind = 6 then
        e.up fun h => (h.updBody p fun b => b.updDma id fun x => { x with buf := x.buf ++ [(o, bs, poison)] }).sendReady p
          id d (x.buf.length + 2)
      else e

/-- LOFT_REQUEST: the next piece between the Pantry and the Loft is served, checked against owner and SHARED (06
R237). -/
def Eff.loftRequest (e : Eff) (p id : Nat) : Eff :=
  let b := e.hw.body p
  match b.dma id with
  | none => e
  | some x =>
    match x.desc with
    | none => e
    | some d =>
      if !x.started || x.paused || !(d.kind == 2 || d.kind == 3) || decide (d.total ≤ x.issued) || e.hw.slot5Busy p ||
          e.hw.unitWaits (.coreDma p id 0) then e
      else
        let o := x.issued
        let n := d.piece o
        let w := d.loftWord o
        let a := b.dmaByte d o
        if e.hw.loftBusy w then e
        else if !e.hw.loftOk b.part w (n / 32) (d.kind == 3) then
          e.fault { who := .coreDma p id o, ctx := b.ctxId, gen := b.genOf, part := b.part, va := 0, bytes := n,
                    write := d.kind == 3 } 0 Cause.loftFirewall false 0 w 0
        else
          e.dmaGranule p x a n fun e =>
            let e :=
              if d.kind = 2 then
                let bs := e.mem.bytes (loftAddr w) n
                let pz := e.mem.poisons (loftAddr w) (n / 32)
                (e.loftErrors w (n / 32) false).slotWords p 5 a bs pz
              else
                let bs := e.mem.bytes (pantryAddr p a) n
                let pz := e.mem.poisons (pantryAddr p a) (n / 32)
                let e := (e.pantryErrors p a n false).up fun h => h.signChunk p id o bs
                if e.hw.isCopy b.part then e else e.loftWrite w bs pz
            e.up fun h => (h.dmaIssued p id n).dmaAcked p id o n

/-- Every byte of an entry's transfer has been written or answered (R377). -/
def DmaEntry.complete (x : DmaEntry) : Bool :=
  x.started && !x.paused &&
  match x.desc with
  | none => decide (x.kind.cycles ≤ x.issued)
  | some d =>
    if d.kind = 7 then x.jobDone
    else decide (d.total ≤ bytesDone x.acked.length x.acked) && x.pieces == 0

/-- CORE_DMA_ITEM_COMPLETE: the item's counter advances and the entry leaves the queue (R377, 05 R179). -/
def Hw.dmaComplete (h : Hw) (p id : Nat) : Hw :=
  match (h.body p).dma id with
  | none => h
  | some x =>
    if x.complete then
      (h.updBody p fun b => { b.countC x.cnt 1 with dmaQ := b.dmaQ.filter fun y => y.id != id }).signDone p id
    else h

end Sys2Proof.Machine
end

