-- ==== Sys2Proof/Machine/EngineDma.lean ====
section
/-!
DEFINITION. Engine DMA: channels, descriptors, pieces, completion (09_translation_dma_memory_ports.md R380, R381).
-/
namespace Sys2Proof.Machine

open Sys2Proof

/-- An engine DMA descriptor (Table "Engine DMA descriptor"). -/
structure EDesc where
  kind : Nat
  flags : Nat
  rows : Nat
  rowBytes : Nat
  src : Nat
  dst : Nat
  srcPitch : Nat
  dstPitch : Nat
deriving DecidableEq, Repr

def edescOf (d : List Byte) : EDesc :=
  { kind := leField d 0 1, flags := leField d 1 1, rows := leField d 2 2, rowBytes := leField d 4 4,
    src := leField d 8 8, dst := leField d 16 8, srcPitch := leField d 24 4, dstPitch := leField d 28 4 }

def EDesc.total (d : EDesc) : Nat := d.rows * d.rowBytes
def EDesc.extent (d : EDesc) (pitch : Nat) : Nat := (d.rows - 1) * pitch + d.rowBytes
def EDesc.srcMem (d : EDesc) : Bool := d.kind == 0 || d.kind == 2
def EDesc.dstMem (d : EDesc) : Bool := d.kind != 2

/-- The checks of R380; a COPY whose ranges overlap fails too. -/
def EDesc.ok (d : EDesc) (bytes : List Byte) : Bool :=
  decide (d.kind ≤ 3) && decide (d.flags < 2) && zeroAt bytes 32 32 && decide (d.rowBytes < 2 ^ 24) && d.rowBytes % 32 == 0 &&
  d.srcPitch % 32 == 0 && d.dstPitch % 32 == 0 &&
  (match d.kind with
   | 0 | 2 => decide (d.src < 2 ^ 48) && d.src % 32 == 0
   | 3 => decide (d.src < 2 ^ 21)
   | _ => d.srcPitch == 0) &&
  (if d.kind = 2 then decide (d.dst < 2 ^ 21) else decide (d.dst < 2 ^ 48) && d.dst % 32 == 0) &&
  (d.kind != 0 || d.total == 0 || decide (d.src + d.extent d.srcPitch ≤ d.dst) || decide (d.dst + d.extent d.dstPitch ≤ d.src))

def EDesc.at_ (d : EDesc) (pitch o : Nat) : Nat := o / d.rowBytes * pitch + o % d.rowBytes
def EDesc.srcVa (d : EDesc) (o : Nat) : Nat := (d.src + d.at_ d.srcPitch o) % 2 ^ 48
def EDesc.dstVa (d : EDesc) (o : Nat) : Nat := (d.dst + d.at_ d.dstPitch o) % 2 ^ 48
def EDesc.srcWord (d : EDesc) (o : Nat) : Nat := d.src + d.at_ d.srcPitch o / 32
def EDesc.dstWord (d : EDesc) (o : Nat) : Nat := d.dst + d.at_ d.dstPitch o / 32

/-- Bytes of the piece at `o`: within a row, within a 256-byte block on each memory side (R355), and within 128 words of one way on the Loft side (06 R237). -/
def EDesc.piece (d : EDesc) (o : Nat) : Nat :=
  let row := d.rowBytes - o % d.rowBytes
  let s := if d.srcMem then 256 - d.srcVa o % 256
    else if d.kind = 3 then 32 * min 128 (wayWords - d.srcWord o % wayWords) else row
  let t := if d.dstMem then 256 - d.dstVa o % 256 else 32 * min 128 (wayWords - d.dstWord o % wayWords)
  min row (min s t)

/-- `n` bytes of the 8-byte pattern of a FILL, from transfer byte `o`. -/
def EDesc.fill (d : EDesc) (o n : Nat) : List Byte :=
  (List.range n).map fun i => (leBytes 8 d.src).getD ((o + i) % 8) 0

def Hw.updEngine (h : Hw) (item : Nat) (f : EngineDma → EngineDma) : Hw :=
  h.updAtu fun a => { a with engineDma := a.engineDma.map fun d => if d.item = item then f d else d }

def Hw.engine (h : Hw) (item : Nat) : Option EngineDma := h.atu.engineDma.find? fun d => d.item == item

/-- The item on a channel. -/
def Hw.onChannel (h : Hw) (c : Nat) : Option EngineDma := h.atu.engineDma.find? fun d => d.channel == some c

/-- Context and partition of an engine DMA item: its queue's. -/
def Hw.engineQueue (h : Hw) (d : EngineDma) : Option Queue := h.queue? d.queue

/-- An engine DMA item ends: its record, and its channel is free (R381). -/
def Hw.engineEnd (h : Hw) (d : EngineDma) (status : Status) : Hw :=
  (h.complete d.item (if status = Status.invalidPacket then { status } else d.record status)).updAtu fun a =>
    { a with engineDma := a.engineDma.filter fun x => x.item != d.item }

/-- The waiting item that is served first: highest priority, then dispatch order (R380); items of contexts that start
nothing wait (R370). -/
def Hw.engineNext (h : Hw) : Option EngineDma :=
  (h.atu.engineDma.filter fun d => d.channel.isNone &&
      ((h.engineQueue d).map fun q => !h.noStart q.ctx).getD false).foldl (fun (best : Option EngineDma) d =>
    match best with
    | none => some d
    | some b => if b.prio < d.prio || (b.prio == d.prio && decide (d.order < b.order)) then some d else some b) none

/-- ENGINE_DMA_START: the item takes the lowest free channel, and its descriptor is checked (R380). -/
def Hw.engineStart (h : Hw) : Hw :=
  match h.engineNext, (List.range 16).find? fun c => (h.onChannel c).isNone with
  | some d, some c =>
    let h := h.updEngine d.item fun d => { d with channel := some c }
    if (edescOf d.desc).ok d.desc then h else h.engineEnd { d with channel := some c } Status.invalidPacket
  | _, _ => h

/-- The next access of a channel, which never uses the Loft's cache (06 R241): data that has been read is written first,
then the next piece is read (R380). -/
def Eff.engineAccess (e : Eff) (c : Nat) : Option Access :=
  match e.hw.onChannel c with
  | none => none
  | some x =>
    match e.hw.engineQueue x with
    | none => none
    | some q =>
      let d := edescOf x.desc
      let tag := ((e.hw.item? x.item).map Item.tag).getD 0
      let mk (o n : Nat) (write : Bool) (data : List Byte) (poison : List Bool) : Access :=
        { who := .engineDma x.item o, ctx := q.ctx, gen := e.hw.genOf q.ctx, part := q.part,
          va := if write then d.dstVa o else d.srcVa o, bytes := n, write, tag, data, poison }
      if x.paused then none
      else
        let ready : Option Access :=
          match x.buf.foldl (fun (m : Option Nat) y => match m with | some k => some (min k y.1) | none => some y.1) none with
          | none => none
          | some o => (pieceOf x.buf o (d.piece o)).map fun y => mk o (d.piece o) true y.1 (piecePoison x.buf o (d.piece o))
        match ready with
        | some a => some a
        | none =>
          if d.total ≤ x.issued then none
          else
            let o := x.issued
            let n := d.piece o
            match d.kind with
            | 1 => some (mk o n true (d.fill o n) [])
            | 3 => some (mk o n true (e.mem.bytes (loftAddr (d.srcWord o)) n) (e.mem.poisons (loftAddr (d.srcWord o)) (n / 32)))
            | _ => some (mk o n false [] [])

/-- The Loft words of the piece at `o` of an item, and whether it writes them. -/
def EDesc.loftSide (d : EDesc) (o : Nat) : Option (Nat × Bool) :=
  if d.kind = 2 then some (d.dstWord o, true) else if d.kind = 3 then some (d.srcWord o, false) else none

/-- An access of an item has left: a buffered piece is gone, or the transfer goes on behind it. -/
def Hw.engineIssued (h : Hw) (a : Access) (item o : Nat) : Hw :=
  h.updEngine item fun x =>
    if (edescOf x.desc).kind = 0 && a.write then
      { x with buf := x.buf.filter fun y => !(decide (o ≤ y.1) && decide (y.1 < o + a.bytes)),
               poison := x.poison || a.poison.any id }
    else { x with issued := o + a.bytes, poison := x.poison || a.poison.any id }

/-- Read data of an item arrives for transfer bytes from `o`. -/
def Eff.engineDeliver (e : Eff) (item o : Nat) (bs : List Byte) (poison : Bool) : Eff :=
  match e.hw.engine item with
  | none => e
  | some x =>
    let d := edescOf x.desc
    if d.kind = 2 then
      (e.loftWrite (d.dstWord o) bs (List.replicate (bs.length / 32) poison)).up fun h => h.updEngine item fun x =>
        { x with acked := x.acked ++ [(o, bs.length)], poison := x.poison || poison }
    else e.up fun h => h.updEngine item fun x => { x with buf := x.buf ++ [(o, bs, poison)] }

/-- ENGINE_DMA_COMPLETE: every byte of the item on a channel is at its destination (R381). -/
def Hw.engineComplete (h : Hw) (c : Nat) : Hw :=
  match h.onChannel c with
  | none => h
  | some x =>
    if !x.paused && decide ((edescOf x.desc).total ≤ x.done) then
      h.engineEnd x (if x.dataErr then Status.ecc else Status.ok)
    else h

end Sys2Proof.Machine
end

