-- ==== Sys2Proof/Machine/GatherMath.lean ====
section
/-!
DEFINITION. Gather Job Descriptors and what a job computes: which rows each output needs, and the bytes of an output
(06_pantry_loft_gather.md R261 to R266).
-/
namespace Sys2Proof.Machine

open Sys2Proof

/-- A Gather Job Descriptor (Table "Gather Job Descriptor"). -/
structure Gjd where
  mode : Nat
  ctrl : Nat
  rowUnits : Nat
  elem : Nat
  out : Nat
  eacc : Int
  grain : Nat
  tableVa : Nat
  rows : Nat
  pitch : Nat
  count : Nat
  indexAddr : Nat
  indexFmt : Nat
  destCore : Nat
  destCnt : Nat
  levels : Nat
  destAddr : Nat
  destPitch : Nat
  bagsOrMap : Nat
  aux : Nat
  reserved : Bool
deriving DecidableEq, Repr

def gjdOf (d : List Byte) : Gjd :=
  { mode := leField d 0 1, ctrl := leField d 1 1, rowUnits := leField d 2 1, elem := leField d 3 1, out := leField d 4 1,
    eacc := signed 8 (leField d 5 1), grain := leField d 6 2, tableVa := leField d 8 8, rows := leField d 16 8,
    pitch := leField d 24 4, count := leField d 28 4, indexAddr := leField d 32 8, indexFmt := leField d 40 1,
    destCore := leField d 41 1, destCnt := leField d 42 1, levels := leField d 43 1, destAddr := leField d 44 4,
    destPitch := leField d 48 4, bagsOrMap := leField d 52 4, aux := leField d 56 8, reserved := !zeroAt d 64 32 }

def Gjd.gu (g : Gjd) : Nat := g.ctrl % 4
def Gjd.cache (g : Gjd) : Bool := g.ctrl.testBit 2
def Gjd.oobZero (g : Gjd) : Bool := g.ctrl.testBit 3
def Gjd.indexVa (g : Gjd) : Bool := g.ctrl.testBit 4
def Gjd.bagFixed (g : Gjd) : Bool := g.ctrl.testBit 5
def Gjd.form (g : Gjd) : Nat := g.out % 8
def Gjd.accFp32 (g : Gjd) : Bool := g.out.testBit 3
def Gjd.rowBytes (g : Gjd) : Nat := g.rowUnits * 32
def Gjd.bagged (g : Gjd) : Bool := g.mode == 1 || g.mode == 2
def Gjd.dim (g : Gjd) : Nat := if g.indexFmt = 3 then 3 else 2

/-- Bytes of an element of a row; none in mode 0. -/
def Gjd.elemBytes (g : Gjd) : Nat :=
  if g.elem = 14 ∨ g.elem = 15 then 4 else if g.elem = 12 ∨ g.elem = 13 then 2 else 1

/-- Elements of a row. -/
def Gjd.f (g : Gjd) : Nat := g.rowBytes / g.elemBytes

/-- Bytes of a value in the output form. -/
def Gjd.valueBytes (g : Gjd) : Nat :=
  match g.form with
  | 0 => 8
  | 1 => 4
  | 2 => 16
  | 3 => 4
  | _ => 2

/-- Values of an output. -/
def Gjd.values (g : Gjd) : Nat := if g.mode = 3 then g.levels * g.f else g.f

/-- Bytes of an output, padded to words (R262). -/
def Gjd.outBytes (g : Gjd) : Nat :=
  if g.mode = 0 then g.rowBytes else ceilDiv (g.values * g.valueBytes) 32 * 32

/-- Outputs of the job: none where COUNT or BAGS is zero (R262). -/
def Gjd.outputs (g : Gjd) : Nat := if g.bagged && g.count != 0 then g.bagsOrMap else g.count

/-- Bytes of one index or point. -/
def Gjd.indexBytes (g : Gjd) : Nat :=
  match g.indexFmt with
  | 0 => 4
  | 1 => 8
  | 2 => 8
  | _ => 12

/-- ELEM, OUT and INDEX_FMT that Table "Gather modes" allows. -/
def Gjd.comboOk (g : Gjd) : Bool :=
  let elemReduce := [0, 1, 4, 5, 12, 13, 14, 15].contains g.elem
  let elemInterp := [12, 13, 14].contains g.elem
  match g.mode with
  | 0 => g.elem == 0 && g.out == 0 && decide (g.indexFmt ≤ 1)
  | 1 => elemReduce && (if g.accFp32 then g.form == 3 else decide (g.form ≤ 2)) && decide (g.indexFmt ≤ 1)
  | 2 => elemReduce && (if g.accFp32 then g.form == 3 else g.form == 1) && decide (g.indexFmt ≤ 1)
  | 3 => elemInterp && g.accFp32 && decide (3 ≤ g.form) && decide (g.form ≤ 5) &&
      (g.indexFmt == 2 || g.indexFmt == 3) && decide (1 ≤ g.levels) && decide (g.levels ≤ 16)
  | 4 => elemInterp && g.accFp32 && decide (3 ≤ g.form) && decide (g.form ≤ 5) && g.indexFmt == 2
  | _ => false

/-- The check of R262: the status that ends the kernel, if any, the lower code first (00 R33). DESIGN CHOICE (log 99):
bits of AUX and INDEX_ADDR that the table gives no meaning in a mode are not looked at. -/
def Gjd.check (g : Gjd) : Option Status :=
  let ok := g.ctrl < 64 && decide (g.rowUnits ≤ 128) && decide (g.elem < 16) && decide (g.out < 16) &&
      decide (g.tableVa < 2 ^ 48) && g.tableVa % 32 == 0 && decide (g.rows < 2 ^ 40) && decide (g.pitch < 2 ^ 24) &&
      decide (g.rowUnits ≤ g.pitch) && decide (g.destCore < 64) && decide (g.destCnt < 32) &&
      (g.mode == 3 || g.levels == 0) && decide (g.destAddr < 2 ^ 22) && g.destAddr % 32 == 0 && g.destPitch % 32 == 0 &&
      decide (g.outBytes ≤ g.destPitch) && (g.bagged || g.mode == 4 || g.bagsOrMap == 0) && !g.reserved && g.comboOk
  if !ok then some Status.invalidPacket
  else if g.rowUnits = 0 ∨ g.grain = 0 ∨ g.rows = 0 then some Status.invalidZero
  else none

/-- Bytes of the destination extent (R262). -/
def Gjd.extent (g : Gjd) : Nat := if g.outputs = 0 then 0 else (g.outputs - 1) * g.destPitch + g.outBytes

/-- Bytes of the index stream, and of the bag starts or the level table, that the job reads. -/
def Gjd.indexLen (g : Gjd) : Nat := if g.outputs = 0 then 0 else g.count * g.indexBytes
def Gjd.auxLen (g : Gjd) : Nat :=
  if g.outputs = 0 then 0
  else if g.bagged && !g.bagFixed then g.bagsOrMap * 4
  else if g.mode = 3 then g.levels * 16
  else 0

/-! ### FP32 steps (R265) -/

/-- An exact value rounded to FP32. -/
def rnd32 (v : Fp) : Fp := fp32 (toF32 v).1

def fpOfNat (n : Nat) : Fp := .fin false n 0

/-- The floor of a finite value. -/
def fpFloor : Fp → Int
  | .fin neg m e => if 0 ≤ e then sm neg (m <<< e.toNat) else Int.fdiv (sm neg m) (2 ^ (-e).toNat : Nat)
  | _ => 0

def fpFinite : Fp → Bool
  | .fin .. => true
  | _ => false

/-- A coordinate clamped to [0, 1]. -/
def fpClamp01 (v : Fp) : Fp :=
  if fpLt v (fpOfNat 0) then fpOfNat 0 else if fpLt (fpOfNat 1) v then fpOfNat 1 else v

/-- The weight of corner `k`: the product over the axes of f or RNE(1 - f), each multiplication rounded. -/
def cornerWeight (k : Nat) (fs : List Fp) : Fp :=
  let ws := fs.zipIdx.map fun x => if k.testBit x.2 then x.1 else rnd32 (fpAdd (fpOfNat 1) (fpNeg x.1))
  match ws with
  | [] => fpOfNat 1
  | w :: rest => rest.foldl (fun a b => rnd32 (fpMul a b)) w

/-! ### Points -/

/-- Point `n` of the stream: its coordinates. -/
def Gjd.point (g : Gjd) (idx : List Byte) (n : Nat) : List Fp :=
  (List.range g.dim).map fun a => fp32 (BitVec.ofNat 32 (leField idx (n * g.indexBytes + 4 * a) 4))

/-- Index `n` of the stream. -/
def Gjd.index (g : Gjd) (idx : List Byte) (n : Nat) : Nat := leField idx (n * g.indexBytes) g.indexBytes

/-- Level `l` of the table: N, LOG2T, BASE, and whether it is valid (R265). -/
def levelOf (aux : List Byte) (l : Nat) : Nat × Nat × Nat × Bool :=
  let o := 16 * l
  let n := leField aux o 4
  let t := leField aux (o + 4) 1
  (n, t, leField aux (o + 8) 5,
    decide (1 ≤ n) && decide (n ≤ 1048576) && decide (1 ≤ t) && decide (t ≤ 24) && zeroAt aux (o + 5) 3 && zeroAt aux (o + 13) 3)

/-- Cell and fraction of a coordinate on a level (R265). -/
def cellOf (n : Nat) (x : Fp) : Nat × Fp :=
  let p := rnd32 (fpMul (fpClamp01 x) (fpOfNat n))
  let c := (fpFloor p).toNat
  if c = n then (n - 1, fpOfNat 1) else (c, fpAdd p (fpNeg (fpOfNat c)))

/-- The index of a corner within its level (R265). -/
def hashIndex (n t dim : Nat) (cs : List Nat) : Nat :=
  let x := cs.getD 0 0
  let y := cs.getD 1 0
  let z := if dim = 3 then cs.getD 2 0 else 0
  if (n + 1) ^ dim ≤ 2 ^ t then x + y * (n + 1) + z * (n + 1) ^ 2
  else
    let m (a b : Nat) : Nat := a * b % 2 ^ 32
    ((m x 0x00000001 ^^^ m y 0xFFFFFFFB) ^^^ m z 0x7FFFFFFF) % 2 ^ 32 % 2 ^ t

/-- A row that an output needs, before its range is checked: none for a corner that makes no fetch, else the row and
whether a 64-bit index has bits beyond its field. -/
inductive Need where
  | skip
  | row (i : Nat)
  | wide
deriving DecidableEq, Repr

/-- The cells and fractions of a point on a level. -/
def Gjd.cells (g : Gjd) (idx aux : List Byte) (n l : Nat) : List (Nat × Fp) :=
  (g.point idx n).map (cellOf (levelOf aux l).1)

/-- The corners of bilinear mode: x0, fx and y0, fy (R266). DESIGN CHOICE (log 99): a fraction that FP32 does not hold is
rounded under RNE. -/
def floorFrac (v : Fp) : Int × Fp :=
  let c := fpFloor v
  (c, rnd32 (fpAdd v (fpNeg (fpOfInt c 0))))

/-- Start of bag `b` (R264). -/
def Gjd.bagStart (g : Gjd) (aux : List Byte) (b : Nat) : Nat :=
  if g.bagFixed then b * (g.aux % 2 ^ 32)
  else if b = g.bagsOrMap then g.count
  else leField aux (4 * b) 4

/-- Starts do not decrease and do not exceed COUNT (R264). -/
def Gjd.bagsOk (g : Gjd) (aux : List Byte) : Bool :=
  !g.bagged || (List.range g.bagsOrMap).all fun b =>
    decide (g.bagStart aux b ≤ g.bagStart aux (b + 1)) && decide (g.bagStart aux (b + 1) ≤ g.count)

/-- The rows that output `n` needs, in the order of its computation (R263 to R266). -/
def Gjd.needsOf (g : Gjd) (idx aux : List Byte) (n : Nat) : List Need :=
  let one (i : Nat) : Need := let v := g.index idx i; if v < 2 ^ 40 then .row v else .wide
  match g.mode with
  | 0 => [one n]
  | 3 =>
    if (g.point idx n).all fpFinite then
      ((List.range g.levels).map fun l =>
        let (nl, t, base, _) := levelOf aux l
        let cs := (g.cells idx aux n l).map Prod.fst
        (List.range (2 ^ g.dim)).map fun k =>
          Need.row (base + hashIndex nl t g.dim (cs.zipIdx.map fun c => c.1 + (k.testBit c.2).toNat))).flatten
    else []
  | 4 =>
    match g.point idx n with
    | [u, v] =>
      if fpFinite u && fpFinite v then
        let w := nbits g.bagsOrMap 15 0
        let ht := nbits g.bagsOrMap 31 16
        (List.range 4).map fun k =>
          let x := (floorFrac u).1 + (k.testBit 0).toNat
          let y := (floorFrac v).1 + (k.testBit 1).toNat
          if 0 ≤ x && x < w && 0 ≤ y && y < ht then .row (y.toNat * w + x.toNat) else .skip
      else []
    | _ => []
  | _ =>
    let s := g.bagStart aux n
    (List.range (g.bagStart aux (n + 1) - s)).map fun i => one (s + i)

/-- What the whole job fetches: each output's rows in order, out-of-range rows as none with OOB_ZERO (R263); or the
status that ends the kernel. The third part counts out-of-range rows read as zeros. DESIGN CHOICE (log 99): a level-table
entry out of range ends the kernel as a bag table does, with INVALID_PACKET. -/
def Gjd.plan (g : Gjd) (idx aux : List Byte) : Except Status (List (Nat × RowNeed) × Nat) :=
  let raw := ((List.range g.outputs).map fun n => (g.needsOf idx aux n).map fun x => (n, x)).flatten
  let bad : Need → Bool
    | .skip => false
    | .row i => decide (g.rows ≤ i)
    | .wide => true
  let levelsOk := g.mode != 3 || (List.range g.levels).all fun l => (levelOf aux l).2.2.2
  if g.outputs = 0 then .ok ([], 0)
  else if !g.bagsOk aux || !levelsOk then .error Status.invalidPacket
  else if !g.oobZero && raw.any fun x => bad x.2 then .error Status.faultPermission
  else .ok (raw.map fun x => (x.1, if bad x.2 then none else match x.2 with | .row i => some i | _ => none),
            (raw.filter fun x => bad x.2).length)

/-! ### Outputs -/

/-- Element `i` of a row, and whether its word is poisoned. -/
def Gjd.elemRaw (g : Gjd) (row : List Byte × List Bool) (i : Nat) : Nat × Bool :=
  (leField row.1 (i * g.elemBytes) g.elemBytes, row.2.getD (i * g.elemBytes / 32) false)

/-- The value of an element (R263, R264). -/
def elemValue (fmt raw : Nat) : Fp :=
  match fmt with
  | 0 => fpOfInt (signed 8 raw) 0
  | 1 => fpOfNat (raw % 256)
  | 4 => let x := decodeElem 4 raw
         if x.special then .nan else .fin (nbits raw 7 7 == 1) x.m.natAbs x.e
  | 5 => fpDecode 5 2 raw
  | 12 => bf16 raw
  | 13 => fp16 raw
  | 14 => fp32 (BitVec.ofNat 32 raw)
  | _ => rnd32 (fpOfInt (signed 32 raw) 0)

/-- An element added on the grid 2^E_ACC (R73, R82). -/
def gridAdd (eacc : Int) (c : Acc) (fmt raw : Nat) : Acc :=
  let v : Fp := if fmt = 15 then fpOfInt (signed 32 raw) 0 else elemValue fmt raw
  match v with
  | .fin neg m e => { c with a := c.a + BitVec.ofInt 72 (sm neg (gridMag .rne m e eacc)) }
  | _ => { c with poison := true }

/-- A magnitude divided by a count, with a sticky bit, as a value that rounds as the exact quotient. -/
def quotient (neg : Bool) (m d : Nat) (e : Int) : Fp :=
  let k := 64 + Nat.log2 (d + 1)
  let q := m * 2 ^ k / d
  .fin neg (2 * q + if m * 2 ^ k % d = 0 then 0 else 1) (e - k - 1)

/-- The mean of a WEA sum: the exact quotient rounded to FP32, with the clamps of the F32 form (R264). -/
def meanF32 (c : Acc) (eacc : Int) (n : Nat) : Word :=
  if c.poison then nan32
  else
    let v := (drainI64 c).1.toInt
    let (b, o) := fpEncode 8 23 (quotient (decide (v < 0)) v.natAbs n eacc)
    if o then (if v < 0 then 0xFF7FFFFF else 0x7F7FFFFF) else BitVec.ofNat 32 b

/-- A value encoded in an interpolated or FP32 output form: FP32, BF16, FP16. -/
def encodeForm (form : Nat) (v : Fp) : List Byte :=
  match form with
  | 4 => leBytes 2 (fpEncode 8 7 v).1
  | 5 => leBytes 2 (fpEncode 5 10 v).1
  | _ => leBytes 4 (fpEncode 8 23 v).1

/-- Value `i` of a bag over its rows (R264). DESIGN CHOICE (log 99): the FP32 sum begins with the first element. -/
def Gjd.reduce (g : Gjd) (rows : List (List Byte × List Bool)) (i : Nat) : List Byte :=
  let raws := rows.map fun r => (g.elemRaw r i).1
  if rows.isEmpty then List.replicate g.valueBytes 0
  else if g.accFp32 then
    let vs := raws.map (elemValue g.elem)
    let s := (vs.drop 1).foldl (fun a b => rnd32 (fpAdd a b)) (vs.getD 0 (fpOfNat 0))
    if g.mode = 2 then
      encodeForm 3 (match s with | .fin n m e => quotient n m rows.length e | v => v)
    else encodeForm 3 s
  else
    let c := raws.foldl (fun c r => gridAdd g.eacc c g.elem r) Acc.zero
    if g.mode = 2 then leBytes 4 (meanF32 c g.eacc rows.length).toNat
    else match g.form with
      | 0 => leBytes 8 (drainI64 c).1.toNat
      | 1 => leBytes 4 (drainF32 c g.eacc).1.toNat
      | _ => leBytes 16 (container c).toNat

/-- Value `i` of a point or level from its corners and their fractions (R265). -/
def Gjd.interpolate (g : Gjd) (fs : List Fp) (corners : List (Option (List Byte × List Bool))) (i : Nat) : List Byte :=
  let v := corners.zipIdx.foldl (fun (acc : Fp) x =>
    let el := match x.1 with
      | some r => elemValue g.elem (g.elemRaw r i).1
      | none => fpOfNat 0
    rnd32 (fpFma (cornerWeight x.2 fs) el acc)) (fpOfNat 0)
  encodeForm g.form v

/-- The bytes of output `n` and the poison of each of its words. `rows` are the output's rows in order: none for a corner
outside the map, zeros for an out-of-range row. -/
def Gjd.output (g : Gjd) (idx aux : List Byte) (n : Nat) (rows : List (Option (List Byte × List Bool))) :
    List Byte × List Bool :=
  let have_ := rows.filterMap id
  let pad (bs : List Byte) : List Byte := bs ++ List.replicate (g.outBytes - bs.length) 0
  let bad (i : Nat) : Bool := have_.any fun r => (g.elemRaw r i).2
  let words (vals : List (Nat × Bool)) : List Bool :=
    (List.range (g.outBytes / 32)).map fun w => vals.any fun x => x.2 && x.1 * g.valueBytes / 32 == w
  match g.mode with
  | 0 => (pad (have_.getD 0 ([], [])).1, (have_.getD 0 ([], [])).2)
  | 3 =>
    if (g.point idx n).all fpFinite then
      let per := 2 ^ g.dim
      let bs := ((List.range g.levels).map fun l =>
        let fs := (g.cells idx aux n l).map Prod.snd
        let cs := (rows.drop (l * per)).take per
        ((List.range g.f).map fun i => g.interpolate fs cs i).flatten).flatten
      let marks := ((List.range g.levels).map fun l =>
        let cs := ((rows.drop (l * per)).take per).filterMap id
        (List.range g.f).map fun i => (l * g.f + i, cs.any fun r => (g.elemRaw r i).2)).flatten
      (pad bs, words marks)
    else (pad ((List.range g.values).map fun _ => encodeForm g.form .nan).flatten, words [])
  | 4 =>
    if (g.point idx n).all fpFinite then
      let fs := (g.point idx n).map fun v => (floorFrac v).2
      (pad ((List.range g.f).map fun i => g.interpolate fs rows i).flatten,
       words ((List.range g.f).map fun i => (i, bad i)))
    else (pad ((List.range g.values).map fun _ => encodeForm g.form .nan).flatten, words [])
  | _ =>
    (pad ((List.range g.f).map fun i => g.reduce have_ i).flatten, words ((List.range g.f).map fun i => (i, bad i)))

end Sys2Proof.Machine
end

