-- ==== Sys2Proof/Machine/Gather.lean ====
section
/-!
DEFINITION. Gather Units: jobs from their acceptance to their status (06_pantry_loft_gather.md R261 to R271).
-/
namespace Sys2Proof.Machine

open Sys2Proof

/-- The job of core DMA entry `dma` of core `p` in unit `gu`. -/
def Hw.job (h : Hw) (gu p dma : Nat) : Option GatherJob := (h.gatherQ gu).find? fun j => j.core == p && j.dma == dma

def Hw.updJob (h : Hw) (gu p dma : Nat) (f : GatherJob → GatherJob) : Hw :=
  h.setGatherQ gu ((h.gatherQ gu).map fun j => if j.core = p ∧ j.dma = dma then f j else j)

def Hw.dropJob (h : Hw) (gu p dma : Nat) : Hw :=
  h.setGatherQ gu ((h.gatherQ gu).filter fun j => !(j.core == p && j.dma == dma))

def GatherJob.g (j : GatherJob) : Gjd := gjdOf j.gjd

/-- The queue of a partition's kernel is being destroyed: the gather jobs of the kernel are cancelled (R269, 08 R346). -/
def Hw.jobsEnd (h : Hw) (part : Nat) : Bool :=
  match h.kernel? part with
  | some k => !k.isCopy && (((h.item? k.job.item).bind fun i => h.queue? i.queue).map fun q => q.destroying.isSome).getD false
  | none => false

/-- GATHER_JOB_ACCEPT: the GJD is read through slot 5 and placed in its unit's queue (R261). -/
def Eff.gatherAccept (e : Eff) (p id : Nat) : Eff :=
  let b := e.hw.body p
  match b.dma id with
  | none => e
  | some x =>
    match x.desc with
    | none => e
    | some d =>
      if !x.started || x.paused || d.kind != 7 || x.issued != 0 || e.hw.noStart b.ctxId || e.hw.slot5Busy p then e
      else
        let a := b.phys d.pantry
        e.dmaGranule p x a 128 fun e =>
          let gjd := e.mem.bytes (pantryAddr p a) 128
          let g := gjdOf gjd
          let dead := e.hw.jobsEnd b.part
          if 64 ≤ (e.hw.gatherQ g.gu).length then e
          else
            (e.pantryErrors p a 128 false).up fun h =>
              let h := if dead then h.updKernel b.part fun k => { k with jobsCancelled := true } else h
              (h.setGatherQ g.gu (h.gatherQ g.gu ++
                [{ core := p, dma := id, part := b.part, ctx := b.ctxId, gen := b.genOf, gjd, at_ := a, started := false,
                   segs := [], planned := false, needs := [], nextSeg := 0, nextOff := 0, flying := 0, got := [],
                   rows := [], outDone := [], outBytes := g.outBytes, grains := 0, fetched := 0, hits := 0, oob := 0,
                   status := if dead then Status.cancelled else 0, ended := dead, paused := false }])).dmaIssued p id 128

/-- The bytes of a segment, once all have come, and whether any was poisoned. -/
def GatherJob.seg (j : GatherJob) (s : Nat) : Option (List Byte × Bool) :=
  pieceOf ((j.got.filter fun x => x.1 == s).map fun x => x.2) 0 ((j.segs.getD s (0, 0)).2)

/-- The job of a partition that a unit runs (R270). -/
def Hw.runningJob (h : Hw) (gu part : Nat) : Option GatherJob :=
  (h.gatherQ gu).find? fun j => j.part == part && j.started

/-- A job ends its kernel with a status, which its status block will carry (R268). -/
def Eff.gatherFails (e : Eff) (gu p dma : Nat) (st : Status) : Eff :=
  (e.up fun h => h.updJob gu p dma fun j => { j with status := st }).killCore p st

/-- When the index stream and the auxiliary table are in, the rows of the job are known (R263 to R266). DESIGN CHOICE
(log 99): a row address that passes 48 bits is taken modulo 2^48. -/
def Eff.gatherPlan (e : Eff) (gu p dma : Nat) : Eff :=
  match e.hw.job gu p dma with
  | none => e
  | some j =>
    if j.planned || !j.started || j.ended then e
    else match j.seg 0, j.seg 1 with
      | some (idx, _), some (aux, _) =>
        match j.g.plan idx aux with
        | .error st => e.gatherFails gu p dma st
        | .ok (needs, oob) =>
          let rowSeg (x : Nat × RowNeed) : Nat × Nat :=
            match x.2 with
            | some i => ((j.g.tableVa + i * j.g.pitch * 32) % 2 ^ 48, j.g.rowBytes)
            | none => (0, 0)
          e.up fun h => (h.updJob gu p dma fun j =>
            { j with planned := true, needs, oob, segs := j.segs ++ needs.map rowSeg, nextSeg := 2, nextOff := 0 }).addReg64
              (Reg.guOob gu) oob
      | _, _ => e

/-- The physical core that a job delivers to, through the rotation of a Redeal copy (12 R499). -/
def Hw.gatherDest (h : Hw) (j : GatherJob) : Option Nat :=
  match h.mapLogical j.part j.g.destCore with
  | some l => if (h.partMask j.part).testBit l then some (h.phys l) else none
  | none => none

/-- A job reads a table of its own Pantry through slot 5, once its bound and its granules admit it (R234, 05 R210). -/
def Eff.jobRead (e : Eff) (p pc off n : Nat) (f : List Byte × Bool → Eff → Eff) : Eff :=
  let b := e.hw.body p
  let a := b.phys off
  if n = 0 then f ([], false) e
  else if !b.inBound off n then e.imprecise p pc trapPantryBound (BitVec.ofNat 32 off)
  else if !granulesUp (e.hw.up p) a n then e.imprecise p pc trapGranule (BitVec.ofNat 32 off)
  else f (e.mem.bytes (pantryAddr p a) n, e.mem.anyBad (pantryAddr p a) n) (e.pantryErrors p a n false)

/-- GATHER_JOB_START: a unit validates the next job of a partition and begins fetching (R262). -/
def Eff.gatherStart (e : Eff) (gu part : Nat) : Eff :=
  match e.hw.runningJob gu part, (e.hw.gatherQ gu).find? fun j => j.part == part && !j.started && !j.ended with
  | none, some j =>
    let g := j.g
    let p := j.core
    if e.hw.noStart j.ctx || (!g.indexVa && e.hw.slot5Busy p) then e
    else
      let pc := (((e.hw.body p).dma j.dma).map DmaEntry.pc).getD 0
      match g.check, e.hw.gatherDest j with
      | some st, _ => e.gatherFails gu p j.dma st
      | none, none => e.gatherFails gu p j.dma Status.invalidPacket
      | none, some dst =>
        if !(e.hw.body dst).inBound g.destAddr g.extent then e.imprecise p pc trapPantryBound (BitVec.ofNat 32 g.destAddr)
        else if g.indexVa then
          (e.up fun h => h.updJob gu p j.dma fun j =>
            { j with started := true, segs := [(g.indexAddr % 2 ^ 48, g.indexLen), (g.aux % 2 ^ 48, g.auxLen)] }).gatherPlan
              gu p j.dma
        else
          e.jobRead p pc g.indexAddr g.indexLen fun (i, ib) e => e.jobRead p pc g.aux g.auxLen fun (x, xb) e =>
            (e.up fun h => h.updJob gu p j.dma fun j =>
              { j with started := true, segs := [(0, g.indexLen), (0, g.auxLen)], got := [(0, 0, i, ib), (1, 0, x, xb)] }).gatherPlan
                gu p j.dma
  | _, _ => e

/-! ### Fetches (R269, R270) -/

/-- The segment and byte that the job requests next, past empty segments. -/
def GatherJob.next (j : GatherJob) : Option (Nat × Nat) :=
  let s := (List.range j.segs.length).find? fun s => decide (j.nextSeg ≤ s) && (j.segs.getD s (0, 0)).2 != 0 &&
    !(s == j.nextSeg && decide ((j.segs.getD s (0, 0)).2 ≤ j.nextOff))
  s.map fun s => (s, if s = j.nextSeg then j.nextOff else 0)

/-- Rows in flight of a partition in a unit, and of the whole unit. -/
def Hw.gatherFlying (h : Hw) (gu : Nat) (part : Option Nat) : Nat :=
  ((h.gatherQ gu).filter fun j => match part with | some p => j.part == p | none => true).foldl (fun n j => n + j.flying) 0

/-- A row that the job would request next, or none: its number of the segment and its byte. -/
def GatherJob.wants (j : GatherJob) : Option (Nat × Nat) := if j.ended || j.paused then none else j.next

/-- Fetches that the reserves of the partitions keep from partition `part`. -/
def Hw.gatherKept (h : Hw) (gu part : Nat) : Nat :=
  ((List.range 16).filter fun p => p != part).foldl
    (fun n p => n + (h.regFld (Reg.guReserve gu p) 11 0 - h.gatherFlying gu (some p))) 0

/-- A partition has a row to request beyond its reserve, for which the reserves of the others leave room. -/
def Hw.gatherReady (h : Hw) (gu part : Nat) : Bool :=
  decide (h.regFld (Reg.guReserve gu part) 11 0 ≤ h.gatherFlying gu (some part)) &&
  decide (h.gatherFlying gu none + h.gatherKept gu part < 2048) &&
  match (h.runningJob gu part).bind GatherJob.wants with
  | some (s, o) => decide (2 ≤ s) && o == 0
  | none => false

/-- A partition may request one more row: within its reserve, or in its turn beyond the reserves, which goes round the
partitions that have a row to request (R270). -/
def Hw.mayFetch (h : Hw) (gu part : Nat) : Bool :=
  let last := Tbl.get (fun _ => 15) h.loft.turns gu
  let turn := ((List.range 16).map fun k => (last + 1 + k) % 16).find? fun p => h.gatherReady gu p
  decide (h.gatherFlying gu none < 2048) &&
  (decide (h.gatherFlying gu (some part) < h.regFld (Reg.guReserve gu part) 11 0) || turn == some part)

/-- The next access of the job that a unit runs for a partition. -/
def Hw.gatherAccess (h : Hw) (gu part : Nat) : Option Access :=
  match h.runningJob gu part with
  | none => none
  | some j =>
    match j.wants with
      | none => none
      | some (s, o) =>
        if 2 ≤ s && o == 0 && !h.mayFetch gu part then none
        else
          let (va, len) := j.segs.getD s (0, 0)
          let a := (va + o) % 2 ^ 48
          let cache := j.g.cache && decide (2 ≤ s)
          let n := min (len - o) (if cache then 128 - a % 128 else 256 - a % 256)
          some { who := .gather gu j.core j.dma s o, ctx := j.ctx, gen := j.gen, part := j.part, va := a, bytes := n,
                 write := false, cache }

/-- A fetch of a job has been requested; one beyond the reserve of its partition passes the turn on. -/
def Hw.gatherIssued (h : Hw) (gu p dma s o n : Nat) : Hw :=
  let part := ((h.job gu p dma).map GatherJob.part).getD 0
  let row := decide (2 ≤ s) && o == 0
  let h := if row && h.gatherReady gu part then h.updLoft fun l => { l with turns := Tbl.put (fun _ => 15) l.turns gu part } else h
  h.updJob gu p dma fun j =>
    { j with nextSeg := s, nextOff := o + n, flying := if row then j.flying + 1 else j.flying }

/-- A paused job goes on at its first output that is not complete (R269): the rows of that output and of the later ones
are fetched again, and without a plan the whole index stream. -/
def GatherJob.restart (j : GatherJob) : GatherJob :=
  if !j.planned then { j with paused := false, nextSeg := 0, nextOff := 0, got := if j.g.indexVa then [] else j.got }
  else
    let done := leadLen j.outDone
    let first := ((List.range j.needs.length).find? fun k => decide (done ≤ (j.needs.getD k (0, none)).1)).getD j.needs.length
    { j with paused := false, nextSeg := first + 2, nextOff := 0, flying := 0, outDone := List.range done,
             got := j.got.filter fun x => decide (x.1 < 2), rows := j.rows.filter fun x => decide (x.1 < first) }

/-- Bytes of a fetch return. -/
def Eff.gatherDeliver (e : Eff) (gu p dma s o : Nat) (bs : List Byte) (poison : Bool) : Eff :=
  (e.up fun h => h.updJob gu p dma fun j => { j with got := j.got ++ [(s, o, bs, poison)] }).gatherPlan gu p dma

/-- The poison of each word of a segment. -/
def GatherJob.segPoison (j : GatherJob) (s len : Nat) : List Bool :=
  (List.range (len / 32)).map fun w => j.got.any fun x =>
    x.1 == s && x.2.2.2 && decide (x.2.1 < 32 * w + 32) && decide (32 * w < x.2.1 + x.2.2.1.length)

/-- GATHER_ROW_RETURN: row `k` of a job is in; its fetch ends (R264, R270). -/
def Hw.gatherRow (h : Hw) (gu p dma k : Nat) : Hw :=
  match h.job gu p dma with
  | none => h
  | some j =>
    if !j.planned || ((j.segs.getD (2 + k) (0, 0)).2 == 0) then h
    else match j.seg (2 + k) with
      | none => h
      | some (bs, _) =>
        (h.updJob gu p dma fun j =>
          { j with rows := Tbl.put (fun _ => none) j.rows k (some (bs, j.segPoison (2 + k) bs.length)),
                   got := j.got.filter fun x => x.1 != 2 + k, flying := j.flying - 1, fetched := j.fetched + 1 }).addReg64
            (Reg.guRows gu) 1

/-! ### Delivery (R267, R268) -/

/-- The rows of output `n`, once all are in; an out-of-range row reads as zeros. -/
def GatherJob.rowsOf (j : GatherJob) (n : Nat) : Option (List (Option (List Byte × List Bool))) :=
  let ks := (List.range j.needs.length).filter fun k => (j.needs.getD k (0, none)).1 == n
  let zero : List Byte × List Bool := (List.replicate j.g.rowBytes 0, [])
  let rs := ks.map fun k =>
    match (j.needs.getD k (0, none)).2 with
    | none => some zero
    | some _ => Tbl.get (fun _ => none) j.rows k
  if rs.all Option.isSome then some rs else none

/-- Grains that are wholly written, the final partial one among them (R267). -/
def GatherJob.grainsDone (j : GatherJob) (done : List Nat) : Nat :=
  let n := leadLen done
  n / j.g.grain + if n = j.g.outputs && n % j.g.grain != 0 then 1 else 0

/-- GATHER_OUTPUT_WRITE: output `n` is written through slot 6 of the destination core and the grains it completes are
counted (R267). A granule that is down answers FAULT_PERMISSION (R234). -/
def Eff.gatherOutput (e : Eff) (gu p dma n : Nat) : Eff :=
  match e.hw.job gu p dma with
  | none => e
  | some j =>
    if !j.planned || j.ended || j.paused || j.outDone.contains n || decide (j.g.outputs ≤ n) then e
    else match j.rowsOf n, e.hw.gatherDest j, j.seg 0, j.seg 1 with
      | some rows, some dst, some (idx, ib), some (aux, ab) =>
        let (bs, pz) := j.g.output idx aux n rows
        let pz := if ib || ab then List.replicate (bs.length / 32) true else pz
        let a := (e.hw.body dst).phys (j.g.destAddr + n * j.g.destPitch)
        if !granulesUp (e.hw.up dst) a bs.length then e.gatherFails gu p dma Status.faultPermission
        else
          let done := j.outDone ++ [n]
          let grains := j.grainsDone done
          (e.arrivalUnit dst a bs pz).up fun h =>
            (h.updJob gu p dma fun j => { j with outDone := done, grains }).updBody dst fun b =>
              b.countC j.g.destCnt (grains - j.grains)
      | _, _, _, _ => e

/-- The status block of a job (R268). -/
def GatherJob.statusBytes (j : GatherJob) (status : Nat) (now : DWord) : List Byte :=
  leBytes 2 status ++ leBytes 2 0 ++ leBytes 4 j.outDone.length ++ leBytes 4 j.fetched ++ leBytes 4 j.hits ++
  leBytes 4 j.oob ++ leBytes 4 0 ++ leBytes 8 now.toNat

/-- The job leaves its unit, and its core DMA item may complete (R261). -/
def Hw.gatherLeaves (h : Hw) (gu : Nat) (j : GatherJob) : Hw :=
  (h.dropJob gu j.core j.dma).updBody j.core fun b =>
    if b.runs j.ctx j.gen then b.updDma j.dma fun x => { x with jobDone := true } else b

/-- Write the status block through slot 5 of the submitting core (R268); a granule that is down by then takes nothing
(R234). -/
def Eff.gatherEnd (e : Eff) (gu : Nat) (j : GatherJob) (status : Nat) : Eff :=
  if e.hw.slot5Busy j.core then e
  else if granulesUp (e.hw.up j.core) (j.at_ + 96) 32 then
    (e.slotWrite j.core 5 (j.at_ + 96) (j.statusBytes status e.hw.now) false).up fun h => h.gatherLeaves gu j
  else
    let e := e.up fun h => h.gatherLeaves gu j
    let b := e.hw.body j.core
    if b.runs j.ctx j.gen then
      e.imprecise j.core (((b.dma j.dma).map DmaEntry.pc).getD 0) trapGranule (BitVec.ofNat 32 (j.at_ + 96 - 32 * b.pbase))
    else e

/-- GATHER_STATUS_WRITE (R268). -/
def Eff.gatherStatus (e : Eff) (gu p dma : Nat) : Eff :=
  match e.hw.job gu p dma with
  | none => e
  | some j => if j.planned && !j.ended && !j.paused && leadLen j.outDone == j.g.outputs then e.gatherEnd gu j Status.ok else e

/-- A fetch of a job still awaits its response, its context reset or not. -/
def Hw.fetching (h : Hw) (gu p dma : Nat) : Bool :=
  (List.range 8).any fun n => (h.port n).reqs.any fun r => sameTransfer r.who (.gather gu p dma 0 0)

/-- GATHER_JOB_CANCEL: a job that was stopped has no fetch outstanding; it writes its status (R269). -/
def Eff.gatherCancel (e : Eff) (gu p dma : Nat) : Eff :=
  match e.hw.job gu p dma with
  | none => e
  | some j => if j.ended && !e.hw.fetching gu p dma then e.gatherEnd gu j j.status else e

end Sys2Proof.Machine
end

