-- ==== Sys2Proof/Machine/Ports.lean ====
section
/-!
DEFINITION. The memory ports: translation and issue of an access, the walk, responses, the Loft cache; resume and kill;
invalidations (09_translation_dma_memory_ports.md R362 to R366, R374, R389 to R399; 06_pantry_loft_gather.md R241 to
R246).
-/
namespace Sys2Proof.Machine

open Sys2Proof

/-! ### The Loft cache (06 R241 to R245) -/

/-- The ways of a partition's cache. -/
def Hw.cacheWays (h : Hw) (part : Nat) : List Nat :=
  (List.range 16).filter fun n =>
    let r := h.reg (Reg.loftWay n)
    fld r 9 8 == 1 && fld r 3 0 == part

/-- Slice and set of a line address (R242). -/
def lineSlice (la : Nat) : Nat := nbits la 3 0 ^^^ nbits la 7 4 ^^^ nbits la 11 8 ^^^ nbits la 15 12
def lineSet (la : Nat) : Nat := nbits la 14 4

/-- A read of a partition may allocate in the cache (R241). -/
def Hw.cacheable (h : Hw) (part la : Nat) : Bool :=
  !(h.cacheWays part).isEmpty && !h.sliceOff (lineSlice la)

/-- The line that a partition's cache holds. -/
def Hw.cacheLine (h : Hw) (part la : Nat) : Option CacheLine :=
  h.loft.lines.find? fun x => x.la == la && (h.cacheWays part).contains x.way

/-- A hit makes the line the most recently used. -/
def Hw.touchLine (h : Hw) (x : CacheLine) : Hw :=
  h.updLoft fun l =>
    { l with clock := l.clock + 1, lines := l.lines.map fun y => if y = x then { y with used := l.clock } else y }

/-- Install a line: the invalid way of lowest number, or the least recently used line of the partition in the set
(R242). -/
def Hw.installLine (h : Hw) (part la : Nat) (data : List Byte) (poison : List Bool) : Hw :=
  if !h.cacheable part la then h
  else
    let s := lineSlice la
    let t := lineSet la
    let ways := h.cacheWays part
    let here := h.loft.lines.filter fun x => x.slice == s && x.set == t && ways.contains x.way && x.la != la
    let free := ways.find? fun w => !here.any fun x => x.way == w
    let lru := here.foldl (fun (m : Option CacheLine) x =>
      match m with
      | none => some x
      | some y => if x.used < y.used then some x else some y) none
    match free <|> lru.map CacheLine.way with
    | none => h
    | some w =>
      h.updLoft fun l =>
        { l with
          clock := l.clock + 1
          lines := ⟨s, t, w, la, data, poison, l.clock⟩ ::
            l.lines.filter fun x => !(x.slice == s && x.set == t && x.way == w) && !(x.la == la && ways.contains x.way) }

/-- A line address falls in a range of physical bytes; no range covers all. -/
def inRange (r : Option (Nat × Nat)) (la : Nat) : Bool :=
  match r with
  | none => true
  | some (base, size) => decide (128 * la < base + size) && decide (base < 128 * la + 128)

/-- Begin an invalidation: covered lines go, and covered fills that are outstanding will not be installed. -/
def Hw.cacheInvalidate (h : Hw) (v : CacheInv) : Hw :=
  let ways := h.cacheWays v.part
  (h.updLoft fun l =>
    { l with
      inv := l.inv ++ [v]
      lines := l.lines.filter fun x => !(ways.contains x.way && inRange v.range x.la)
      fills := l.fills.map fun f => if f.part == v.part && inRange v.range f.la then { f with install := false } else f
    }).setRegBit Reg.loftInvStatus 0 true

/-! ### Delivery -/

/-- Deliver bytes of a read to its requester. -/
def Eff.deliver (e : Eff) (w : Requester) (o : Nat) (bs : List Byte) (poison : Bool) : Eff :=
  match w with
  | .coreDma p id off => e.dmaDeliver p id (off + o) bs poison
  | .engineDma item off => e.engineDeliver item (off + o) bs poison
  | .gather gu p dma seg off => e.gatherDeliver gu p dma seg (off + o) bs poison
  | .own id off => e.up fun h => h.updOwn id fun j => { j with acked := j.acked ++ [(off + o, bs.length)] }
  | _ => e

/-- A hit delivers the words of a line with their poison (R245). -/
def Eff.hit (e : Eff) (a : Access) (x : CacheLine) (pa : Nat) : Eff :=
  let e := e.up fun h => h.touchLine x
  let e := match a.who with
    | .gather gu p dma _ _ => e.up fun h => (h.updJob gu p dma fun j => { j with hits := j.hits + 1 }).addReg64 (Reg.guHits gu) 1
    | _ => e
  let lo := pa % 128
  e.each (List.range (a.bytes / 32)) fun e w =>
    e.deliver a.who (32 * w) ((x.data.drop (lo + 32 * w)).take 32) (x.poison.getD ((lo + 32 * w) / 32) false)

/-- The transfer goes on behind an access that has left. Core DMA and engine DMA count it when its translation begins, a
gather job when it is granted. -/
def Hw.accessLeft (h : Hw) (a : Access) : Hw :=
  match a.who with
  | .coreDma p id _ => h.dmaIssued p id a.bytes
  | .engineDma item o => h.engineIssued a item o
  | .own id _ => h.updOwn id fun j => { j with issued := j.issued + a.bytes }
  | _ => h

/-- A transfer of the engine's own has `n` bytes from `o` answered. -/
def Hw.ownAcked (h : Hw) (id o n : Nat) (err : Bool) : Hw :=
  h.updOwn id fun j => { j with acked := j.acked ++ [(o, n)], dataErr := j.dataErr || err }

def Hw.accessGranted (h : Hw) (a : Access) : Hw :=
  match a.who with
  | .gather gu p dma s o => h.gatherIssued gu p dma s o a.bytes
  | _ => h

/-- A walk waits. -/
def Hw.walkWait (h : Hw) (w : WalkRun) : Hw :=
  h.updAtu fun a => { a with walks := a.walks.filter (fun x => x.id != w.id) ++ [w] }

/-- A page of a CACHE_INV range is translated: its physical range is invalidated, and the next page follows (08 R331). -/
def Hw.invPage (h : Hw) (a : Access) (pa shift : Nat) : Hw :=
  match a.who with
  | .own id _ =>
    match h.own? id with
    | none => h
    | some j =>
      match j.goal with
      | .invalidate item =>
        let n := min (2 ^ shift - a.va % 2 ^ shift) (j.total - j.issued)
        let h := (h.updOwn id fun j => { j with issued := j.issued + n, acked := [(0, j.issued + n)] }).cacheInvalidate
          ⟨a.part, some (pa, n), some item⟩
        if j.total ≤ j.issued + n then h.dropOwn id else h
      | _ => h
  | _ => h

/-- An access with its leaf: the checks of R361 and R382, then the cache or the port. Without a free tag it waits. -/
def Eff.granted (e : Eff) (a : Access) (port : Nat) (t : TbEntry) : Eff :=
  let leaf := t.leaf
  let level := t.level
  let pa := leafPa level leaf a.va
  if a.only then e.up fun h => h.invPage a pa (leafShift level leaf)
  else if !leafAdmits leaf a.write then
    (e.up fun h => h.setPort port
      { h.port port with tb := (h.port port).tb.filter fun t => !t.serves (leafShift t.level t.leaf) a.ctx a.gen a.va }).fault a port
        Cause.permission false level t.pa leaf
  else if !e.hw.admitted pa a.part false a.write then e.fault a port Cause.firewall false level pa 0
  else
    let la := pa / 128
    let may := a.cache && entryC leaf && e.hw.cacheable a.part la
    match (if may then e.hw.cacheLine a.part la else none) with
    | some x => (e.up fun h => h.accessGranted a).hit a x pa
    | none =>
      let filling := e.hw.loft.fills.any fun f => f.la == la && f.part == a.part
      let fill := if may && !filling then some la else none
      match (e.hw.port port).freeTag with
      | none => e.up fun h =>
          (h.updAtu fun t => { t with nextWalk := t.nextWalk + 1 }).walkWait
            { id := h.atu.nextWalk, port, acc := a, level, table := 0, path := [], stage := .found t }
      | some tag =>
        let r : Req := { tag, ctx := a.ctx, gen := a.gen, sys := false, write := a.write, pa, bytes := a.bytes, beat := 0,
                         who := a.who, orphan := false, part := a.part, va := a.va, page := some (leafShift level leaf), fill }
        e.up fun h =>
          let h := h.accessGranted a
          let h := match fill with
            | some la => h.updLoft fun l => { l with fills := l.fills ++ [CacheFill.mk la a.part [] false true] }
            | none => h
          h.request port r a.data a.poison

/-! ### The walk (R362) -/

/-- Read the entry of a walk's level: the read is checked by the firewall as any other. -/
def Eff.walkRead (e : Eff) (w : WalkRun) : Eff :=
  let pa := w.table + 8 * tableIndex w.level w.acc.va
  let port := portOf pa
  let drop (h : Hw) : Hw := h.updAtu fun a => { a with walks := a.walks.filter fun x => x.id != w.id }
  if !e.hw.admitted pa w.acc.part false false then
    (e.up drop).fault w.acc w.port Cause.firewall true w.level pa 0
  else
    match (e.hw.port port).freeTag with
    | none => e.up fun h => h.walkWait { w with stage := .blocked }
    | some tag =>
      e.up fun h =>
        (h.walkWait { w with stage := .reading }).request port
          { tag, ctx := w.acc.ctx, gen := w.acc.gen, sys := false, write := false, pa := pa / 64 * 64, bytes := 64, beat := 0,
            who := .walk w.id, orphan := false, part := w.acc.part, va := 0, page := none, fill := none } [] []

/-- The entry of a walk's level has come: the first outcome of R362 that applies. -/
def Eff.walkEntry (e : Eff) (id : Nat) (data : List Byte) (poison addrErr : Bool) : Eff :=
  match e.hw.atu.walks.find? fun w => w.id == id with
  | none => e
  | some w =>
    let pa := w.table + 8 * tableIndex w.level w.acc.va
    let x : DWord := BitVec.ofNat 64 (leField data (pa % 64) 8)
    let e1 := e.up fun h => h.updAtu fun a => { a with walks := a.walks.filter fun y => y.id != id }
    if addrErr then e1.fault w.acc w.port Cause.decode true w.level pa 0
    else if poison then e1.fault w.acc w.port Cause.entryPoison false w.level pa 0
    else if !entryV x then e1.fault w.acc w.port Cause.translation false w.level pa x
    else if entryReserved w.level x then e1.fault w.acc w.port Cause.reservedBit false w.level pa x
    else if entryLeaf x then
      if !w.acc.only && !leafAdmits x w.acc.write then e1.fault w.acc w.port Cause.permission false w.level pa x
      else
        let leaf : TbEntry := ⟨w.acc.ctx, w.acc.gen, w.acc.va / 2 ^ leafShift w.level x, w.level, x, pa⟩
        (e1.up fun h => h.setPort w.port ((w.path.foldl (fun p t => p.installTable t) (h.port w.port)).install leaf)).granted w.acc
          w.port leaf
    else
      let t : TbEntry := ⟨w.acc.ctx, w.acc.gen, w.acc.va / 2 ^ (12 + 9 * w.level), w.level, x, pa⟩
      e.walkRead { w with level := w.level - 1, table := entryAddr x, path := w.path ++ [t] }

/-! ### ADDRESS_TRANSLATE -/

/-- A front end makes reads of its context: one that is resident, not paused and not being reset. -/
def Hw.readsFor (h : Hw) (q : Nat) : Option Queue :=
  match h.queue? q with
  | none => none
  | some x => if !h.resident x.ctx || h.noStart x.ctx then none else some x

/-- A read of the Caller for a command of a queue (R353), within a 256-byte block (R355). -/
def Hw.queueAccess (h : Hw) (q : Nat) (x : Queue) (va bytes : Nat) : Access :=
  { who := .other 3 q, ctx := x.ctx, gen := h.genOf x.ctx, part := x.part, va, bytes := pieceLen va (max bytes 1),
    write := false, tag := ((x.holdItem.bind h.item?).map Item.tag).getD 0 }

/-- The read of packet `n` of the next command of a queue: TAIL covers it, and its frame has it (08 R312, R314). -/
def Hw.packetAccess (h : Hw) (q n : Nat) : Option Access :=
  match h.readsFor q with
  | none => none
  | some x =>
    if x.destroying.isSome || x.hold.isSome || x.avail ≤ n || ((h.ctx? x.ctx).map Ctx.evicting).getD true then none
    else some (h.queueAccess q x (x.packetVa n) 64)

/-- A read of a link port's rings or of the mirror, whose register names context and partition (11 R440, R476). -/
def Hw.linkAccess (h : Hw) (ctxReg index va bytes : Nat) : Option Access :=
  let c := h.regFld ctxReg 11 0
  if (h.ctx? c).isNone || h.noStart c then none
  else some { who := .other 1 index, ctx := c, gen := h.genOf c, part := h.regFld ctxReg 19 16, va,
              bytes := pieceLen va (max bytes 1), write := false }

/-- The next access of a transfer of the engine's own. A context reset refuses it until its new generation (R399). -/
def Hw.ownAccess (h : Hw) (id : Nat) : Option Access :=
  match h.own? id with
  | none => none
  | some j =>
    if j.sys || j.paused || (h.ctx? j.ctx).isNone || (h.caller.resets.any fun r => r.ctx == j.ctx && !r.genDone) then none
    else match partAt j.parts j.issued with
      | none => none
      | some (p, o) =>
        let va := (p.at_ + o) % 2 ^ 48
        let only := match j.goal with
          | .invalidate _ => true
          | _ => false
        let n := if only then 0 else pieceLen va (p.len - o)
        some { who := .own id j.issued, only, ctx := j.ctx, gen := h.genOf j.ctx, part := j.part, va, bytes := n, write := j.write,
               nopause := j.nopause, tag := j.tag, data := (p.data.drop o).take n,
               poison := (p.poison.drop (o / 32)).take (ceilDiv n 32) }

/-- The kernel that a partition has chosen and a core of it by rank, while the kernel's switch is at work. -/
def Hw.startingOn (h : Hw) (part l : Nat) : Option (Kernel × Nat) :=
  match h.kernel? part, (h.partCores part).idxOf? l with
  | some k, some r => if k.phase = 0 && !h.noStart k.job.ctx then some (k, r) else none
  | _, _ => none

/-- The code load of a logical core, unless its Instruction Store holds the code (08 R321). -/
def Hw.codeLoad (h : Hw) (part l : Nat) : Option OwnJob :=
  match h.startingOn part l with
  | some (k, _) =>
    if h.codeHeld (h.phys l) k.job then none
    else some (ownRead 4 (64 * part + l) k.job.ctx part [⟨k.job.codeVa, 16 * k.job.bundles, [], []⟩])
  | none => none

/-- The Cellar restore of a logical core: the payloads of its rank's image (06 R248, R250). -/
def Hw.cellarLoad (h : Hw) (part l : Nat) : Option OwnJob :=
  match h.startingOn part l with
  | some (k, r) =>
    if !k.restoreDue then none
    else match h.caller.cellar.find? fun i => i.ctx == k.job.ctx && i.part == part && i.rank == r, h.ctx? k.job.ctx with
      | some i, some x =>
        let base := x.cellarBase + r * x.cellarStride + 512
        let parts := (i.regions.foldl (fun (t : List OwnPart × Nat) g =>
          (t.1 ++ [⟨base + t.2, 32 * g.2.1, [], []⟩], t.2 + ceilDiv (32 * g.2.1) 256 * 256)) ([], 0)).1
        some (ownRead 7 (64 * part + l) k.job.ctx part parts)
      | _, _ => none
  | none => none

/-- A read of the engine's own that a command will take its data from: it begins with its first access. -/
def Eff.ownBegin (e : Eff) (unit_ index : Nat) (new : Option OwnJob) : Eff × Option Access :=
  let mine (j : OwnJob) : Bool := j.unit_ == unit_ && j.index == index && !j.write
  match e.hw.atu.own.find? mine, new with
  | some j, _ => (e, e.hw.ownAccess j.id)
  | none, some j =>
    let e := e.up fun h => h.addOwn j
    (e, ((e.hw.atu.own.find? mine).bind fun j => e.hw.ownAccess j.id))
  | none, none => (e, none)

/-- The access that an asker makes next. -/
def Eff.next (e : Eff) : Asker → Eff × Option Access
  | .coreDma p id => (e, e.dmaAccess p id)
  | .engineDma c => (e, e.engineAccess c)
  | .gather gu part => (e, e.hw.gatherAccess gu part)
  | .packet q n => (e, e.hw.packetAccess q n)
  | .caller q va n => (e, (e.hw.readsFor q).map fun x => e.hw.queueAccess q x va.toNat n)
  | .code part l => e.ownBegin 4 (64 * part + l) (e.hw.codeLoad part l)
  | .cellar part l => e.ownBegin 7 (64 * part + l) (e.hw.cellarLoad part l)
  | .own id => (e, e.hw.ownAccess id)
  | .link n ring va bytes =>
    (e, e.hw.linkAccess (Reg.lnkHostctx n) (if ring.val = 8 then 32 + n.val else 16 + 8 * n.val + ring.val) va.toNat bytes)
  | .mirror receive va bytes => (e, e.hw.linkAccess Reg.mirrorCtx (if receive then 49 else 48) va.toNat bytes)

/-- The words of the Loft that an access takes or gives, when it has a Loft side: its partition must own them (06 R237). -/
def Hw.loftSide (h : Hw) (a : Access) : Option (Nat × Nat × Bool) :=
  match a.who with
  | .coreDma p id o =>
    match ((h.body p).dma id).bind DmaEntry.desc with
    | some d => if d.kind = 4 ∨ d.kind = 5 then some (d.loftWord o, a.bytes / 32, d.kind == 4) else none
    | none => none
  | .engineDma item o =>
    match h.engine item with
    | some x => ((edescOf x.desc).loftSide o).map fun s => (s.1, a.bytes / 32, s.2)
    | none => none
  | _ => none

/-- The walk of an access is under way. -/
def Hw.walking (h : Hw) (a : Access) : Bool :=
  h.atu.walks.any fun w => w.acc.who == a.who && w.acc.va == a.va

/-- What a core DMA write takes from its core: its errors, and its bytes for a signature (12 R500). -/
def Eff.dmaSource (e : Eff) (a : Access) : Eff :=
  match a.who with
  | .coreDma p id o =>
    if !a.write then e
    else
      let e := match e.hw.loftSide a with
        | some (w, n, _) => e.loftErrors w n false
        | none =>
          match ((e.hw.body p).dma id).bind DmaEntry.desc with
          | some d => e.pantryErrors p ((e.hw.body p).dmaByte d o) a.bytes false
          | none => e
      e.up fun h => h.signChunk p id o a.data
  | .engineDma .. =>
    match e.hw.loftSide a with
    | some (w, n, false) => e.loftErrors w n false
    | _ => e
  | _ => e

/-- An access is translated: by the port's buffer, or by a walk (R362, R363), unless a record of its unit waits (R373). A
write of a Redeal copy is answered OK where it would leave (12 R500). -/
def Eff.translate (e : Eff) (a : Access) : Eff :=
  let port := portOf a.va
  let h := e.hw
  if h.unitWaits a.who then e
  else match h.loftSide a with
  | some (w, n, write) =>
    if h.loftBusy w then e
    else if !h.loftOk a.part w n write then
      e.fault { a with va := 0 } port Cause.loftFirewall false 0 w 0
    else go port h
  | none => go port h
where
  go (port : Nat) (h : Hw) : Eff :=
    match a.who with
    | .coreDma p id o =>
      if a.write && h.isCopy a.part then
        ((e.dmaSource a).up fun h => (h.accessLeft a).dmaAcked p id o a.bytes)
      else lookup port h
    | _ => lookup port h
  lookup (port : Nat) (h : Hw) : Eff :=
    if (h.port port).freeTag.isNone then e
    else match (h.port port).lookup a.ctx a.gen a.va with
      | some t =>
        ((e.dmaSource a).up fun h => (h.addReg64 (Reg.tbHits port) 1).accessLeft a).granted a port t
      | none =>
        if h.walking a || h.paused a.ctx && !a.nopause || decide (64 ≤ (h.atu.walks.filter fun w => w.port == port).length) then e
        else
          let id := h.atu.nextWalk
          let (level, table) := match (h.port port).walkStart a.ctx a.gen a.va with
            | some t => (t.level - 1, entryAddr t.leaf)
            | none => (3, ((h.ctx? a.ctx).map Ctx.root).getD 0)
          ((e.dmaSource a).up fun h =>
            ((h.addReg64 (Reg.tbMisses port) 1).accessLeft a).updAtu fun t => { t with nextWalk := id + 1 }).walkRead
              { id, port, acc := a, level, table, path := [], stage := .blocked }

/-- ADDRESS_TRANSLATE. -/
def Eff.addressTranslate (e : Eff) (k : Asker) : Eff :=
  match k, e.next k with
  | .coreDma p id, (e, none) => e.pantryPiece p id
  | .coreDma p id, (e, some a) =>
    match (((e.hw.body p).dma id).bind fun x => x.desc.map fun d => (x, d)) with
    | some (x, d) =>
      if e.hw.unitWaits a.who then e
      else if d.kind = 1 then e.dmaGranule p x ((e.hw.body p).dmaByte d x.issued) a.bytes fun e => e.translate a
      else e.translate a
    | none => e
  | _, (e, some a) => e.translate a
  | _, (e, none) => e

/-! ### Responses (R392 to R398) -/

/-- A protocol error is counted and reported to the Safety Monitor (R397; 12 R485 code 0x05). -/
def Hw.protoErr (h : Hw) (port : Nat) : Hw := (h.satReg (Reg.kfpProtoErr port)).checkerA 0x05 port

/-- The ports are in reset: no response is taken (R393, 16 R607). -/
def Hw.portsReset (h : Hw) : Bool := !h.boot.good || h.boot.rstPhase == some 3 || h.boot.rstPhase == some 4

/-- A response belongs to work that no longer counts (R398). -/
def Hw.late (h : Hw) (r : Req) : Bool := r.orphan || (!r.sys && r.gen != h.genOf r.ctx)

/-- A tag is free: a system write, and a walk or an access, that waited for one goes on. -/
def Eff.freed (e : Eff) (port : Nat) : Eff :=
  let e := e.up Hw.sysPump
  let mine (w : WalkRun) : Bool :=
    match w.stage with
    | .reading => false
    | .blocked => portOf (w.table + 8 * tableIndex w.level w.acc.va) == port
    | .found _ => w.port == port
  match e.hw.atu.walks.find? mine with
  | none => e
  | some w =>
    match w.stage with
    | .found t =>
      (e.up fun h => h.updAtu fun a => { a with walks := a.walks.filter fun x => x.id != w.id }).granted w.acc port t
    | _ => e.walkRead w

/-- A request has its response: its tag is free, and an invalidation waits for it no more. -/
def Hw.dropReq (h : Hw) (port tag : Nat) : Hw :=
  let p := h.port port
  (h.setPort port { p with reqs := p.reqs.filter fun r => r.tag != tag }).updAtu fun a =>
    { a with inv := a.inv.map fun v => { v with waits := v.waits.filter fun x => x != (port, tag) } }

def Hw.updReq (h : Hw) (port tag : Nat) (f : Req → Req) : Hw :=
  let p := h.port port
  h.setPort port { p with reqs := p.reqs.map fun r => if r.tag = tag then f r else r }

/-- A beat of a fill arrives; with the last the line is ready (06 R242). -/
def Hw.fillBeat (h : Hw) (la part k : Nat) (data : List Byte) (poison last : Bool) : Hw :=
  h.updLoft fun l =>
    { l with fills := l.fills.map fun f =>
        if f.la = la ∧ f.part = part then { f with data := f.data ++ [(64 * k, data, poison)], ready := f.ready || last } else f }

/-- The access of a request, for a fault that its response causes. -/
def Hw.accessOf (h : Hw) (r : Req) : Access :=
  let own := match r.who with
    | .own id _ => h.own? id
    | _ => none
  { who := r.who, ctx := r.ctx, gen := r.gen, part := r.part, va := r.va, bytes := r.bytes, write := r.write,
    nopause := (own.map OwnJob.nopause).getD false
    tag := match r.who with
      | .engineDma item _ => ((h.item? item).map Item.tag).getD 0
      | .other 3 q => (((h.queue? q).bind Queue.holdItem).bind h.item?).map Item.tag |>.getD 0
      | _ => (own.map OwnJob.tag).getD 0 }

/-- One beat of a read comes back (R393, R395, R397, R398). -/
def Eff.readBeat (e : Eff) (port tag beat : Nat) (data : List Byte) (poison last : Bool) (err : Nat) : Eff :=
  match (e.hw.port port).reqs.find? fun r => r.tag == tag && !r.write with
  | none => e.up fun h => h.protoErr port
  | some r =>
    let final := last || beat + 1 == r.beats
    if beat != r.beat || r.beats ≤ beat || err == 3 || (err != 2 && last != (beat + 1 == r.beats)) then
      e.up fun h => h.protoErr port
    else
      let bad := poison || err == 1
      let late := e.hw.late r
      let e := e.up fun h => if final then h.dropReq port tag else h.updReq port tag fun r => { r with beat := r.beat + 1 }
      if late then if final then e.up fun h => h.satReg (Reg.kfpLate port) else e
      else
        let e := if bad then e.up fun h => h.satReg (Reg.kfpPoisonIn port) else e
        if err = 2 then
          let e := e.up fun h => h.updReq port tag fun r => { r with orphan := true }
          let e := match r.fill with
            | some la => e.up fun h => h.updLoft fun l => { l with fills := l.fills.filter fun f => !(f.la == la && f.part == r.part) }
            | none => e
          match r.who with
          | .walk id => e.walkEntry id [] false true
          | _ => e.fault (e.hw.accessOf r) port Cause.decode false 0 r.pa 0
        else
          let at_ := r.base + 64 * beat
          let lo := max r.pa at_
          let hi := min (r.pa + r.bytes) (at_ + 64)
          let n := hi - lo
          let bytes := sliceBytes data (lo - at_) n
          let e := e.up fun h => h.addReg64 (Reg.kfpRdBytes port) n
          let e := match r.fill with
            | some la => e.up fun h => h.fillBeat la r.part beat (sliceBytes data 0 64) bad final
            | none => e
          match r.who with
          | .walk id => e.walkEntry id bytes bad false
          | w => if n = 0 then e else e.deliver w (lo - r.pa) bytes bad

/-- One beat of a read comes back, and what waited for its tag goes on. -/
def Eff.readResponse (e : Eff) (port tag beat : Nat) (data : List Byte) (poison last : Bool) (err : Nat) : Eff :=
  if e.hw.portsReset then e else (e.readBeat port tag beat data poison last err).freed port

/-- A write response (R394, R395, R397, R398): the lines that the write covers leave the caches before it counts (06
R243). A write of the engine's own that may not have been performed says so to its goal (R372); so does a system write
that found no target, which is no context's fault. -/
def Eff.writeAnswer (e : Eff) (port tag err : Nat) : Eff :=
  match (e.hw.port port).reqs.find? fun r => r.tag == tag && r.write with
  | none => e.up fun h => h.protoErr port
  | some r =>
    if err = 3 then e.up fun h => h.protoErr port
    else
      let e := e.up fun h => (h.dropReq port tag).dropLines r.pa r.bytes
      if e.hw.late r then e.up fun h => h.satReg (Reg.kfpLate port)
      else if err = 2 && !r.sys then e.fault (e.hw.accessOf r) port Cause.decode false 0 r.pa 0
      else
        e.up fun h =>
          let h := h.addReg64 (Reg.kfpWrBytes port) r.bytes
          match r.who with
          | .coreDma p id o =>
            let h := h.dmaAcked p id o r.bytes
            if err = 1 then h.updBody p fun b => { b with flags := b.flags ||| 1#4 } else h
          | .engineDma item o => h.updEngine item fun d =>
              { d with acked := d.acked ++ [(o, r.bytes)], dataErr := d.dataErr || err == 1 }
          | .own id o => h.ownAcked id o r.bytes (err != 0)
          | _ => h

/-- A write response, and what waited for its tag goes on. -/
def Eff.writeResponse (e : Eff) (port tag err : Nat) : Eff :=
  if e.hw.portsReset then e else (e.writeAnswer port tag err).freed port

/-- WALK_READ_RETURN: the one beat of a page-table read. -/
def Eff.walkReturn (e : Eff) (port tag : Nat) (data : List Byte) (poison : Bool) (err : Nat) : Eff :=
  match (e.hw.port port).reqs.find? fun r => r.tag == tag && !r.write with
  | some r =>
    match r.who with
    | .walk _ => e.readResponse port tag 0 data poison true err
    | _ => e
  | none => e.readResponse port tag 0 data poison true err

/-- LOFT_CACHE_FILL: the outstanding fill `n`, once complete, is installed unless an invalidation or a write has covered
it (06 R242, R244, R245). -/
def Hw.cacheFill (h : Hw) (n : Nat) : Hw :=
  match h.loft.fills[n]? with
  | none => h
  | some f =>
    if !f.ready then h
    else
      let h := h.updLoft fun l => { l with fills := l.fills.eraseIdx n }
      match f.install, pieceOf f.data 0 128 with
      | true, some (bs, _) => h.installLine f.part f.la bs (piecePoison f.data 0 128)
      | _, _ => h

/-! ### Resume and kill (R374, R375) -/

/-- A paused transfer goes on at its BYTES_DONE (R369). -/
def Hw.resumeTransfer (h : Hw) (w : Requester) : Hw :=
  match w with
  | .coreDma p id _ => h.updBody p fun b => b.updDma id fun x =>
      let d := bytesDone x.acked.length x.acked
      { x with paused := false, issued := d, acked := if d = 0 then [] else [(0, d)], buf := [] }
  | .engineDma item _ => h.updEngine item fun x =>
      let d := x.done
      { x with paused := false, issued := d, acked := if d = 0 then [] else [(0, d)], buf := [], resumes := x.resumes + 1 }
  | .gather gu p dma _ _ => (h.updJob gu p dma GatherJob.restart).updBody p fun b => b.updDma dma fun x => { x with paused := false }
  | .own id _ => h.updOwn id fun j =>
      let d := j.done
      { j with paused := false, issued := d, acked := if d = 0 then [] else [(0, d)] }
  | _ => h

/-- FAULT_RECORD_WRITE: record `n` of those that wait is sent to the ring: the first of its unit, with no request of its
transfer outstanding and no other record on its way. A firewall that denies the write closes the ring (R372, R373). -/
def Hw.faultRecordWrite (h : Hw) (n : Nat) : Hw :=
  match h.atu.faults[n]? with
  | none => h
  | some f =>
    let c := h.reg Reg.faultRingCtrl
    let tail := h.reg Reg.faultTail
    let log := ringLog c
    if !bitOf c 0 || h.faultRecFlies || !ringRoom tail (h.reg Reg.faultHead) log ||
        ((h.atu.faults.take n).any fun g => g.unit_ == f.unit_ && g.index == f.index) ||
        ((f.who.map h.flying).getD false) then h
    else
      let pa := h.ringBase Reg.faultRingBase + 64 * (tail.toNat % 2 ^ log)
      if !h.admitted pa 0 true true then (h.setRegBit Reg.faultRingCtrl 0 false).setRegBit Reg.faultStatus 0 true
      else
        let done := match f.who with
          | some w => h.doneOf w
          | none => f.bytesDone
        let h := h.updAtu fun a => { a with faults := a.faults.map fun g => if g.seq = f.seq then { g with bytesDone := done } else g }
        h.sysWrite pa { f with bytesDone := done }.bytes (.faultRing f.seq)

/-- Record `f` was taken before record `g`. -/
def FaultRec.before (f g : FaultRec) : Bool := decide ((g.seq - f.seq).toNat < 2 ^ 31)

/-- A fault record is in memory (R368, R373): FAULT_TAIL advances, and a restartable fault pauses its context. -/
def Hw.faultRecorded (h : Hw) (f : FaultRec) : Hw :=
  let tail := h.reg Reg.faultTail
  let h := (h.updAtu fun a => { a with faults := a.faults.filter fun g => g.seq != f.seq }).setReg Reg.faultTail (tail + 1)
  let h := if tail = h.reg Reg.faultHead then h.irqOf Reg.faultRingCtrl 14 8 else h
  if f.cause < 5 && f.who.isSome && f.gen == h.genOf f.ctx then
    h.updCtx f.ctx fun c =>
      { c with pause := c.pause ++ [f]
               pauseFirst := match c.pauseFirst with
                 | some g => if g.before f then some g else some f
                 | none => some f }
  else h

/-- The write of a fault record has its responses: the record is in memory, or the ring is closed and keeps its TAIL
(R372). -/
def Hw.faultRingDone (h : Hw) (seq : Word) (failed : Bool) : Hw :=
  if failed then (h.setRegBit Reg.faultRingCtrl 0 false).setRegBit Reg.faultStatus 0 true
  else match h.atu.faults.find? fun f => f.seq == seq with
    | some f => h.faultRecorded f
    | none => h

/-- CTX_OP_STATUS.RESULT. -/
def Hw.ctxOpResult (h : Hw) (st : Status) : Hw := h.setRegFld Reg.ctxOpStatus 15 0 st

/-- RESUME: the context leaves the pause, and its paused transfers go on (R374). One whose record still waits stays as it
is, and pauses the context again with its record. -/
def Hw.ctxResume (h : Hw) (c : Nat) : Hw :=
  match h.ctx? c with
  | none => h.ctxOpResult Status.conflict
  | some x =>
    if x.pause.isEmpty then h.ctxOpResult Status.conflict
    else
      let h := x.pause.foldl (fun h f => match f.who with | some w => h.resumeTransfer w | none => h) h
      let h := (h.queuesOf c).foldl Hw.retryRecords h
      (h.updCtx c fun x => { x with pause := [], pauseFirst := none, recFaultSaid := false }).ctxOpResult Status.ok

/-- Faults in the order in which they were taken. -/
def sortFaults (fs : List FaultRec) : List FaultRec :=
  fs.foldl (fun s f => s.takeWhile (fun g => g.before f) ++ f :: s.dropWhile (fun g => g.before f)) []

/-- KILL: each paused item, and the kernel that waits on one, takes the status of its own fault, that of the lowest SEQ
where there are several (R374); the first record of the pause names the charged partition (13 R531). -/
def Eff.ctxKill (e : Eff) (c : Nat) : Eff :=
  match e.hw.ctx? c with
  | none => e.up fun h => h.ctxOpResult Status.conflict
  | some x =>
    let waits := e.hw.atu.faults.filter fun f => f.ctx == c && decide (f.cause < 5) && f.who.isSome
    match x.pause.isEmpty, sortFaults (x.pause ++ waits) with
    | false, f :: fs =>
      let own := ((f :: fs).map fun g =>
        (match g.who with | some w => e.hw.itemsOfTransfer w g.part g.ctx | none => []).map fun i => (i, g.status, (0 : Word))).flatten
      let f := match x.pauseFirst with
        | some g => if g.before f then g else f
        | none => f
      let f := { f with bytesDone := (f.who.map e.hw.doneOf).getD f.bytesDone }
      (e.reset { ctx := c, status := f.status, counted := true, part := some f.part, own, fault := f.bytes }).up fun h =>
        h.ctxOpResult Status.ok
    | _, _ => e.up fun h => h.ctxOpResult Status.conflict

/-! ### Invalidation of translations (R365, R366) -/

/-- A translation entry falls in the scope of an invalidation. -/
def TbInv.covers (v : TbInv) (t : TbEntry) (shift : Nat) : Bool :=
  match v.scope with
  | 0 => t.ctx == v.ctx
  | 1 => t.ctx == v.ctx && decide (t.base * 2 ^ shift < v.va + v.size) && decide (v.va < (t.base + 1) * 2 ^ shift)
  | _ => true

/-- An entry of an invalidation's scope translated a request: a walk's read has none. -/
def Req.meets (v : TbInv) (r : Req) : Bool :=
  match r.page with
  | none => false
  | some s =>
    match v.scope with
    | 0 => r.ctx == v.ctx
    | 1 => r.ctx == v.ctx && decide (r.va / 2 ^ s * 2 ^ s < v.va + v.size) && decide (v.va < (r.va / 2 ^ s + 1) * 2 ^ s)
    | _ => true

/-- Take the entries of a scope from all ports. -/
def Hw.tbDrop (h : Hw) (v : TbInv) : Hw :=
  (List.range 8).foldl (fun h n =>
    let p := h.port n
    h.setPort n { p with
      tb := p.tb.filter fun t => !v.covers t (leafShift t.level t.leaf)
      walkCache := p.walkCache.filter fun t => !v.covers t (12 + 9 * t.level) }) h

/-- A write of TB_INV_CTRL starts an invalidation, or is refused while one is at work. BUSY waits for the requests outstanding then:
those that an entry of the scope translated; walks of the context begin again. -/
def Eff.tbInvalidate (e : Eff) (scope c : Nat) : Eff :=
  let h := e.hw
  if h.atu.inv.isSome then e.up fun h => h.setRegBit Reg.tbInvStatus 1 true
  else
    let va := h.reg64 Reg.tbInvVa % 2 ^ 48
    let size := h.reg64 Reg.tbInvSize % 2 ^ 48
    if scope = 3 || (scope == 1 && size == 0) then e
    else
      let v0 : TbInv := ⟨scope, c, va, size, []⟩
      let waits := ((List.range 8).map fun n =>
        ((h.port n).reqs.filter (Req.meets v0)).map fun r => (n, r.tag)).flatten
      let h := (h.tbDrop v0).updAtu fun a => { a with inv := some { v0 with waits } }
      let ws := h.atu.walks.filter fun w => scope == 2 || w.acc.ctx == c
      let h := h.setRegBit Reg.tbInvStatus 0 true
      ws.foldl (fun e w => e.walkRead
        { w with id := e.hw.atu.nextWalk, level := 3, table := ((e.hw.ctx? w.acc.ctx).map Ctx.root).getD 0, path := [] } |>.up fun h =>
          h.updAtu fun a => { a with nextWalk := a.nextWalk + 1, walks := a.walks.filter fun x => x.id != w.id }) { e with hw := h }

/-- TB_INV_DONE: every request that was outstanding then has its response; BUSY clears. -/
def Hw.tbInvDone (h : Hw) : Hw :=
  match h.atu.inv with
  | none => h
  | some v =>
    if !v.waits.isEmpty then h else (h.updAtu fun a => { a with inv := none }).setRegBit Reg.tbInvStatus 0 false

end Sys2Proof.Machine
end

