-- ==== Sys2Proof/Machine/Maintain.lean ====
section
/-!
DEFINITION. Scrubbing, granules, the Loft's ways and its cache invalidations (06_pantry_loft_gather.md R230 to R234,
R240, R244 to R246).
-/
namespace Sys2Proof.Machine

open Sys2Proof

/-! ### Scrubbers (R230, R231, R240) -/

/-- The next unit from `n` that the scrubber of core `p` reads: powered-down granules are skipped. -/
def Hw.scrubNext (h : Hw) (p n : Nat) : Option Nat :=
  let g := n / 1024 % 16
  if h.up p |>.testBit g then some (n % 16384)
  else ((List.range 16).map fun i => (g + 1 + i) % 16).find? (fun k => (h.up p).testBit k) |>.map fun k => 1024 * k

/-- Log the uncorrectable words among the eight of a unit: kind 0x0C (13 R539). -/
def Eff.logScrub (e : Eff) (addr : Nat → Nat) (w0 : Nat) (detail : Nat) (phys : Option Nat) : Eff :=
  e.each (List.range 8) fun e i =>
    if e.mem.state (addr (w0 + i)) = .uncorrectable then
      e.up fun h => h.log { kind := LogKind.scrub, cls := 3, phys, detail := detail + w0 + i }
    else e

/-- SCRUB_UNIT: the Pantry scrubber reads its next unit; corrected words await their write-back. -/
def Eff.scrubUnit (e : Eff) (p : Nat) : Eff :=
  let s := e.hw.scrub p
  if !e.hw.regBit (Reg.pantryScrub p) 4 || s.back.isSome || e.hw.inJoker p || (e.hw.body p).run == .off then e
  else match e.hw.scrubNext p s.next with
    | none => e
    | some u =>
      let addr (w : Nat) : Nat := pantryAddr p (32 * w)
      let fix := ((List.range 8).map fun i => 8 * u + i).filter fun w => e.mem.state (addr w) = .single
      ((e.pantryErrors p (256 * u) 256 true).logScrub addr (8 * u) 0 (some p)).up fun h =>
        h.setScrub p ⟨(u + 1) % 16384, if fix.isEmpty then none else some (u, fix)⟩

/-- SCRUB_WRITE_BACK: corrected words are written back, in no cycle of a Joker window (R225); a word written meanwhile is no
longer in error and is skipped. -/
def Eff.scrubWriteBack (e : Eff) (p : Nat) : Eff :=
  let s := e.hw.scrub p
  match s.back, e.hw.inJoker p with
  | none, _ | _, true => e
  | some (_, ws), false =>
    (e.each ws fun e w =>
      if e.mem.state (pantryAddr p (32 * w)) = .single then e.write (.setState (pantryAddr p (32 * w) / 32) .clean) else e).up
        fun h => h.setScrub p { s with back := none }

/-- LOFT_SCRUB_UNIT: a slice scrubs the next unit of its scratchpad ways and writes corrected words back. -/
def Eff.loftScrubUnit (e : Eff) (slice : Nat) : Eff :=
  let s := e.hw.scrub (100 + slice)
  if !e.hw.regBit Reg.loftScrub 4 || e.hw.sliceOff slice then e
  else
    let way := s.next / 1024 % 16
    match ((List.range 16).map fun i => (way + i) % 16).find? fun n => e.hw.regFld (Reg.loftWay n) 9 8 == 0 with
    | none => e
    | some n =>
      let u := if n = way then s.next % 16384 else 1024 * n
      let w0 := slice * 2 ^ 17 + 8 * u
      let e := (e.loftErrors w0 8 true).logScrub loftAddr w0 (2 ^ 31) none
      (e.each (List.range 8) fun e i =>
        if e.mem.state (loftAddr (w0 + i)) = .single then e.write (.setState (loftAddr (w0 + i) / 32) .clean) else e).up
          fun h => h.setScrub (100 + slice) ⟨(u + 1) % 16384, none⟩

/-! ### Granules (R232, R233) -/

/-- A kernel's region includes granule `k`. -/
def regionHas (pbase words k : Nat) : Bool := decide (words ≠ 0) && decide (pbase / 8192 ≤ k) && decide (k ≤ (pbase + words - 1) / 8192)

/-- Core `p` is at a kernel boundary: it runs no kernel, and none is being started on it. -/
def Hw.granuleFree (h : Hw) (p : Nat) : Bool :=
  !(h.body p).loaded && (((h.logicalOf p).bind h.partOf).bind h.kernel?).isNone

/-- A granule that is to power down does, and loses its data. -/
def Eff.granuleDown (e : Eff) (p k : Nat) : Eff :=
  let o := Reg.pantryGranuleState p
  if e.hw.regBit o (16 + k) then
    (e.write (.clear (pantryAddr p (k * 2 ^ 18)) (pantryAddr p ((k + 1) * 2 ^ 18)))).up fun h =>
      (h.setRegBit o (16 + k) false).setRegBit o k false
  else e

/-- GRANULE_POWER_DOWN: at a boundary with no kernel being started; else the start of the kernel is the boundary. -/
def Eff.granulePowerDown (e : Eff) (p k : Nat) : Eff := if e.hw.granuleFree p then e.granuleDown p k else e

/-- GRANULE_CLEAR_DONE: slot 7, which clears nothing in a Joker window, has cleared the granule; UP is set (R225, R233). -/
def Eff.granuleClearDone (e : Eff) (p k : Nat) : Eff :=
  if e.hw.loft.granules.contains (16 * p + k) && !e.hw.inJoker p then
    (e.write (.clear (pantryAddr p (k * 2 ^ 18)) (pantryAddr p ((k + 1) * 2 ^ 18)))).up fun h =>
      (h.updLoft fun l => { l with granules := l.granules.erase (16 * p + k) }).setRegBit (Reg.pantryGranuleState p) k true
  else e

/-! ### Invalidations of the cache (R244) -/

/-- A write of LOFT_INV_CTRL: refused while an invalidation is in progress. -/
def Hw.loftInvalidate (h : Hw) (part : Nat) (range : Bool) : Hw :=
  if h.regBit Reg.loftInvStatus 0 then h.setRegBit Reg.loftInvStatus 1 true
  else
    let base := h.reg64 Reg.loftInvBase % 2 ^ 48
    let size := h.reg64 Reg.loftInvSize % 2 ^ 48
    if range && size == 0 then h else h.cacheInvalidate ⟨part, if range then some (base, size) else none, none⟩

/-- LOFT_INV_DONE: invalidation `n` is complete; BUSY clears with the last. -/
def Hw.loftInvDone (h : Hw) (n : Nat) : Hw :=
  match h.loft.inv[n]? with
  | none => h
  | some v =>
    let h := h.updLoft fun l => { l with inv := l.inv.eraseIdx n }
    let h := match v.item with
      | some i =>
        let more := h.underWay fun g => match g with
          | .invalidate j => i == j
          | _ => false
        if more || h.loft.inv.any fun w => w.item == some i then h else h.complete i { status := Status.ok }
      | none => h
    if h.loft.inv.isEmpty then h.setRegBit Reg.loftInvStatus 0 false else h

/-! ### Ways (R246) -/

/-- LOFT_WAY_CLEAR_DONE: every slice has cleared the way. -/
def Eff.wayCleared (e : Eff) (way : Nat) : Eff :=
  if e.hw.loft.clearing.contains way then
    ((e.each (List.range 16) fun e s =>
      let w := s * 2 ^ 17 + way * wayWords
      e.write (.clear (loftAddr w) (loftAddr (w + wayWords)))).up fun h =>
        h.updLoft fun l => { l with clearing := l.clearing.filter fun x => x != way }).loftRelease way
  else e

end Sys2Proof.Machine
end

