-- ==== Sys2Proof/Machine/FrontEnd.lean ====
section
/-!
DEFINITION. The front end of a queue: which packets it takes, versions and header checks, loops, nested buffers, order
(08_caller_and_queues.md R312 to R317, R327 to R334; 00_scope.md R14, R15).
-/
namespace Sys2Proof.Machine

open Sys2Proof

/-! ### Versions (00 R14 to R16; R317) -/

/-- The minor against which a queue's packets are checked. -/
def Hw.minorOf (h : Hw) (x : Queue) : Nat :=
  match x.minor with
  | some m => m
  | none => if x.major = 2 && h.regFld Reg.abiAck 15 8 == 3 then 3 else h.regFld Reg.abiAck 7 0

/-- An opcode is defined in a version (Table "Commands"). -/
def opDefined (major minor op : Nat) : Bool :=
  if major = 2 then 1 ≤ op && op ≤ 10 && op != 5
  else 1 ≤ op && (if minor = 0 then op ≤ 0x0D else op ≤ 0x0F)

/-- Packets that an opcode requires. -/
def packetsOf (p : List Byte) : Nat := if leField p 0 1 = 2 then (if leField p 24 1 ≤ 6 then 2 else 3) else 1

/-! ### Frames and loops (R315, R328, R329) -/

def Queue.depth (x : Queue) : Nat := x.frames.length - 1

/-- Change the innermost frame. -/
def Queue.updTop (x : Queue) (f : Frame → Frame) : Queue :=
  match x.frames with
  | [] => x
  | t :: fs => { x with frames := f t :: fs }

/-- Move past `n` packets. -/
def Queue.advance (x : Queue) (n : Nat) : Queue :=
  x.updTop fun f => { f with pos := if f.buf.isNone then (f.pos + n) % 2 ^ 32 else f.pos + n }

/-- Commands still to skip in the innermost frame. -/
def Queue.skip (x : Queue) : Nat := ((x.frames.head?).map Frame.skip).getD 0

/-- Items whose buffers enclose what the front end takes next (R333). -/
def Queue.enclosing (x : Queue) : List Nat := x.frames.filterMap Frame.item

/-- HEAD: the packet taken next, or while a LOOP of the ring is open the first packet of the outermost body (R315). -/
def Queue.sync (x : Queue) : Queue :=
  match x.plan, x.frames.getLast? with
  | none, some f =>
    let open_ := ((x.loops.filter fun l => l.depth == 0).getLast?).map LoopRun.start
    { x with head := BitVec.ofNat 32 (open_.getD f.pos) }
  | _, _ => x

/-- A command of the innermost open loops has been passed: the loops after it, and where its body begins again. A
command counts for an enclosing loop in the last iteration of the inner one. -/
def loopsPass : List LoopRun → List LoopRun × Option Nat
  | [] => ([], none)
  | l :: ls =>
    let left := l.left - 1
    if l.iter + 1 < l.count then
      if left = 0 then ({ l with iter := l.iter + 1, left := l.body } :: ls, some l.start) else ({ l with left } :: ls, none)
    else
      let (ls', j) := loopsPass ls
      match j with
      | some k => (ls', some k)
      | none => if left = 0 then (ls', none) else ({ l with left } :: ls', none)

/-- The front end has passed a command of the innermost frame. -/
def Queue.passed (x : Queue) : Queue :=
  let d := x.depth
  let mine := x.loops.filter fun l => l.depth == d
  let rest := x.loops.filter fun l => l.depth != d
  let (ls, j) := loopsPass mine
  let x := { x with loops := ls ++ rest }
  (match j with
   | some k => x.updTop fun f => { f with pos := k }
   | none => x).sync

/-- The innermost buffer has been run to its end. -/
def Queue.atEnd (x : Queue) : Bool :=
  match x.frames with
  | [] => false
  | f :: _ =>
    match f.buf with
    | none => false
    | some (_, n) => x.hold.isNone && decide (n ≤ f.pos) && !x.loops.any fun l => l.depth == x.depth

/-- Leave the innermost buffer: its loops close, its CALL completes and has been passed; a step buffer's BATCH waits for
the items of the step (R329, R348). -/
def Hw.leave (h : Hw) (q : Nat) : Hw :=
  match h.queue? q with
  | none => h
  | some x =>
    match x.frames with
    | [] => h
    | f :: fs =>
      let d := x.depth
      let h := h.updQueue q fun x => { x with frames := fs, loops := x.loops.filter fun l => l.depth != d }
      match f.item with
      | none => h
      | some i =>
        if x.batch.any fun b => b.item == i then h.updQueue q fun x => { x with hold := some .batch, holdItem := some i }
        else (h.complete i { status := Status.ok }).updQueue q Queue.passed

/-- Leave every buffer that has been run to its end. -/
def Hw.unwind (h : Hw) (q : Nat) : Nat → Hw
  | 0 => h
  | n + 1 => if ((h.queue? q).map Queue.atEnd).getD false then Hw.unwind (h.leave q) q n else h

/-- The front end moves on behind a command. -/
def Hw.moveOn (h : Hw) (q : Nat) : Hw := (h.updQueue q Queue.passed).unwind q 8

/-- The command that holds the front end has completed: release it and move on. -/
def Hw.release (h : Hw) (q : Nat) : Hw := (h.updQueue q fun x => { x with hold := none, holdItem := none }).moveOn q

/-! ### Starting a command (R333, R334) -/

/-- Every item of the queue that started before has completed, without those whose buffers enclose the next command. -/
def Hw.earlierDone (h : Hw) (q : Nat) (x : Queue) : Bool :=
  (h.itemsOf q).all fun i => i.state == .done || x.enclosing.contains i.id || x.holdItem == some i.id

/-- The packets of a command that waits for every earlier item. -/
def Queue.ordered (x : Queue) : Option (List Byte × Option Status) :=
  match x.hold with
  | some (.ordered p bad) => some (p, bad)
  | _ => none

/-- Items that count toward the limit of a context. -/
def Hw.outstanding (h : Hw) (c : Nat) : Nat := (h.ctxItems c).length

/-! ### Blocked contexts (R342) -/

/-- A front end is held (R342). -/
def Hw.frontHeld (h : Hw) (q : Nat) (x : Queue) : Bool :=
  h.paused x.ctx || 16 ≤ h.outstanding x.ctx ||
  match x.hold with
  | some .batch => false
  | some (.ordered ..) => !h.earlierDone q x
  | some _ => true
  | none => false

/-- A resident context is blocked (R342). -/
def Hw.blocked (h : Hw) (c : Nat) : Bool :=
  h.resident c && !(h.ctxItems c).isEmpty &&
  (h.queuesOf c).all fun q => ((h.queue? q).map fun x => h.frontHeld q x).getD true

/-- RESIDENCY_STARVED: all 64 slots hold blocked contexts and a non-resident context has packets (R342). -/
def Hw.starved (h : Hw) : Bool :=
  h.slotsUsed.length == 64 &&
  (h.caller.ctxs.all fun x => ((x.2.map fun c => c.slot.isNone).getD true) || h.blocked x.1) &&
  h.caller.queues.any fun x => (x.2.map fun q => !h.resident q.ctx && q.plan.isNone && q.tail != q.head).getD false

/-- When a resident context became blocked, and STARVED with its interrupt at the onset. -/
def Hw.starve (h : Hw) : Hw :=
  let h := h.updCaller fun c =>
    { c with ctxs := c.ctxs.map fun x => (x.1, x.2.map fun y =>
        { y with blockedAt := if h.blocked x.1 then y.blockedAt <|> some h.elapsed else none }) }
  if h.starved then
    if h.regBit Reg.resStatus 31 then h
    else
      let oldest := h.caller.ctxs.foldl (fun (m : Option (Nat × Nat)) x =>
        match x.2.bind Ctx.blockedAt, m with
        | some t, none => some (t, x.1)
        | some t, some (u, c) => if t < u then some (t, x.1) else some (u, c)
        | none, m => m) none
      ((h.setReg Reg.resStatus (BitVec.ofNat 32 (2 ^ 31 + (oldest.map Prod.snd).getD 0)))).irqOf Reg.callerIrq 6 0
  else h.setRegBit Reg.resStatus 31 false

/-! ### Taking a command -/

/-- The front end of a queue may take a command. -/
def Hw.mayStart (h : Hw) (q : Nat) : Option Queue :=
  match h.queue? q with
  | none => none
  | some x =>
    let ev := ((h.ctx? x.ctx).map Ctx.evicting).getD true
    if x.destroying.isSome || x.frames.isEmpty || !(x.hold.isNone || x.ordered.isSome) || !h.resident x.ctx || ev ||
        h.noStart x.ctx || (16 ≤ h.outstanding x.ctx && x.holdItem.isNone) || (x.hold.isNone && x.avail == 0) then none
    else some x

/-- A command as its row sees it. -/
structure Cmd where
  q : Nat
  x : Queue
  /-- Its packets. -/
  p : List Byte
  major : Nat
  minor : Nat
  /-- Its item. -/
  item : Nat

/-- What the operand checks of a command found: a reserved or out-of-range value, a reserved zero (00 R26, R28, R33). -/
structure Checks where
  bad : Bool := false
  zero : Bool := false

/-- The lowest-numbered validity code that applies (00 R33). -/
def Checks.status (c : Checks) : Option Status :=
  if c.bad then some Status.invalidPacket else if c.zero then some Status.invalidZero else none

/-- A row takes a packet of its opcode; NOP's also takes the reserved opcodes. -/
def rowTakes (op opcode : Nat) : Bool := opcode == op || (op == 1 && (opcode == 0 || 16 ≤ opcode))

/-- A command that ends without effect: past its packets, a new item of a status. -/
def Hw.refuse (h : Hw) (q : Nat) (x : Queue) (n : Nat) (tag : DWord) (op flags : Nat) (st : Status) : Hw :=
  let (i, h) := h.newItem q tag op flags (1 < x.frames.length) x.plan.isSome x.enclosing
  let h := h.updQueue q fun x => { (x.advance n).updTop fun f => { f with skip := f.skip - 1 } with hold := none }
  ((h.complete i { status := st }).moveOn q).starve

/-- A command that runs past the end of its nested buffer: the buffer returns, and its loops close with it (R315). -/
def Hw.overrun (h : Hw) (q : Nat) (x : Queue) (tag : DWord) (op flags : Nat) (st : Status) : Hw :=
  (h.updQueue q fun y => { y with loops := y.loops.filter fun l => l.depth != x.depth }).refuse q x x.avail tag op flags st

/-- Status of a read that returned no data (R627). -/
def answerBad : MemAnswer → Option Status
  | .poison => some Status.poison
  | .dataErr => some Status.ecc
  | _ => none

/-- The bytes of an answer. -/
def answerBytes : MemAnswer → List Byte
  | .data bs => bs
  | _ => []

/-- A command whose packets `p` the front end has moved past: ORDERED and the ordered class wait for every earlier item;
then it is checked and takes effect. A validity code goes before the status `bad` of a packet that came bad (00 R33).
`run` answers whether the front end moves on. -/
def Eff.commandRun (e : Eff) (q : Nat) (p : List Byte) (bad : Option Status) (minor : Nat) (ordered : Bool)
    (check : Cmd → Checks) (run : Cmd → Eff → Eff × Bool) : Eff :=
  match e.hw.queue? q with
  | none => e
  | some x =>
    let opcode := leField p 0 1
    let vf := leField p 1 1
    let count := leField p 2 1
    let tag : DWord := BitVec.ofNat 64 (leField p 8 8)
    let hold (h : Hw) (i : Option Nat) : Hw := (h.updQueue q fun y =>
      ({ y with hold := some (.ordered p bad), holdItem := i, heldSince := if y.hold.isSome then y.heldSince else h.elapsed }).sync).starve
    if vf.testBit 5 && x.holdItem.isNone && !e.hw.earlierDone q x then e.up fun h => hold h none
    else
      let c0 : Cmd := { q, x, p, major := x.major, minor, item := 0 }
      let k := check c0
      let reserved := !zeroAt p 3 5 || 128 ≤ vf || (x.major == 2 && vf.testBit 6)
      let k : Checks := { bad := k.bad || reserved || !opDefined x.major minor opcode || (count != 0 && count != packetsOf p), zero := k.zero || count == 0 }
      match k.status <|> bad with
      | some st => e.up fun h => h.refuse q x 0 tag opcode vf st
      | none =>
        let (i, h) := match x.holdItem with
          | some i => (i, e.hw)
          | none => e.hw.newItem q tag opcode vf (1 < x.frames.length) x.plan.isSome x.enclosing
        if ordered && !e.hw.earlierDone q x then { e with hw := hold h (some i) }
        else
          let h := h.updQueue q fun x => { x with hold := none, holdItem := none }
          let (e, on) := run { c0 with item := i } { e with hw := h }
          (if on then e.up fun h => h.moveOn q else e.up fun h => (h.updQueue q Queue.sync).unwind q 8).up Hw.starve

/-- The front end of queue `q` takes a command of opcode `op`: its first packet, the further ones, whether it has further
ones, whether its class is ordered, the operand checks, and its effect. -/
def Eff.command (e : Eff) (q op : Nat) (pkt more : MemAnswer) (need : Bool) (ordered : Bool) (check : Cmd → Checks)
    (run : Cmd → Eff → Eff × Bool) : Eff :=
  match e.hw.mayStart q with
  | none => e
  | some x =>
    match x.ordered with
    | some (p, bad) => if rowTakes op (leField p 0 1) then e.commandRun q p bad (leField p 1 1 % 16) ordered check run else e
    | none =>
      match pkt with
      | .addrErr => e
      | .poison => e.up fun h => h.refuse q x 1 0 0 0 Status.poison
      | .dataErr => e.up fun h => h.refuse q x 1 0 0 0 Status.ecc
      | .data p =>
        let opcode := leField p 0 1
        let vf := leField p 1 1
        let count := leField p 2 1
        let tag : DWord := BitVec.ofNat 64 (leField p 8 8)
        let minor := vf % 16
        let ring := ((x.frames.head?).map fun f => f.buf.isNone).getD true
        let reserved := !zeroAt p 3 5 || 128 ≤ vf || (x.major == 2 && vf.testBit 6)
        if p.length ≠ 64 || !rowTakes op opcode then e
        else if e.hw.minorOf x < minor then
          let n := if 1 ≤ count % 16 && count % 16 ≤ 3 then count % 16 else 1
          if x.avail < n && ring then e
          else
            let st := if 0 < x.skip then Status.skipped
              else if x.avail < n || 16 ≤ count || 3 < count % 16 || reserved then Status.invalidPacket
              else if count = 0 then Status.invalidZero else Status.unsupported
            e.up fun h => if x.avail < n then h.overrun q x tag opcode vf st else h.refuse q x n tag opcode vf st
        else
          let defined := opDefined x.major minor opcode
          let n := if defined then packetsOf p else 1
          if x.avail < n then
            if ring then e
            else e.up fun h => h.overrun q x tag opcode vf (if 0 < x.skip then Status.skipped else Status.invalidPacket)
          else if 0 < x.skip then e.up fun h => h.refuse q x n tag opcode vf Status.skipped
          else if need && 1 < n && more == .addrErr then e
          else
            let bad := if 1 < n then answerBad more else none
            let rest := if 1 < n then (if bad.isSome then List.replicate (64 * (n - 1)) 0 else answerBytes more) else []
            (e.up fun h => h.updQueue q fun x => x.advance n).commandRun q (p ++ rest) bad minor ordered check run

end Sys2Proof.Machine
end

