-- ==== Sys2Proof/Machine/Commands.lean ====
section
/-!
DEFINITION. The commands of a queue (08_caller_and_queues.md R317 to R334) and what a publication does (12 R505 to R507).
-/
namespace Sys2Proof.Machine

open Sys2Proof

/-! ### Publications (12 R505 to R507) -/

/-- The enabled Age slots that watch a queue. -/
def Hw.ageSlots (h : Hw) (q : Nat) : List Nat :=
  (List.range 32).filter fun n => h.regBit (Reg.ageSlot n) 31 && h.regFld (Reg.ageSlot n) 9 0 == q

/-- An Age Tag (Table "Age Tag"). -/
def ageTag (oldest publish value slot flags epoch : Nat) : List Byte :=
  let body := leBytes 8 oldest ++ leBytes 8 publish ++ leBytes 8 value ++ leBytes 1 slot ++ leBytes 1 flags ++ leBytes 2 epoch
  body ++ leBytes 4 (crc32 body).toNat

/-- VALIDATION of a tag or a verdict (12 R517). -/
def Hw.validation (h : Hw) : Bool := h.regBit Reg.smMode 0

/-- A slot publishes: its tag waits for the Age Ring; the answer says whether the tag is stale. -/
def Hw.slotPublish (h : Hw) (q n value : Nat) : Hw × Bool :=
  let old := h.age q
  let none_ := old == ageNone
  let injected := h.safety.injAge.contains n
  let stale := injected || (!none_ && decide (old.toNat + (h.reg (Reg.ageLimit n)).toNat < h.now.toNat))
  let tag := ageTag old.toNat h.now.toNat value n (stale.toNat + 2 * none_.toNat + 8 * h.validation.toNat) h.epoch
  let h := h.updSafety fun s =>
    { s with ageWait := s.ageWait ++ [tag], injAge := s.injAge.erase n, ageIdle := Tbl.put (fun _ => 0) s.ageIdle n 0 }
  let h := if injected then h.setRegBit Reg.smInjStatus 0 true else h
  let part := ((h.queue? q).map Queue.part).getD 0
  (if stale then h.blameNow part VCause.stale false n h.epoch else h, stale)

/-- A SIGNAL of a queue is a publication of every slot that watches it; the accumulator then holds none. -/
def Hw.publish (h : Hw) (q value : Nat) : Hw × Bool :=
  let r := (h.ageSlots q).foldl (fun (r : Hw × Bool) n =>
    let (h, stale) := r.1.slotPublish q n value
    (h, r.2 || stale)) (h, false)
  (if (h.ageSlots q).isEmpty then r.1 else r.1.setAge q ageNone, r.2)

/-! ### Waiting conditions (R323, R324, R332) -/

/-- The status with which a waiting command completes now, if its condition holds; a fence is as the read answered
(R627). -/
def Hw.holdDone (h : Hw) (hold : Hold) (answer : MemAnswer) : Option Status :=
  match hold with
  | .fence _ t =>
    match answer with
    | .data bs => if bs.length = 8 ∧ t ≤ leField bs 0 8 then some Status.ok else none
    | _ => answerBad answer
  | .hatch k t => if reaches (h.loftHatch k).cnt t then some Status.ok else none
  | .gate s par t => if h.gateOpen s par t then some Status.ok else none
  | .hatchClose k => if (h.loftHatch k).awaiting.isEmpty then some Status.ok else none
  | .ordered .. => none
  | .write => none
  | .batch => none

/-- What a waiting command does when its condition holds: a GATE lowers the queue's age (12 R506), a HATCH_CLOSE closes
its Hatch (06 R258, R260). -/
def Hw.holdEffect (h : Hw) (q : Nat) : Hold → Hw
  | .gate s par _ =>
    match h.gateAge s par with
    | some a => if (h.ageSlots q).isEmpty then h else h.setAge q (ageMin (h.age q) a)
    | none => h
  | .hatchClose k => h.setLoftHatch k (h.loftHatch k).shut
  | _ => h

/-- Evaluate the condition that holds a front end. -/
def Hw.tryHold (h : Hw) (q : Nat) (answer : MemAnswer) : Hw :=
  match h.queue? q with
  | none => h
  | some x =>
    match x.hold, x.holdItem with
    | some hold, some i =>
      match h.holdDone hold answer with
      | some st => ((h.holdEffect q hold).complete i { status := st }).release q
      | none => h
    | _, _ => h

/-- A blocking command holds its front end, and its condition is evaluated at once (R324). -/
def Hw.block (h : Hw) (c : Cmd) (hold : Hold) (answer : MemAnswer) : Hw :=
  (h.updQueue c.q fun x => { x with hold := some hold, holdItem := some c.item, heldSince := h.elapsed }).tryHold c.q answer

/-- A command completes at once. -/
def Hw.now_ (h : Hw) (c : Cmd) (st : Status) (detail : Word := 0) : Hw := h.complete c.item { status := st, detail }

/-- The commands of the innermost frame to come are skipped (R327, R328). -/
def Hw.skipNext (h : Hw) (c : Cmd) (n : Nat) : Hw := h.updQueue c.q fun x => x.updTop fun f => { f with skip := n }

/-- A virtual address operand: bits [63:48] zero, aligned. -/
def vaOk (p : List Byte) (off align : Nat) : Bool := decide (leField p off 8 < 2 ^ 48) && leField p off 8 % align == 0

/-- The condition that holds a front end is evaluated again on an event of R324; a fence by what its read returned. -/
def Hw.recheck (h : Hw) (q : Nat) (answer : MemAnswer) : Hw :=
  match h.queue? q with
  | none => h
  | some x =>
    if !h.resident x.ctx || h.noStart x.ctx || ((h.ctx? x.ctx).map Ctx.evicting).getD true || x.destroying.isSome then h
    else h.tryHold q answer

/-- WAIT_POLL: the condition of a queue's front end is evaluated again, and its held records are tried again (R324,
R345). -/
def Hw.waitPoll (h : Hw) (q : Nat) (answer : MemAnswer) : Hw := (h.retryRecords q).recheck q answer

/-- The conditions that the engine's own counters decide are evaluated after these have changed (R324). -/
def Hw.recheckAll (h : Hw) : Hw :=
  (h.caller.queues.foldl (fun h x => h.recheck x.1 (.data [])) h).starve

/-! ### NOP, SIGNAL, TIMESTAMP, WAIT, GATE -/

/-- Bytes [lo, 64) of a first packet are zero. -/
def tailZero (p : List Byte) (lo : Nat) : Bool := zeroAt p lo (64 - lo)

def Eff.cmdNop (e : Eff) (q : Nat) (pkt : MemAnswer) : Eff :=
  e.command q 1 pkt (.data []) false false (fun c => { bad := !tailZero c.p 16 })
    fun c e => (e.up fun h => h.now_ c Status.ok, true)

def Eff.cmdWait (e : Eff) (q : Nat) (pkt aux : MemAnswer) : Eff :=
  if aux = .addrErr then e
  else e.command q 3 pkt (.data []) false false
    (fun c =>
      let kind := leField c.p 32 1
      { bad := !tailZero c.p 34 ||
          (match kind with
           | 0 => !vaOk c.p 16 8 || leField c.p 33 1 != 0
           | 1 => leField c.p 16 8 != 0 || leField c.p 28 4 != 0 || decide (64 ≤ leField c.p 33 1)
           | _ => true) })
    fun c e =>
      if leField c.p 32 1 = 0 then
        (e.up fun h => h.block c (.fence (leField c.p 16 8) (leField c.p 24 8)) aux, false)
      else
        let k := leField c.p 33 1
        let x := e.hw.loftHatch k
        if x.isOpen && x.ctx == c.x.ctx then
          (e.up fun h => h.block c (.hatch k (BitVec.ofNat 32 (leField c.p 24 4))) aux, false)
        else (e.up fun h => h.now_ c Status.faultPermission, true)

def Eff.cmdGate (e : Eff) (q : Nat) (pkt : MemAnswer) : Eff :=
  e.command q 5 pkt (.data []) false false
    (fun c => { bad := decide (96 ≤ leField c.p 16 1) || decide (2 ≤ leField c.p 17 1) || !zeroAt c.p 18 2 || !tailZero c.p 24 })
    fun c e =>
      let s := leField c.p 16 1
      if e.hw.assigned s c.x.ctx c.x.part then
        (e.up fun h => h.block c (.gate s (leField c.p 17 1) (BitVec.ofNat 32 (leField c.p 20 4))) (.data []), false)
      else (e.up fun h => h.now_ c Status.faultPermission, true)

/-- The 8 bytes of a fence go to memory; the command holds its front end until the write is acknowledged (R326). -/
def Hw.fenceWrite (h : Hw) (c : Cmd) (value : Nat) (publish : Option Nat) : Hw :=
  ((h.updItem c.item fun x => { x with state := .dispatched }).updQueue c.q fun x =>
    { x with hold := some .write, holdItem := some c.item, heldSince := h.elapsed }).addOwn
      (ownWrite 3 c.q c.x.ctx c.x.part (leField c.p 16 8) (leBytes 8 value) (BitVec.ofNat 64 (leField c.p 8 8)) (.fence c.q c.item publish))

def Eff.cmdSignal (e : Eff) (q : Nat) (pkt : MemAnswer) : Eff :=
  e.command q 4 pkt (.data []) false true (fun c => { bad := !vaOk c.p 16 8 || !tailZero c.p 32 })
    fun c e => (e.up fun h => h.fenceWrite c (leField c.p 24 8) (some (leField c.p 24 8)), false)

def Eff.cmdTimestamp (e : Eff) (q : Nat) (pkt : MemAnswer) : Eff :=
  e.command q 14 pkt (.data []) false true (fun c => { bad := !vaOk c.p 16 8 || !tailZero c.p 24 })
    fun c e => (e.up fun h => h.fenceWrite c h.now.toNat none, false)

/-- A fence write has its response (R326): a SIGNAL publishes its value, the command completes, and the front ends of the
context that wait on the same fence read what has been written (R324). DESIGN CHOICE (log 101): a write that memory
answered DATA_ERR completes its command with ECC_UNCORRECTABLE and publishes nothing. -/
def Hw.fenceDone (h : Hw) (j : OwnJob) (q i : Nat) (publish : Option Nat) : Hw :=
  match h.item? i with
  | none => h
  | some x =>
    if x.state = .done then h
    else if j.dataErr then ((h.complete i { status := Status.ecc }).release q).starve
    else
      let (h, stale) := match publish with
        | some v => h.publish q v
        | none => (h, false)
      let h := (h.complete i { status := if stale then Status.staleResult else Status.ok }).release q
      let mine (x : Nat × Option Queue) : Bool := (x.2.map fun y => y.ctx == j.ctx && (match y.hold with
        | some (.fence va _) => j.parts.any fun p => p.at_ == va
        | _ => false)).getD false
      ((h.caller.queues.filter mine).foldl (fun h x => h.recheck x.1 (.data ((j.parts.map OwnPart.data).flatten))) h).starve

/-! ### COND, LOOP, CALL, RETURN (R327 to R329) -/

/-- The test of a COND. -/
def condHolds (op value operand mask : Nat) : Bool :=
  let v := value &&& mask
  match op with
  | 0 => v == operand
  | 1 => v != operand
  | 2 => decide (operand ≤ v)
  | _ => decide (v < operand)

def Eff.cmdCond (e : Eff) (q : Nat) (pkt aux : MemAnswer) : Eff :=
  if aux = .addrErr then e
  else e.command q 6 pkt (.data []) false false
    (fun c => { bad := !vaOk c.p 16 8 || decide (4 ≤ leField c.p 40 1) || !zeroAt c.p 41 1 || !tailZero c.p 44 })
    fun c e =>
      let skip := leField c.p 42 2
      match answerBad aux with
      | some st => (e.up fun h => (h.now_ c st).skipNext c skip, true)
      | none =>
        let t := condHolds (leField c.p 40 1) (leField (answerBytes aux) 0 8) (leField c.p 24 8) (leField c.p 32 8)
        (e.up fun h => (h.now_ c Status.ok (BitVec.ofNat 32 t.toNat)).skipNext c (if t then 0 else skip), true)

/-- Open a loop over the next `body` commands. The LOOP itself first counts for the loops around it. -/
def Hw.openLoop (h : Hw) (c : Cmd) (body count : Nat) : Hw :=
  let pos (x : Queue) : Nat := ((x.frames.head?).map Frame.pos).getD 0
  h.updQueue c.q fun x =>
    let y := x.passed
    if pos y = pos x then
      { y with loops := { depth := y.depth, start := pos x, body, count, iter := 0, left := body } :: y.loops }
    else y

def Eff.cmdLoop (e : Eff) (q : Nat) (pkt aux : MemAnswer) (rest : Nat) : Eff :=
  if aux = .addrErr then e
  else e.command q 7 pkt (.data []) false false
    (fun c => { bad := !vaOk c.p 16 4 || !tailZero c.p 30 || (leField c.p 28 2 == 0 && decide (4 ≤ c.x.loops.length)),
                zero := leField c.p 28 2 == 0 })
    fun c e =>
      let body := leField c.p 28 2
      let ring := ((c.x.frames.head?).map fun f => f.buf.isNone).getD true
      if 4 ≤ c.x.loops.length || (!ring && decide (rest < body)) then
        (e.up fun h => (h.now_ c Status.invalidPacket).skipNext c body, true)
      else if leField c.p 16 8 ≠ 0 ∧ (answerBad aux).isSome then
        (e.up fun h => (h.now_ c ((answerBad aux).getD 0)).skipNext c body, true)
      else
        let count := if leField c.p 16 8 = 0 then leField c.p 24 4 else leField (answerBytes aux) 0 4
        let e := e.up fun h => h.now_ c Status.ok (BitVec.ofNat 32 count)
        if count = 0 then (e.up fun h => h.skipNext c body, true) else (e.up fun h => h.openLoop c body count, false)

def Eff.cmdCall (e : Eff) (q : Nat) (pkt : MemAnswer) : Eff :=
  e.command q 8 pkt (.data []) false false
    (fun c => { bad := !vaOk c.p 16 64 || !tailZero c.p 28 || decide (4 ≤ c.x.depth) })
    fun c e =>
      let n := leField c.p 24 4
      if n = 0 then (e.up fun h => h.now_ c Status.ok, true)
      else (e.up fun h => h.updQueue c.q fun x =>
        { x with frames := { buf := some (leField c.p 16 8, n), pos := 0, skip := 0, item := some c.item } :: x.frames }, false)

def Eff.cmdReturn (e : Eff) (q : Nat) (pkt : MemAnswer) : Eff :=
  e.command q 9 pkt (.data []) false false
    (fun c => { bad := !tailZero c.p 16 || ((c.x.frames.head?).map fun f => f.buf.isNone).getD true })
    fun c e => (e.up fun h => (h.now_ c Status.ok).updQueue c.q fun x =>
      let d := x.depth
      { x.updTop fun f => { f with pos := ((f.buf.map Prod.snd).getD 0) } with
        loops := x.loops.filter fun l => l.depth != d }, false)

/-! ### DMA, CACHE_INV, Loft Hatches (R330 to R332) -/

/-- An item is handed to its unit. -/
def Hw.dispatch (h : Hw) (i : Nat) : Hw := h.updItem i fun x => { x with state := .dispatched }

def Eff.cmdDma (e : Eff) (q : Nat) (pkt desc : MemAnswer) : Eff :=
  if desc = .addrErr then e
  else e.command q 10 pkt (.data []) false false (fun c => { bad := !vaOk c.p 16 1 || !tailZero c.p 24 })
    fun c e =>
      match answerBad desc with
      | some st => (e.up fun h => h.now_ c st, true)
      | none => (e.up fun h =>
          let h := h.dispatch c.item
          (h.updAtu fun a =>
            { a with engineDma := a.engineDma ++ [
                { item := c.item, queue := c.q, desc := answerBytes desc, channel := none, prio := c.x.prio,
                  order := h.caller.order, issued := 0, acked := [], buf := [], paused := false, resumes := 0,
                  poison := false, dataErr := false }] }).updCaller fun k => { k with order := k.order + 1 }, true)

def Eff.cmdCacheInv (e : Eff) (q : Nat) (pkt : MemAnswer) : Eff :=
  e.command q 11 pkt (.data []) false false
    (fun c => { bad := !vaOk c.p 16 128 || leField c.p 24 8 % 128 != 0 || decide (2 ≤ leField c.p 32 1) || !tailZero c.p 33 })
    fun c e =>
      let size := leField c.p 24 8
      if leField c.p 32 1 = 0 then
        (e.up fun h => (h.dispatch c.item).cacheInvalidate ⟨c.x.part, none, some c.item⟩, true)
      else if size = 0 then (e.up fun h => h.now_ c Status.ok, true)
      else (e.up fun h => (h.dispatch c.item).addOwn
        { ownRead 3 c.q c.x.ctx c.x.part [⟨leField c.p 16 8, size, [], []⟩] with
          goal := .invalidate c.item, tag := BitVec.ofNat 64 (leField c.p 8 8) }, true)

/-- The range of a HATCH_OPEN lies in one scratchpad way that the partition owns (R332). -/
def Hw.hatchRange (h : Hw) (part w n : Nat) : Bool :=
  let r := h.reg (Reg.loftWay (loftWayOf w))
  decide (w + n ≤ 2 ^ 21) && (n == 0 || (w + n - 1) / wayWords == w / wayWords) && fld r 9 8 == 0 && fld r 3 0 == part

def Eff.cmdHatchOpen (e : Eff) (q : Nat) (pkt : MemAnswer) : Eff :=
  e.command q 12 pkt (.data []) false false
    (fun c => { bad := decide (64 ≤ leField c.p 16 1) || decide (2 ≤ leField c.p 17 1) || !zeroAt c.p 18 2 ||
                       decide (2 ^ 21 ≤ leField c.p 20 4) || decide (8192 < leField c.p 24 4) || !zeroAt c.p 28 4 ||
                       !tailZero c.p 40 || (e.hw.loftHatch (leField c.p 16 1)).isOpen })
    fun c e =>
      let k := leField c.p 16 1
      let w := leField c.p 20 4
      let n := leField c.p 24 4
      if e.hw.hatchRange c.x.part w n then
        (e.up fun h =>
          let x := h.loftHatch k
          let partner := leField c.p 17 1 == 1
          let h := h.setLoftHatch k
            { isOpen := true, ctx := c.x.ctx, part := c.x.part, base := w, words := n,
              senders := BitVec.ofNat 64 (leField c.p 32 8), partner, gen := x.gen, cnt := 0, accepted := 0,
              closing := false, awaiting := [] }
          (h.notify stopCaller partner (loftKey k) x.gen true).now_ c Status.ok, true)
      else (e.up fun h => h.now_ c Status.faultPermission, true)

def Eff.cmdHatchClose (e : Eff) (q : Nat) (pkt : MemAnswer) : Eff :=
  e.command q 13 pkt (.data []) false false
    (fun c =>
      let x := e.hw.loftHatch (leField c.p 16 1)
      { bad := decide (64 ≤ leField c.p 16 1) || !tailZero c.p 17 || !x.isOpen || x.ctx != c.x.ctx })
    fun c e => (e.up fun h =>
      let k := leField c.p 16 1
      let x := h.loftHatch k
      let h := h.setLoftHatch k
        { x with closing := true, awaiting := h.closers (x.senders.toNat % 2 ^ h.inService) x.partner }
      (h.notify stopCaller x.partner (loftKey k) x.gen false).block c (.hatchClose k) (.data []), false)

/-! ### LAUNCH (R318 to R320) -/

/-- The carry regions of a LAUNCH: first word and words. -/
def carriesOf (p : List Byte) : List (Nat × Nat) :=
  (List.range (leField p 24 1)).map fun i => (leField p (80 + 8 * i) 4, leField p (84 + 8 * i) 4)

/-- Two carry regions have a word in common. -/
def carriesOverlap : List (Nat × Nat) → Bool
  | [] => false
  | r :: rs => (rs.any fun x => r.2 != 0 && x.2 != 0 && decide (r.1 < x.1 + x.2) && decide (x.1 < r.1 + r.2)) || carriesOverlap rs

/-- Bytes of the Cellar image of a list of regions (R318, 06 R248). -/
def imageSize (cs : List (Nat × Nat)) : Nat := 512 + (cs.map fun r => ceilDiv (32 * r.2) 256 * 256).sum

/-- The checks of the packets of a LAUNCH. -/
def launchBad (c : Cmd) : Bool :=
  let n := leField c.p 24 1
  !vaOk c.p 16 64 || decide (8 < n) || decide (2 ≤ leField c.p 25 1) || !zeroAt c.p 26 6 ||
  (c.major == 2 && (n != 0 || leField c.p 25 1 != 0)) ||
  (decide (n ≤ 8) &&
    (((carriesOf c.p).any fun r => decide (2 ^ 17 ≤ r.1) || decide (2 ^ 18 ≤ r.2)) ||
     !zeroAt c.p (80 + 8 * n) (c.p.length - (80 + 8 * n))))

/-- The checks of the Kernel Descriptor with the packets of its LAUNCH (R318). -/
def kdescChecks (d p : List Byte) (stride : Nat) : Checks :=
  let n := leField d 8 2
  let words := leField d 12 4
  let fix := leField d 16 4
  let cs := carriesOf p
  { bad := !vaOk d 0 64 || decide (16384 < n) || (n != 0 && decide (n ≤ leField d 10 2)) || decide (131072 < words) ||
      decide (131072 ≤ fix % 2 ^ 31) || fix % 8 != 0 || decide (4 ≤ leField d 24 4) || !zeroAt d 28 36 ||
      (cs.any fun r => decide (words < r.1 + r.2)) || carriesOverlap cs || (!cs.isEmpty && decide (stride < imageSize cs))
    zero := n == 0 }

/-- A LAUNCH as dispatched. -/
def jobOf (c : Cmd) (d : List Byte) (order : Nat) : LaunchJob :=
  let args := ((List.range 8).map fun i => BitVec.ofNat 32 (leField c.p (32 + 4 * i) 4)) ++
    (List.range 4).map fun i => BitVec.ofNat 32 (leField c.p (64 + 4 * i) 4)
  let iter := ((c.x.loops.head?).map LoopRun.iter).getD 0
  { item := c.item, ctx := c.x.ctx, part := c.x.part, prio := c.x.prio, order,
    args := if leField c.p 25 1 = 1 then args.set 11 (BitVec.ofNat 32 iter) else args,
    carries := carriesOf c.p, codeVa := leField d 0 8, bundles := leField d 8 2, entry := leField d 10 2,
    words := leField d 12 4, fixed := if leField d 16 4 < 2 ^ 31 then none else some (leField d 16 4 - 2 ^ 31),
    kernelId := BitVec.ofNat 32 (leField d 20 4), kflags := leField d 24 4 }

def Eff.cmdLaunch (e : Eff) (q : Nat) (pkt more kdesc : MemAnswer) : Eff :=
  if kdesc = .addrErr then e
  else e.command q 2 pkt more true false (fun c => { bad := launchBad c })
    fun c e =>
      match answerBad kdesc with
      | some st => (e.up fun h => h.now_ c st, true)
      | none =>
        let d := answerBytes kdesc
        let stride := ((e.hw.ctx? c.x.ctx).map Ctx.cellarStride).getD 0
        match (kdescChecks d c.p stride).status with
        | some st => (e.up fun h => h.now_ c st, true)
        | none => (e.up fun h =>
            if (leField d 24 4).testBit 1 && (h.copyOf c.x.part).isNone then h.now_ c Status.conflict
            else if (h.keep c.x.part).retired then h.now_ c Status.cancelled
            else (h.dispatch c.item).updCaller fun k =>
              { k with launches := k.launches ++ [jobOf c d k.order], order := k.order + 1 }, true)

/-! ### The Batch Composer (R347, R348) -/

/-- The sequence table. -/
def seqsOf (t : List Byte) (n : Nat) : List Seq :=
  (List.range n).map fun i => ⟨leField t (16 * i) 4, leField t (16 * i + 4) 4, leField t (16 * i + 8) 4, leField t (16 * i + 12) 4⟩

def Seq.bytes (s : Seq) : List Byte := leBytes 4 s.id ++ leBytes 4 s.prompt ++ leBytes 4 s.pos ++ leBytes 4 s.remain
def Seq.decoding (s : Seq) : Bool := decide (s.prompt ≤ s.pos) && decide (0 < s.remain)
def Seq.prefilling (s : Seq) : Bool := decide (s.pos < s.prompt) && decide (0 < s.remain)

/-- The segments of a step: decode rows from the rotor on, then prefill rows in table order. -/
def Batch.compose (b : Batch) : List Segment :=
  let n := b.seqs.length
  let order := (List.range n).map fun i => (b.rotor + i) % n
  let dec := (order.filter fun i => ((b.seqs[i]?).map Seq.decoding).getD false).take b.decodeMax
  let d : List Segment := dec.zipIdx.map fun x =>
    { seq := x.1, position := ((b.seqs[x.1]?).map Seq.pos).getD 0, row := x.2, count := 1, decode := true }
  (b.seqs.zipIdx.foldl (fun (r : List Segment × Nat) x =>
    let s := x.1
    let k := min b.chunkMax (min (s.prompt - s.pos) (b.stepRows - r.2))
    if s.prefilling && decide (0 < k) then
      (r.1 ++ [{ seq := x.2, position := s.pos, row := r.2, count := k, decode := false }], r.2 + k)
    else r) (d, d.length)).1

/-- The composition table of a step. -/
def Batch.table (b : Batch) (gs : List Segment) : List Byte :=
  let used := (gs.map Segment.count).sum
  leBytes 4 b.step ++ leBytes 2 gs.length ++ leBytes 2 (64 * ceilDiv used 64) ++ leBytes 2 used ++ leBytes 6 0 ++
  (gs.map fun g => leBytes 4 (((b.seqs[g.seq]?).map Seq.id).getD 0) ++ leBytes 4 g.position ++ leBytes 2 g.row ++
    leBytes 2 g.count ++ leBytes 1 g.decode.toNat ++ leBytes 3 0).flatten

/-- A BATCH ends. -/
def Hw.batchEnd (h : Hw) (q : Nat) (b : Batch) (st : Status) : Hw :=
  let h := h.complete b.item (if bareStatus st then { status := st }
    else { status := st, detail := BitVec.ofNat 32 b.finished, tricks := BitVec.ofNat 32 b.step })
  (h.updQueue q fun x => { x with batch := x.batch.drop 1 }).release q

/-- The next step of the innermost BATCH of a queue: its composition goes to memory, or the batch ends. -/
def Hw.batchStep (h : Hw) (q : Nat) : Hw :=
  match h.queue? q with
  | none => h
  | some x =>
    match x.batch with
    | [] => h
    | b :: bs =>
      let gs := b.compose
      if gs.isEmpty || b.maxSteps ≤ b.step then h.batchEnd q b Status.ok
      else if 4 ≤ x.depth then h.batchEnd q b Status.invalidPacket
      else
        let last := (gs.filter Segment.decode).getLast?
        let tag := ((h.item? b.item).map Item.tag).getD 0
        let h := h.addOwn (ownWrite 3 q x.ctx x.part b.compVa (b.table gs) tag (.composition q))
        let b := { b with segments := gs, rotor := ((last.map Segment.seq).map fun i => i + 1).getD 0 }
        h.updQueue q fun x => { x with batch := b :: bs, hold := some .write, holdItem := some b.item }

/-- The composition table of a BATCH is in memory: its step buffer runs as a CALL (R348). DESIGN CHOICE (log 101): a
write that memory answered DATA_ERR ends the batch with ECC_UNCORRECTABLE. -/
def Hw.compositionDone (h : Hw) (q : Nat) (err : Bool) : Hw :=
  match h.queue? q with
  | none => h
  | some x =>
    match x.hold, x.batch with
    | some .write, b :: _ =>
      (if err then h.batchEnd q b Status.ecc
       else (h.updQueue q fun x =>
        { x with
          hold := none, holdItem := none
          frames := { buf := some (b.bufVa, b.packets), pos := 0, skip := 0, item := some b.item } :: x.frames }).unwind q 8).starve
    | _, _ => h

/-- Update the sequence of a segment whose step has run. -/
def Seq.advance (s : Seq) (n : Nat) : Seq :=
  let pos := s.pos + n
  { s with pos, remain := if s.prompt ≤ pos then s.remain - 1 else s.remain }

/-- The sequences after a step, and how many of them finished with it. -/
def Batch.update (b : Batch) : List Seq × Nat :=
  let new := b.seqs.zipIdx.map fun x =>
    match b.segments.find? fun g => g.seq == x.2 with
    | some g => x.1.advance g.count
    | none => x.1
  (new, ((b.seqs.zip new).filter fun x => decide (0 < x.1.remain) && x.2.remain == 0).length)

/-- BATCH_STEP_DONE: every item of the step buffer has completed; the sequences are updated and written back, and the
next step begins or the batch ends. -/
def Hw.batchStepDone (h : Hw) (q : Nat) : Hw :=
  match h.queue? q with
  | none => h
  | some x =>
    match x.hold, x.batch with
    | some .batch, b :: bs =>
      if ((h.itemsOf q).any fun i => i.enclosing.contains b.item && i.state != .done) || h.noStart x.ctx || !h.resident x.ctx then h
      else
        let (seqs, fin) := b.update
        let tag := ((h.item? b.item).map Item.tag).getD 0
        let h := h.addOwn (ownWrite 3 q x.ctx x.part b.seqVa (seqs.map Seq.bytes).flatten tag .nothing)
        let b := { b with seqs, finished := b.finished + fin, step := b.step + 1 }
        let h := h.updQueue q fun x => { x with batch := b :: bs }
        match b.bad with
        | some st => h.batchEnd q b st
        | none => h.batchStep q
    | _, _ => h

/-- The checks of a Batch Descriptor. -/
def bdescChecks (d : List Byte) : Checks :=
  let rows := leField d 12 2
  { bad := !vaOk d 0 16 || decide (1024 < leField d 8 4) || rows % 64 != 0 || decide (4096 < rows) ||
      decide (4096 < leField d 14 2) || !vaOk d 16 64 || !vaOk d 32 64 || (rows != 0 && decide (rows < leField d 40 2)) ||
      !zeroAt d 42 22
    zero := rows == 0 || leField d 14 2 == 0 || leField d 40 2 == 0 }

def Eff.cmdBatch (e : Eff) (q : Nat) (pkt desc table : MemAnswer) : Eff :=
  if desc = .addrErr || table = .addrErr then e
  else e.command q 15 pkt (.data []) false false (fun c => { bad := !vaOk c.p 16 64 || !tailZero c.p 24 })
    fun c e =>
      let d := answerBytes desc
      match answerBad desc with
      | some st => (e.up fun h => h.now_ c st, true)
      | none =>
        match (bdescChecks d).status with
        | some st => (e.up fun h => h.now_ c st, true)
        | none =>
          let n := leField d 8 4
          if n = 0 || leField d 28 4 = 0 then (e.up fun h => h.now_ c Status.ok, true)
          else match answerBad table with
            | some st => (e.up fun h => h.now_ c st, true)
            | none => (e.up fun h =>
                let b : Batch :=
                  { item := c.item, seqVa := leField d 0 8, stepRows := leField d 12 2, chunkMax := leField d 14 2,
                    bufVa := leField d 16 8, packets := leField d 24 4, maxSteps := leField d 28 4, compVa := leField d 32 8,
                    decodeMax := leField d 40 2, seqs := seqsOf (answerBytes table) n, rotor := 0, step := 0,
                    segments := [], bad := none, finished := 0 }
                (h.updQueue c.q fun x =>
                  { x with batch := b :: x.batch, hold := some .batch, holdItem := some c.item,
                           heldSince := h.elapsed }).batchStep c.q, false)

end Sys2Proof.Machine
end

