-- ==== Sys2Proof/Machine/Streams.lean ====
section
/-!
DEFINITION. Sensor streams: packets, frames and position counters, Line Rings and line status, filters
(07_streams_and_line_lock.md R273 to R307).
-/
namespace Sys2Proof.Machine

open Sys2Proof

/-! ### Settings of a stream -/

def Hw.scEn (h : Hw) (s : Nat) : Bool := h.regBit (Reg.scCtrl s) 0
def Hw.scKind (h : Hw) (s : Nat) : Nat := h.regFld (Reg.scCtrl s) 2 1
def Hw.scSrc (h : Hw) (s : Nat) : Nat := h.regFld (Reg.scCtrl s) 4 3
def Hw.scLoft (h : Hw) (s : Nat) : Bool := h.regBit (Reg.scCtrl s) 5
def Hw.scFmt (h : Hw) (s : Nat) : Nat := h.regFld (Reg.scCtrl s) 15 8
def Hw.scPositions (h : Hw) (s : Nat) : Nat := h.regFld (Reg.scGeom s) 31 16
def Hw.scWidth (h : Hw) (s : Nat) : Nat := h.regFld (Reg.scGeom s) 15 0
def Hw.scPart (h : Hw) (s : Nat) : Nat := h.regFld (Reg.scOwner s) 19 16
def Hw.scEntry (h : Hw) (s : Nat) : Nat := 32 * h.regFld (Reg.scRing s) 28 12
def Hw.scRing (h : Hw) (s : Nat) : Nat := h.regFld (Reg.scRing s) 11 0

def Hw.updStream (h : Hw) (s : Nat) (f : StreamRun → StreamRun) : Hw := h.setStream s (f (h.stream s))

/-! ### The two position counters (R281) -/

/-- The parity whose counter is OPEN. -/
def Hw.openParity (h : Hw) (s : Nat) : Option Nat := [0, 1].find? fun p => h.regFld (gateReg s p) 17 16 == 1

/-- FRAME and POS of a counter. -/
def Hw.gateFrame (h : Hw) (s p : Nat) : Word := h.reg (gateReg s p + 4)
def Hw.gatePos (h : Hw) (s p : Nat) : Nat := h.regFld (gateReg s p) 15 0

/-- Set STATE and POS of a counter. -/
def Hw.setGate (h : Hw) (s p state pos : Nat) : Hw := h.setReg (gateReg s p) (BitVec.ofNat 32 (state * 2 ^ 16 + pos % 2 ^ 16))

/-- Cores of the owning partition that wait on a counter with an unsatisfied threshold (R297). -/
def Hw.gateWaiters (h : Hw) (s p : Nat) : Nat :=
  ((h.partPhys (h.scPart s)).filter fun x =>
    let b := h.body x
    b.run == .waiting && fld b.waitInfo 2 0 == 2 && fld b.waitInfo 14 8 == s && fld b.waitInfo 15 15 == p &&
      !h.gateOpen s p b.waitThresh).length

/-- Frame `f` is greater than `g` (R282). -/
def frameAfter (f g : Word) : Bool := f != g && reaches f g

/-! ### Destinations and writes (R288 to R293) -/

/-- Where a word of a stream's rings lies: a Pantry word of a physical core, or a Loft word. -/
inductive Dest where
  | pantry (phys word : Nat)
  | loft (word : Nat)

/-- Destinations of position `y` at `word`: one Loft word, or every stripe core that takes the position (R288, R289). -/
def Hw.dests (h : Hw) (s y word : Nat) : List Dest :=
  if h.scLoft s then [.loft (word % 2 ^ 21)]
  else
    let o := h.reg (Reg.scStripe s)
    let sl := h.regFld (Reg.scStripeLines s) 15 0
    let first := fld o 5 0
    ((List.range (fld o 13 8 + 1)).filter fun k =>
      decide (k * sl ≤ y + fld o 23 16) && decide (y + 1 ≤ (k + 1) * sl + fld o 31 24)).map fun k =>
        .pantry (h.phys (first + k)) (word % 2 ^ 17)

/-- The data units of a run of bytes from address `a`: the part of each aligned 256-byte block (R290, 06 R220). -/
def dataUnits (a : Nat) (bs : List Byte) : List (Nat × List Byte) :=
  (List.range ((a % 256 + bs.length + 255) / 256)).map fun k =>
    let lo := 256 * k - a % 256
    (a + lo, (bs.take (256 * (k + 1) - a % 256)).drop lo)

/-- Write bytes `off` bytes into a destination, unit by unit. A unit that meets a powered-down granule or slice is discarded
and counted (R293). -/
def Eff.streamWrite (e : Eff) (s : Nat) (d : Dest) (off : Nat) (bs : List Byte) : Eff :=
  let lost (e : Eff) : Eff := e.up fun h => h.satReg (Reg.scCntDiscard s)
  if bs.isEmpty then e
  else match d with
    | .pantry p w => e.each (dataUnits (32 * w + off) bs) fun e u =>
        if granulesUp (e.hw.up p) u.1 u.2.length then e.arrivalUnit p u.1 u.2 [] else lost e
    | .loft w => e.each (dataUnits (32 * w + off) bs) fun e u =>
        if e.hw.sliceOff (loftSlice (u.1 / 32)) then lost e else e.loftPut (u.1 / 32) (u.1 % 32) u.2 false

/-- First words of the entry and of the status of position `y` (R288). -/
def Hw.entryWord (h : Hw) (s y : Nat) : Nat :=
  h.regFld (Reg.scRingBase s) 20 0 + y % (h.scRing s) * h.regFld (Reg.scRing s) 28 12
def Hw.statusWord (h : Hw) (s y : Nat) : Nat := h.regFld (Reg.scStatusBase s) 20 0 + y % (h.scRing s)

/-- The states of a line status word. -/
def stWriting : Nat := 0
def stGood : Nat := 1
def stCrc : Nat := 2
def stHole : Nat := 3
def stShort : Nat := 4
def stLong : Nat := 5

/-- The line status word of a position with a state (Table "Line status word"). -/
def LineMeta.word (m : LineMeta) (state positions : Nat) : List Byte :=
  leBytes 4 m.pos ++ leBytes 4 m.frame.toNat ++ leBytes 1 state ++
  leBytes 1 (m.frame.toNat % 2 + 2 * (m.flags % 2) + 4 * (decide (m.pos + 1 = positions)).toNat) ++ leBytes 2 0 ++
  leBytes 4 m.bytes ++ leBytes 8 m.arrival.toNat ++ leBytes 8 m.source.toNat

/-- Write a position's status word at every destination. -/
def Eff.writeStatus (e : Eff) (s : Nat) (m : LineMeta) (state : Nat) : Eff :=
  e.each (e.hw.dests s m.pos (e.hw.statusWord s m.pos)) fun e d => e.streamWrite s d 0 (m.word state (e.hw.scPositions s))

/-- Write data into a position's entry, from byte `off`, at every destination. -/
def Eff.writeEntry (e : Eff) (s y off : Nat) (bs : List Byte) : Eff :=
  e.each (e.hw.dests s y (e.hw.entryWord s y)) fun e d => e.streamWrite s d off bs

/-! ### Resolving (R284) -/

/-- Position POS of the open frame resolves: its final status word, then the counter. -/
def Eff.resolve (e : Eff) (s p : Nat) (m : LineMeta) : Eff :=
  let e := e.writeStatus s m m.state
  e.up fun h =>
    let pos := m.pos + 1
    let h := if m.state = stHole then h.satReg (Reg.scCntHole s) else h
    h.setGate s p (if pos = h.scPositions s then 2 else 1) pos

/-- A hole at a position of the open frame. -/
def Hw.hole (h : Hw) (s p y : Nat) : LineMeta :=
  { pos := y, frame := h.gateFrame s p, state := stHole, flags := 0, bytes := 0, arrival := h.now, source := 0, beats := 0 }

/-- Resolve in ascending order: accepted positions while `all` is set, and holes below `holeTo`. -/
def Eff.settle (e : Eff) (s p : Nat) (all : Bool) : Nat → Eff
  | 0 => e
  | n + 1 =>
    let y := e.hw.gatePos s p
    let r := e.hw.stream s
    if e.hw.regFld (gateReg s p) 17 16 != 1 then e
    else match r.pend with
      | m :: ms =>
        if m.pos = y then
          if all then Eff.settle ((e.up fun h => h.setStream s { r with pend := ms }).resolve s p m) s p all n else e
        else if y < r.holeTo then Eff.settle (e.resolve s p (e.hw.hole s p y)) s p all n else e
      | [] => if y < r.holeTo then Eff.settle (e.resolve s p (e.hw.hole s p y)) s p all n else e

/-- Positions below `y` that have not been accepted resolve as holes. -/
def Eff.holesTo (e : Eff) (s p y : Nat) : Eff :=
  (e.up fun h => h.updStream s fun r => { r with holeTo := max r.holeTo y }).settle s p false (y + 1)

/-- The open sector takes its final state and awaits its resolution (R287). -/
def Eff.sectorEnds (e : Eff) (s : Nat) : Eff :=
  match (e.hw.stream s).sector with
  | none => e
  | some m => e.up fun h =>
      (h.satReg (if m.state = stLong then Reg.scCntSize s else Reg.scCntGood s)).updStream s fun r =>
        { r with sector := none, pend := r.pend ++ [m] }

/-- The open frame closes: what has been accepted resolves, and every other position as a hole (R284). -/
def Eff.closeFrame (e : Eff) (s p : Nat) : Eff :=
  let e := e.sectorEnds s
  let n := e.hw.scPositions s
  (e.up fun h => h.updStream s fun r => { r with holeTo := n }).settle s p true (n + 1)

/-- Frame `f` opens (R282, R283). -/
def Eff.openFrame (e : Eff) (s : Nat) (f : Word) : Eff :=
  let p := f.toNat % 2
  let other := 1 - p
  let late := e.hw.gateWaiters s other
  let was := e.hw.regFld (gateReg s other) 17 16
  let e := match e.hw.openParity s with
    | some q => e.closeFrame s q
    | none => e
  e.up fun h =>
    let h := if was = 0 then h else h.satRegFld (Reg.scCntGateLate s) 31 0 late
    let h := h.setGate s other 0 0
    let h := (h.setGate s p 1 0).setReg (gateReg s p + 4) f
    let h := h.setReg64 (Reg.scOpenTime s) h.now.toNat
    let h := match (h.stream s).lastFrame with
      | some g => if frameAfter f (g + 1) then h.satRegFld (Reg.scCntSkip s) 31 0 (f - g - 1).toNat else h
      | none => h
    h.updStream s fun r =>
      { r with highest := none, holeTo := 0, pend := [], lastFrame := some f, sector := none,
               opened := Tbl.put (fun _ => 0) r.opened p h.now }

/-- Whether a packet of frame `f` belongs to the open frame, to a new one, or is late (R282). -/
inductive FrameCase where
  | openAt (parity : Nat)
  | fresh
  | late
deriving DecidableEq, Repr

def Hw.frameCase (h : Hw) (s : Nat) (f : Word) : FrameCase :=
  match h.openParity s with
  | none => .fresh
  | some p => if h.gateFrame s p = f then .openAt p else if frameAfter f (h.gateFrame s p) then .fresh else .late

/-- A packet at position `y` of frame `f` is late (R284). -/
def Hw.lateAt (h : Hw) (s : Nat) (f : Word) (y : Nat) : Bool :=
  match h.frameCase s f with
  | .late => true
  | .fresh => false
  | .openAt p => decide (y < h.gatePos s p) || ((h.stream s).highest.map fun k => decide (y ≤ k)).getD false

/-- Write an accepted position: WRITING status, data; it resolves when its turn comes (R284, R290). -/
def Eff.accept (e : Eff) (s : Nat) (f : Word) (m : LineMeta) (data : List Byte) : Eff :=
  let e := match e.hw.frameCase s f with
    | .fresh => e.openFrame s f
    | _ => e
  let p := f.toNat % 2
  let e := e.holesTo s p m.pos
  let e := (e.writeStatus s { m with bytes := 0 } stWriting).writeEntry s m.pos 0 data
  e.up fun h => h.updStream s fun r => { r with highest := some m.pos, pend := r.pend ++ [m] }

/-- POSITION_RESOLVE: the oldest accepted position, when no earlier one is unresolved, and the holes behind it. -/
def Eff.positionResolve (e : Eff) (s : Nat) : Eff :=
  match e.hw.openParity s, (e.hw.stream s).pend with
  | some p, m :: ms =>
    if m.pos = e.hw.gatePos s p then
      let e := (e.up fun h => h.updStream s fun r => { r with pend := ms }).resolve s p m
      e.settle s p false (e.hw.scPositions s + 1)
    else e
  | _, _ => e

/-- POSITION_DEADLINE (R285): the lowest unresolved position, for which no packet has been accepted; an open sector
resolves with what it holds (R287). -/
def Eff.positionDeadline (e : Eff) (s : Nat) : Eff :=
  match e.hw.openParity s with
  | none => e
  | some p =>
    let y := e.hw.gatePos s p
    let period := e.hw.regFld (Reg.scLinePeriod s) 23 0
    let due := e.hw.reg64 (Reg.scOpenTime s) + (y + 1) * period + e.hw.regFld (Reg.scSlack s) 23 0
    if period = 0 || e.hw.now.toNat < due then e
    else match (e.hw.stream s).sector with
      | some m => if m.pos = y then (e.sectorEnds s).positionResolve s else e
      | none => if ((e.hw.stream s).pend.any fun m => m.pos == y) then e else e.holesTo s p (y + 1)

/-! ### LPI packets (R276 to R280) -/

/-- Expected wire bytes of a line, by format and width; other formats are reserved (R278). -/
def wireBytes (fmt width : Nat) : Option Nat :=
  match fmt with
  | 0x00 => some width
  | 0x10 => some width
  | 0x11 => some (5 * width / 4)
  | 0x12 => some (3 * width / 2)
  | 0x13 => some (2 * width)
  | 0x20 => some (2 * width)
  | 0x30 => some (3 * width)
  | _ => none

/-- Bytes that one stored pixel takes: C times e. -/
def storedPixel (fmt : Nat) : Nat :=
  match fmt with
  | 0x11 | 0x12 | 0x13 | 0x20 => 2
  | 0x30 => 3
  | _ => 1

/-- The stored bytes of a RAW10 group of five bytes. -/
def raw10 (g : List Byte) : List Byte :=
  ((List.range 4).map fun j =>
    leBytes 2 (4 * (g.getD j 0).toNat + (g.getD 4 0).toNat / 4 ^ j % 4)).flatten

/-- The stored bytes of a RAW12 pair of three bytes. -/
def raw12 (g : List Byte) : List Byte :=
  leBytes 2 (16 * (g.getD 0 0).toNat + (g.getD 2 0).toNat % 16) ++
  leBytes 2 (16 * (g.getD 1 0).toNat + (g.getD 2 0).toNat / 16)

/-- The stored form of payload bytes: complete wire groups of the packed formats (R278, R280). -/
def storedBytes (fmt : Nat) (bs : List Byte) : List Byte :=
  if fmt = 0x11 then ((List.range (bs.length / 5)).map fun g => raw10 ((bs.drop (5 * g)).take 5)).flatten
  else if fmt = 0x12 then ((List.range (bs.length / 3)).map fun g => raw12 ((bs.drop (3 * g)).take 3)).flatten
  else bs

/-- Row 2 of Table "LPI packet checks". -/
def lpiMalformed (d : List Byte) : Bool :=
  let ty := leField d 0 1
  decide (d.length < 32) || leField d 30 2 != (crc16 (d.take 30)).toNat || !(ty == 1 || ty == 2 || ty == 3) ||
  16 ≤ leField d 1 1 || 2 ≤ leField d 3 1 || !zeroAt d 24 6 || (ty != 1 && !(zeroAt d 8 8))

/-- The length of a packet, by its header (R276). -/
def lpiLength (d : List Byte) : Nat :=
  if leField d 0 1 = 1 then 48 + 16 * ceilDiv (leField d 12 4) 16 else 32

/-- LAST is absent at the length of the packet (row 8). -/
def lpiLong (d : List Byte) (end_ : LpiEnd) : Bool :=
  decide (lpiLength d < d.length) || (decide (lpiLength d = d.length) && end_ != .last)

/-- The rows that follow row 6 for a LINE packet: its state, its stored bytes, and the counter. -/
def Hw.lineState (h : Hw) (s : Nat) (d : List Byte) (end_ : LpiEnd) : Nat × List Byte :=
  let fmt := h.scFmt s
  let n := leField d 12 4
  let expect := if h.scKind s = 0 then wireBytes fmt (h.scWidth s) else if h.scWidth s = 0 then none else some (h.scWidth s)
  let payload := (d.drop 32).take n
  let entry := storedBytes fmt payload
  let cap := h.scEntry s
  let long := lpiLong d end_ || (match expect with | some x => decide (x < n) | none => false) || decide (cap < entry.length)
  let short := decide (d.length < lpiLength d) || (match expect with | some x => decide (n < x) | none => false)
  let crcOk := leField d (32 + 16 * ceilDiv n 16) 2 == (crc16 payload).toNat
  (if long then stLong else if short then stShort else if crcOk then stGood else stCrc, entry.take cap)

def stateCounter (s state : Nat) : Nat :=
  if state = stGood then Reg.scCntGood s else if state = stCrc then Reg.scCntCrc s else Reg.scCntSize s

/-- One packet of beats at a port, checked by the rows of R280 in order; `kind` is the TYPE that the command names. A beat
with FIRST = 1 that comes before the length of the packet is row 1: the packet counts there, and beyond it only in row 7,
once its header has passed. -/
def Eff.lpi (e : Eff) (port kind : Nat) (d : List Byte) (end_ : LpiEnd) : Eff :=
  let cut := end_ == .cut && (lpiMalformed d || decide (d.length < lpiLength d))
  let drop (o : Nat) : Eff := e.up fun h => h.satReg (if cut then Reg.lpiCntMalformed port else o)
  if end_ = .stray || lpiMalformed d then drop (Reg.lpiCntMalformed port)
  else
    let s := 16 * port + leField d 1 1
    let f : Word := BitVec.ofNat 32 (leField d 4 4)
    let y := leField d 8 4
    if !e.hw.scEn s then drop (Reg.lpiCntNoctx port)
    else if e.hw.scSrc s != 0 || e.hw.scKind s == 1 || leField d 2 1 != e.hw.scFmt s || e.hw.scPositions s ≤ y then
      drop (Reg.scCntDiscard s)
    else
      let sized (e : Eff) : Eff := if lpiLong d end_ then e.up fun h => h.satReg (Reg.scCntSize s) else e
      if kind = 2 then
        match e.hw.frameCase s f with
        | .fresh => sized (e.openFrame s f)
        | _ => drop (Reg.scCntLate s)
      else if kind = 3 then
        match e.hw.frameCase s f with
        | .openAt p => sized (e.closeFrame s p)
        | _ => drop (Reg.scCntLate s)
      else if e.hw.lateAt s f y then drop (Reg.scCntLate s)
      else
        let (state, bytes) := e.hw.lineState s d end_
        let m : LineMeta := { pos := y, frame := f, state, flags := leField d 3 1, bytes := bytes.length,
                              arrival := e.hw.now, source := BitVec.ofNat 64 (leField d 16 8), beats := d.length / 16 }
        let e := if cut then e.up fun h => h.satReg (Reg.lpiCntMalformed port) else e
        (e.up fun h => h.satReg (stateCounter s state)).accept s f m bytes

/-- The input buffer of a port can take a packet of `n` beats; one greater than the buffer passes through it while it is
empty (R279, log entry 103). -/
def Hw.lpiFits (h : Hw) (port n : Nat) : Bool := decide (h.lpiHeld port + n ≤ 16384) || h.lpiHeld port == 0

/-- A packet command acts when its packet is of its type: LPI_LINE also takes what no other command takes. READY is 0 through
an engine reset and while the port has no power (R275), and while the input buffer is full: the packet then waits, and the
cycle counts (R279). -/
def Eff.lpiPacket (e : Eff) (port kind : Nat) (d : List Byte) (end_ : LpiEnd) : Eff :=
  let ty := leField d 0 1
  if !e.hw.unitUp (16 + port) || e.hw.boot.rstPhase.isSome || (kind = 1 && (ty == 2 || ty == 3)) || (kind != 1 && ty != kind) then e
  else if !e.hw.lpiFits port (d.length / 16) then
    e.up fun h => (h.addReg64 (Reg.lpiReadyLow port) 1).setOffer port (d.length / 16)
  else (e.up fun h => h.setOffer port 0).lpi port kind d end_

/-! ### Range-sensor packets (R286, R287, R300, R301) -/

/-- The 16-bit ones' complement sum of bytes, most significant byte first. -/
def onesSum (bs : List Byte) : Nat :=
  let total := ((List.range ((bs.length + 1) / 2)).map fun i => (bs.getD (2 * i) 0).toNat * 256 + (bs.getD (2 * i + 1) 0).toNat).foldl (· + ·) 0
  let fold (n : Nat) : Nat := n % 65536 + n / 65536
  fold (fold (fold total))

/-- A UDP datagram in a frame: IPv6 or not, its VLAN ID, source address, ports, whether its checksums hold, payload. -/
structure Datagram where
  v6 : Bool
  vid : Option Nat
  src : Nat
  srcPort : Nat
  dstPort : Nat
  sumsOk : Bool
  payload : List Byte
deriving DecidableEq, Repr

/-- The datagram of a frame without its FCS, when it is UDP over IPv4 that is no fragment, or over IPv6 with UDP as the
first next header, after at most one tag. -/
def datagramOf (d : List Byte) : Option Datagram :=
  let tagged := beField d 12 2 == 0x8100
  let vid := if tagged then some (beField d 14 2 % 4096) else none
  let o := if tagged then 18 else 14
  let ty := beField d (o - 2) 2
  let ip := d.drop o
  if ty = 0x0800 then
    let ihl := 4 * (beField ip 0 1 % 16)
    let total := beField ip 2 2
    if beField ip 0 1 / 16 != 4 || ihl < 20 || total < ihl + 8 || ip.length < total || beField ip 9 1 != 17 ||
        beField ip 6 2 % 2 ^ 14 != 0 then none
    else
      let udp := (ip.take total).drop ihl
      let len := beField udp 4 2
      let body := udp.take len
      let hdrOk := onesSum (ip.take ihl) == 0xFFFF
      let pseudo := sliceBytes ip 12 8 ++ [0, 17] ++ beBytes 2 len
      let sumOk := beField udp 6 2 == 0 || onesSum (pseudo ++ body) == 0xFFFF
      some ⟨false, vid, beField ip 12 4, beField udp 0 2, beField udp 2 2, hdrOk && sumOk && 8 ≤ len && len ≤ udp.length, body.drop 8⟩
  else if ty = 0x86DD then
    let plen := beField ip 4 2
    if beField ip 0 1 / 16 != 6 || beField ip 6 1 != 17 || ip.length < 40 + plen || plen < 8 then none
    else
      let udp := (ip.drop 40).take plen
      let len := beField udp 4 2
      let body := udp.take len
      let pseudo := sliceBytes ip 8 32 ++ beBytes 4 len ++ [0, 0, 0, 17]
      let sumOk := beField udp 6 2 != 0 && onesSum (pseudo ++ body) == 0xFFFF
      some ⟨true, vid, beField ip 8 16, beField udp 0 2, beField udp 2 2, sumOk && 8 ≤ len && len ≤ udp.length, body.drop 8⟩
  else none

/-- A datagram matches filter rule `r` of a link (R300). -/
def Hw.matches (h : Hw) (l r : Nat) (g : Datagram) : Bool :=
  let c := h.reg (Reg.frCtrl l r)
  let m := h.reg (Reg.frMatch l r)
  let bits := if g.v6 then 128 else 32
  let addr := if g.v6 then
      (h.reg (Reg.frSrcAddr0 l r)).toNat * 2 ^ 96 + (h.reg (Reg.frSrcAddr1 l r)).toNat * 2 ^ 64 +
        (h.reg (Reg.frSrcAddr2 l r)).toNat * 2 ^ 32 + (h.reg (Reg.frSrcAddr3 l r)).toNat
    else (h.reg (Reg.frSrcAddr0 l r)).toNat
  let drop := bits - min bits (fld m 23 16)
  bitOf c 8 && bitOf c 9 == g.v6 && (!bitOf c 10 || g.vid == some (fld m 11 0)) && g.src / 2 ^ drop == addr / 2 ^ drop &&
  g.dstPort == h.regFld (Reg.frPorts l r) 15 0 && (!bitOf c 11 || g.srcPort == h.regFld (Reg.frPorts l r) 31 16)

/-- The lowest-numbered rule of a link that matches. -/
def Hw.filterOf (h : Hw) (l : Nat) (g : Datagram) : Option Nat := (List.range 32).find? fun r => h.matches l r g

/-- The value nearest to `last` whose low 16 bits are the field; the greater of two that are equally near (R286). -/
def extend16 (last field : Nat) : Nat :=
  let d := (field + 65536 - last % 65536) % 65536
  if d ≤ 32768 then (last + d) % 2 ^ 32 else (last + 2 ^ 32 + d - 65536) % 2 ^ 32

/-- A packet of a sequence stream from a link (R286, R288). -/
def Eff.seqPacket (e : Eff) (s : Nat) (field : Nat) (wide byArrival : Bool) (data : List Byte) (ts : DWord) : Eff :=
  let r := e.hw.stream s
  let n := e.hw.scPositions s
  let ext :=
    if byArrival then r.matched % 2 ^ 32
    else if wide then field
    else match r.lastSeq with
      | some x => extend16 x field
      | none => field
  let e := e.up fun h => h.setStream s { r with lastSeq := some ext }
  let f : Word := BitVec.ofNat 32 (ext / n)
  let y := ext % n
  if e.hw.lateAt s f y then e.up fun h => h.satReg (Reg.scCntLate s)
  else
    let w := e.hw.scWidth s
    let cap := e.hw.scEntry s
    let state := if (w != 0 && decide (w < data.length)) || decide (cap < data.length) then stLong
      else if w != 0 && decide (data.length < w) then stShort else stGood
    let bytes := data.take cap
    let m : LineMeta := { pos := y, frame := f, state, flags := 0, bytes := bytes.length, arrival := e.hw.now, source := ts,
                          beats := ceilDiv data.length 16 }
    (e.up fun h => h.satReg (stateCounter s state)).accept s f m bytes

/-- Append a packet's data to the open sector (R287). -/
def Eff.appendSector (e : Eff) (s : Nat) (data : List Byte) : Eff :=
  match (e.hw.stream s).sector with
  | none => e
  | some m =>
    let cap := e.hw.scEntry s
    let bs := data.take (cap - m.bytes)
    (e.writeEntry s m.pos m.bytes bs).up fun h => h.updStream s fun r =>
      { r with sector := some { m with bytes := m.bytes + bs.length, state := if bs.length < data.length then stLong else m.state } }

/-- Sector `y` of the open revolution receives its first packet. -/
def Eff.beginSector (e : Eff) (s p y : Nat) (data : List Byte) (ts : DWord) : Eff :=
  let e := (e.sectorEnds s).settle s p true (e.hw.scPositions s + 1)
  let e := e.holesTo s p y
  let m : LineMeta := { pos := y, frame := e.hw.gateFrame s p, state := stGood, flags := 0, bytes := 0, arrival := e.hw.now,
                        source := ts, beats := 0 }
  ((e.writeStatus s m stWriting).up fun h => h.updStream s fun r => { r with sector := some m, highest := some y }).appendSector
    s data

/-- A packet of a sector stream (R287). -/
def Eff.sectorPacket (e : Eff) (s az : Nat) (data : List Byte) (ts : DWord) : Eff :=
  let range := (e.hw.reg (Reg.scAzRange s)).toNat
  let n := e.hw.scPositions s
  if range ≤ az then e.up fun h => h.satReg (Reg.scCntDiscard s)
  else
    let y := az * n / range
    let fresh (e : Eff) : Eff :=
      let f := (e.hw.stream s).revs
      let e := e.openFrame s f
      (e.up fun h => h.updStream s fun r => { r with revs := f + 1 }).beginSector s (f.toNat % 2) y data ts
    match e.hw.openParity s with
    | none => fresh e
    | some p =>
      match (e.hw.stream s).sector.map LineMeta.pos <|> (e.hw.stream s).highest with
      | none => e.beginSector s p y data ts
      | some c =>
        if y = c then
          if (e.hw.stream s).sector.isSome then e.appendSector s data else e.up fun h => h.satReg (Reg.scCntLate s)
        else if c < y then
          if y < e.hw.gatePos s p then e.up fun h => h.satReg (Reg.scCntLate s) else e.beginSector s p y data ts
        else if n / 2 ≤ c - y then fresh e
        else e.up fun h => h.satReg (Reg.scCntLate s)

/-- STREAM_UDP_PACKET: a frame on a link is matched with the filter, checked and written to its stream (R300, R301). A
packet that the stream discards has been matched too (R286).
`ts` is the MAC receive timestamp. -/
def Eff.udpPacket (e : Eff) (l : Nat) (d : List Byte) (ts : DWord) : Eff :=
  match datagramOf d with
  | none => e
  | some g =>
    match e.hw.filterOf l g with
    | none => e
    | some r =>
      let c := e.hw.reg (Reg.frCtrl l r)
      let s := fld c 6 0
      let o := e.hw.reg (Reg.frOffsets l r)
      let wide := bitOf c 12
      let fo := fld o 15 0
      let k := if wide then 4 else 2
      let e := e.up fun h => h.satReg (Reg.frHits l r)
      let room := decide (e.hw.lpiHeld (s / 16) + ceilDiv (g.payload.length - fld o 31 16) 16 ≤ 16384)
      let takes := e.hw.scEn s && e.hw.scSrc s == l + 1 && e.hw.scKind s != 0
      let counts (e : Eff) : Eff :=
        if takes then e.up fun h => h.updStream s fun r => { r with matched := r.matched + 1 } else e
      if !takes || !room || !g.sumsOk || g.payload.length < fo + k || g.payload.length < fld o 31 16 then
        counts (e.up fun h => h.satReg (Reg.scCntDiscard s))
      else
        let field := if bitOf c 13 then beField g.payload fo k else leField g.payload fo k
        let data := g.payload.drop (fld o 31 16)
        counts (if e.hw.scKind s = 1 then e.sectorPacket s field data ts else e.seqPacket s field wide (bitOf c 14) data ts)

/-- A frame reaches a link's filter while the port is up (11 R435). -/
def Eff.udpArrives (e : Eff) (l : Nat) (d : List Byte) (ts : DWord) : Eff :=
  if e.hw.regBit (Reg.lnkStatus l) 0 then e.udpPacket l d ts else e

/-! ### Enabling (R306) -/

/-- A COMMIT sets EN: both counters are ARMED, the counters are cleared. -/
def Hw.streamOn (h : Hw) (s : Nat) : Hw :=
  let h := ((h.setGate s 0 0 0).setReg (gateReg s 0 + 4) 0).setGate s 1 0 0 |>.setReg (gateReg s 1 + 4) 0
  let h := (List.range 8).foldl (fun h k => h.setReg (Reg.scCntGood s + 4 * k) 0) h
  h.setStream s StreamRun.start

/-- A COMMIT clears EN: the open frame closes. -/
def Eff.streamOff (e : Eff) (s : Nat) : Eff :=
  match e.hw.openParity s with
  | some p => e.closeFrame s p
  | none => e

end Sys2Proof.Machine
end

