-- ==== Sys2Proof/Machine/Kernels.lean ====
section
/-!
DEFINITION. Kernels on partitions: choice, placement, the switch of contexts, start and end; Cellar spills and restores;
Redeal copies (08_caller_and_queues.md R319 to R322, R337 to R340; 05_core_program.md R167, R215;
03_matrix_unit.md R109; 06_pantry_loft_gather.md R248 to R251; 12_functional_safety.md R495 to R501, R506).
-/
namespace Sys2Proof.Machine

open Sys2Proof

/-! ### Placement (R320) -/

/-- Word ranges of the ring and the status ring of a stream. -/
def Hw.streamRings (h : Hw) (s : Nat) : List (Nat × Nat) :=
  let n := h.scRing s
  let b := h.regFld (Reg.scRingBase s) 16 0
  let t := h.regFld (Reg.scStatusBase s) 16 0
  [(b, b + n * h.regFld (Reg.scRing s) 28 12), (t, t + n)]

/-- An enabled stream keeps its rings in the Pantry of a logical core (07 R289). -/
def Hw.streamOnCore (h : Hw) (s l : Nat) : Bool :=
  let o := h.reg (Reg.scStripe s)
  h.scEn s && !h.scLoft s && decide (fld o 5 0 ≤ l) && decide (l ≤ fld o 5 0 + fld o 13 8)

/-- Rings of enabled streams on a logical core, of those streams that `sel` selects. -/
def Hw.ringsOn (h : Hw) (l : Nat) (sel : Nat → Bool) : List (Nat × Nat) :=
  (((List.range 96).filter fun s => h.streamOnCore s l && sel s).map h.streamRings).flatten

/-- Two half-open ranges have a word in common. -/
def meets (a b : Nat × Nat) : Bool := decide (a.1 < a.2) && decide (b.1 < b.2) && decide (a.1 < b.2) && decide (b.1 < a.2)

/-- A region of `words` words at `base` qualifies on every core of a partition for a context. -/
def Hw.placeOk (h : Hw) (part ctx base words : Nat) : Bool :=
  decide (base + words ≤ 131072) &&
  (h.partCores part).all fun l =>
    let st := h.reg (Reg.pantryGranuleState (h.phys l))
    ((List.range 16).all fun k => !meets (8192 * k, 8192 * k + 8192) (base, base + words) || (bitOf st k && !bitOf st (16 + k))) &&
    (h.ringsOn l fun s => !h.assigned s ctx part).all fun r => !meets r (base, base + words)

/-- The lowest qualifying multiple of 8 from `base` on. -/
def Hw.placeFrom (h : Hw) (part ctx words : Nat) : Nat → Nat → Option Nat
  | 0, _ => none
  | n + 1, base =>
    if 131072 < base + words then none
    else if h.placeOk part ctx base words then some base
    else Hw.placeFrom h part ctx words n (base + 8)

/-- PBASE of a kernel, if one qualifies. -/
def Hw.place (h : Hw) (part : Nat) (j : LaunchJob) : Option Nat :=
  match j.fixed with
  | some b => if h.placeOk part j.ctx b j.words then some b else none
  | none => h.placeFrom part j.ctx j.words 16385 0

/-! ### Choice (R338) -/

/-- The oldest dispatched LAUNCH of each queue on a partition, of resident contexts that may start. -/
def Hw.candidates (h : Hw) (part : Nat) : List LaunchJob :=
  let mine := h.caller.launches.filter fun j => j.part == part
  let queueOf (j : LaunchJob) : Option Nat := (h.item? j.item).map Item.queue
  (mine.filter fun j => !mine.any fun i => queueOf i == queueOf j && decide (i.order < j.order)).filter fun j =>
    h.resident j.ctx && !h.noStart j.ctx

/-- Primaries of a partition that await comparison. -/
def Hw.waitingPrimaries (h : Hw) (part : Nat) : List Primary := h.caller.primaries.filter fun x => x.part == part

/-- A REDEAL job that must wait since 8 primaries await comparison (12 R501). -/
def Hw.redealWaits (h : Hw) (part : Nat) (j : LaunchJob) : Bool :=
  j.kflags.testBit 1 && decide (8 ≤ (h.waitingPrimaries part).length)

/-- The candidate of highest PRIORITY, among equals the earliest dispatched. -/
def Hw.choice (h : Hw) (part : Nat) : Option LaunchJob :=
  ((h.candidates part).filter fun j => !h.redealWaits part j).foldl (fun (best : Option LaunchJob) j =>
    match best with
    | none => some j
    | some b => if b.prio < j.prio || (b.prio == j.prio && decide (j.order < b.order)) then some j else some b) none

/-- A kernel may be chosen on a partition now (R337, 12 R486, R495, 13 R532, R542). -/
def Hw.mayChoose (h : Hw) (part : Nat) : Bool :=
  (h.kernel? part).isNone && h.partEn part && !h.regBit (Reg.partRun part) 31 && !(h.keep part).retired &&
  decide ((h.keep part).holdUntil ≤ h.epoch) && !h.classAHeld && h.boot.rstPhase.isNone &&
  (h.partPhys part).all fun p => h.safety.passed.contains p && !h.safety.retire.contains p && !(h.boot.retiring ++ h.boot.leaving).any fun x => x.1 == p

/-- A kernel that has been chosen. -/
def Hw.chosen (h : Hw) (j : LaunchJob) (pbase : Nat) (kind : RunKind) : Kernel :=
  { job := j, gen := h.genOf j.ctx, pbase, kind, phase := 0, detm := false, restoreDue := false, restored := false,
    loaded := false, tricks0 := [], started := 0, startEpoch := 0, jobsCancelled := false, age := ageNone, stalled := 0, snaps := [] }

/-- KERNEL_SELECT: the Caller chooses the next kernel of a partition and places it; a kernel that no base suits completes
with FAULT_PERMISSION. -/
def Hw.kernelSelect (h : Hw) (part : Nat) : Hw :=
  if !h.mayChoose part then h
  else match h.choice part with
    | none => h
    | some j =>
      let h := h.updCaller fun c => { c with launches := c.launches.filter fun x => x.item != j.item }
      match h.place part j with
      | none => h.complete j.item { status := Status.faultPermission }
      | some b =>
        if j.kflags.testBit 1 then
          let n := h.caller.nextPrimary
          ((h.updCaller fun c => { c with nextPrimary := n + 1 }).setKernel part (some (h.chosen j b (.primary n)))).partState part
        else (h.setKernel part (some (h.chosen j b .plain))).partState part

/-- The primary whose copy runs next on a copy partition (12 R497). -/
def Hw.nextCopy (h : Hw) (part : Nat) : Option Primary :=
  (h.primaryOf part).bind fun p => (h.waitingPrimaries p).find? fun x => x.ended && x.copy.isNone

/-- REDEAL_COPY_START: the copy of the earliest primary is chosen at the kernel boundary of the copy partition; one that
no base suits counts as a copy that trapped. -/
def Hw.copyStart (h : Hw) (part : Nat) : Hw :=
  if !h.mayChoose part then h
  else match h.nextCopy part with
    | none => h
    | some x =>
      if h.noStart x.job.ctx then h
      else match h.place part x.job with
        | none => h.endCopy part x.id 0
        | some b =>
          let n := (h.partCores part).length
          let k := h.chosen x.job b (.copy x.id (if n = 0 then 0 else x.epoch % n))
          (h.setKernel part (some { k with detm := x.detm })).partState part

/-! ### Cellar (06 R248 to R251) -/

/-- Charge carry cycles of a partition to a context (R340). -/
def Hw.chargeCarry (h : Hw) (part ctx n : Nat) : Hw :=
  h.updCaller fun c => { c with carryCycles := Tbl.upd (fun _ => 0) c.carryCycles (part * 4096 + ctx) (· + n) }

/-- The context whose carry regions are to be spilled from a partition now: the next kernel is another's, or the context
is being evicted and has nothing to run there (R339, R343). -/
def Hw.spillDue (h : Hw) (part : Nat) : Option Nat :=
  match (h.keep part).lastCtx with
  | none => none
  | some c =>
    let displaced := match h.kernel? part with
      | some k => k.phase == 0 && k.job.ctx != c
      | none => ((h.ctx? c).map Ctx.evicting).getD false && !h.caller.launches.any fun j => j.part == part && j.ctx == c
    if displaced && !(h.keep part).carries.isEmpty && !h.noStart c then some c else none

/-- What a spill records of one region: offset, words, CRC and poison span, and its payload with the poison of each
word. -/
def Memory.region (m : Memory) (p base : Nat) (r : Nat × Nat) : (Nat × Nat × Word × Option (Nat × Nat)) × List Byte × List Bool :=
  let a := pantryAddr p (32 * (base + r.1))
  let bs := m.bytes a (32 * r.2)
  let bad := (List.range r.2).map fun w => (m.state (a + 32 * w)).bad
  let at_ := (List.range r.2).filter fun w => bad.getD w false
  ((r.1, r.2, crc32 bs, match at_.head?, at_.getLast? with | some x, some y => some (x, y) | _, _ => none), bs, bad)

/-- The header of a Cellar image. Its poison span, as OFFSET_i, counts words from PBASE (log 100). -/
def imageHeader (ctx gen rank : Nat) (time : DWord) (rs : List (Nat × Nat × Word × Option (Nat × Nat))) : List Byte :=
  let pad (n : Nat) (bs : List Byte) : List Byte := bs ++ List.replicate (n - bs.length) 0
  let head := leBytes 4 (ctx + gen % 16 * 2 ^ 12 + rank % 64 * 2 ^ 16 + rs.length * 2 ^ 24) ++ leBytes 4 ((rs.map fun r => r.2.1).sum) ++
    leBytes 8 time.toNat
  let span (f : Nat × Nat → Nat) (r : Nat × Nat × Word × Option (Nat × Nat)) : Nat :=
    match r.2.2.2 with | some x => r.1 + f x | none => 0xFFFFFFFF
  let body := pad 300 (List.replicate 44 0 ++ (rs.map fun r => leBytes 4 r.1 ++ leBytes 4 r.2.1 ++ leBytes 4 r.2.2.1.toNat ++
    leBytes 4 (span Prod.fst r) ++ leBytes 4 (span Prod.snd r) ++ List.replicate 12 0).flatten)
  head ++ leBytes 4 (crc32 (head ++ body)).toNat ++ body

/-- The header of a rank's image goes out after its payloads (R249). -/
def Hw.spillHeader (h : Hw) (i : CellarImage) (index : Nat) : Hw :=
  match h.ctx? i.ctx with
  | none => h
  | some x => h.addOwn (ownWrite 6 index i.ctx i.part (x.cellarBase + i.rank * x.cellarStride)
      (imageHeader i.ctx x.gen i.rank h.now i.regions) 0 (.image i))

/-- The image of a rank is whole: a restore may take it (R250). -/
def Hw.imageStored (h : Hw) (i : CellarImage) : Hw :=
  h.updCaller fun c =>
    { c with cellar := (c.cellar.filter fun j => !(j.ctx == i.ctx && j.part == i.part && j.rank == i.rank)) ++ [i] }

/-- One rank begins to spill: its regions are read through slot 5, and their payloads go out. -/
def Eff.spillRank (e : Eff) (part ctx rank logical p : Nat) (x : Ctx) : Eff :=
  let keep := e.hw.keep part
  let rs := keep.carries.map fun r => e.mem.region p keep.lastPbase r
  let e := e.each keep.carries fun e r => e.pantryErrors p (32 * (keep.lastPbase + r.1)) (32 * r.2) false
  let base := x.cellarBase + rank * x.cellarStride
  let parts := (rs.foldl (fun (t : List OwnPart × Nat) r =>
    (if r.1.2.1 = 0 then t.1 else t.1 ++ [⟨base + t.2, 32 * r.1.2.1, r.2.1, r.2.2⟩], t.2 + ceilDiv (32 * r.1.2.1) 256 * 256)) ([], 512)).1
  let i : CellarImage := { ctx, part, rank, regions := rs.map Prod.fst, payload := rs.map fun r => r.2.1 }
  e.up fun h =>
    if parts.isEmpty then h.spillHeader i (64 * part + logical)
    else h.addOwn { ownWrite 6 (64 * part + logical) ctx part 0 [] 0 (.payload i) with parts }

/-- CELLAR_SPILL: the carry regions of the outgoing context go to its Cellar. -/
def Eff.cellarSpill (e : Eff) (part cycles : Nat) : Eff :=
  match e.hw.spillDue part with
  | none => e
  | some c =>
    match e.hw.ctx? c with
    | none => e
    | some x =>
      let e := e.each (e.hw.partCores part).zipIdx fun e r => e.spillRank part c r.2 r.1 (e.hw.phys r.1) x
      e.up fun h => (h.chargeCarry part c cycles).updKeep part fun k => { k with carries := [] }

/-- Restore one region: every word is poisoned when its CRC does not match, and within the recorded span (06 R250). -/
def Eff.restoreRegion (e : Eff) (p base : Nat) (r : Nat × Nat × Word × Option (Nat × Nat)) (bs : List Byte) (bad : List Bool) : Eff :=
  let ok := crc32 bs == r.2.2.1 && bs.length == 32 * r.2.1
  e.each (List.range r.2.1) fun e w =>
    let word := base + r.1 + w
    let inSpan := match r.2.2.2 with | some x => decide (x.1 ≤ w) && decide (w ≤ x.2) | none => false
    if word < 131072 && (e.hw.up p).testBit (word / 8192) then
      e.pantryWrite p (32 * word) ((sliceBytes bs (32 * w) 32) ++ List.replicate (32 - (sliceBytes bs (32 * w) 32).length) 0)
        (!ok || inSpan || bad.getD w false)
    else e

/-- The reads of a kind for the cores of a partition are over: their command has taken the data. -/
def Hw.readsEnd (h : Hw) (unit_ part : Nat) : Hw :=
  h.updAtu fun a => { a with own := a.own.filter fun j => !(j.unit_ == unit_ && !j.write && j.index / 64 == part) }

/-- CELLAR_RESTORE: once the outgoing context's words are cleared, the images of the incoming context come back; `data` is what memory returns for each rank and region,
with the poison of each word. -/
def Eff.cellarRestore (e : Eff) (part : Nat) (data : List (List (List Byte × List Bool))) (cycles : Nat) : Eff :=
  match e.hw.kernel? part with
  | none => e
  | some k =>
    if k.phase ≠ 0 || !k.restoreDue || e.hw.noStart k.job.ctx then e
    else
      let e := e.each (e.hw.partPhys part).zipIdx fun e r =>
        match e.hw.caller.cellar.find? fun i => i.ctx == k.job.ctx && i.part == part && i.rank == r.2 with
        | none => e
        | some i => e.each i.regions.zipIdx fun e g =>
            let d := ((data.getD r.2 []).getD g.2 ([], []))
            e.restoreRegion r.1 k.pbase g.1 d.1 d.2
      e.up fun h =>
        let h := h.updCaller fun c => { c with cellar := c.cellar.filter fun i => !(i.ctx == k.job.ctx && i.part == part) }
        let h := h.readsEnd 7 part
        (h.chargeCarry part k.job.ctx cycles).updKernel part fun k => { k with restoreDue := false, restored := true }

/-! ### The switch (R339, R321) -/

/-- A range without some others. -/
def rangeMinus (lo hi : Nat) : List (Nat × Nat) → List (Nat × Nat)
  | [] => if lo < hi then [(lo, hi)] else []
  | r :: rs =>
    if meets (lo, hi) r then rangeMinus lo (min hi r.1) rs ++ rangeMinus (max lo r.2) hi rs else rangeMinus lo hi rs

/-- Clear the words [lo, hi) of a core but for the rings of enabled streams that `spare` selects. -/
def Eff.clearWords (e : Eff) (p lo hi : Nat) (spare : Nat → Bool) : Eff :=
  let rings := match e.hw.logicalOf p with
    | some l => e.hw.ringsOn l spare
    | none => []
  e.each (rangeMinus lo hi rings) fun e r => e.write (.clear (pantryAddr p (32 * r.1)) (pantryAddr p (32 * r.2)))

/-- Load code into a core: a bundle that memory returned bad is marked uncorrectable. -/
def Hw.loadCode (h : Hw) (p : Nat) (j : LaunchJob) (code : List (BitVec 128 × Bool)) : Hw :=
  let bad := code.zipIdx.filterMap fun x => if x.1.2 then some x.2 else none
  let h := h.updBody p fun b =>
    { b with istore := Tbl.putAll (fun _ => 0) b.istore 0 (code.map Prod.fst), isBad := bad }
  h.updCaller fun c =>
    { c with codes := Tbl.put (fun _ => none) c.codes p
               (if bad.isEmpty then some { va := j.codeVa, bundles := j.bundles, ctx := j.ctx, gen := h.genOf j.ctx } else none) }

/-- The kernel chosen on a partition is of another context than the partition's previous one (R339). -/
def Hw.switches (h : Hw) (part : Nat) (k : Kernel) : Bool :=
  (h.keep part).lastCtx != some k.job.ctx || (h.keep part).gone

/-- The outgoing context is out of the way: its regions are spilled, and a reset that clears its words has done so (R339,
06 R251). -/
def Hw.outgoingDone (h : Hw) (part : Nat) : Bool :=
  let phys := h.partPhys part
  ((h.keep part).lastCtx.isNone || (h.keep part).carries.isEmpty) && !h.underWay (OwnGoal.spills (some part) none) &&
  !h.caller.resets.any fun r => r.clears.any fun c => phys.contains c.1

/-- The outgoing context's words are cleared, and the words that the new one will have used begin with its region; `cycles`
is what the clear took (R339, R340). -/
def Eff.switchClear (e : Eff) (part : Nat) (k : Kernel) (cycles : Nat) : Eff :=
  let keep := e.hw.keep part
  let switch := e.hw.switches part k
  let e := match keep.lastCtx with
    | some c =>
      if switch then
        (e.each (e.hw.partPhys part) fun e p => e.clearWords p keep.lo keep.hi fun _ => true).up fun h =>
          if keep.gone then h else h.chargeCarry part c cycles
      else e
    | none => e
  e.up fun h =>
    let due := (switch || keep.restoreDue) && !k.isCopy && h.caller.cellar.any fun i => i.ctx == k.job.ctx && i.part == part
    let top := k.pbase + k.job.words
    let h := h.updKeep part fun x =>
      { x with lastCtx := some k.job.ctx, gone := false, restoreDue := false, carries := if switch then [] else x.carries,
               lo := if switch then k.pbase else min x.lo k.pbase, hi := if switch then top else max x.hi top }
    h.updKernel part fun k => { k with cleared := true, restoreDue := due }

/-- The code of a kernel is loaded into the cores that do not hold it, once nothing is left to restore. -/
def Hw.switchLoad (h : Hw) (part : Nat) (code : List (BitVec 128 × Bool)) : Hw :=
  match h.kernel? part with
  | none => h
  | some k =>
    let need := (h.partPhys part).filter fun p => !h.codeHeld p k.job
    if k.restoreDue || (!need.isEmpty && code.length != k.job.bundles) then h
    else
      ((need.foldl (fun h p => h.loadCode p k.job code) h).readsEnd 4 part).updKernel part fun k =>
        { k with phase := 1, loaded := !need.isEmpty }

/-- CONTEXT_SWITCH: once the outgoing context has been spilled, its words are cleared; once the incoming one has been
restored, where that is due (CELLAR_RESTORE), the code is loaded. `code` is what memory returns for the kernel's bundles,
each with whether it came bad, and `cycles` what the clear took. -/
def Eff.contextSwitch (e : Eff) (part : Nat) (code : List (BitVec 128 × Bool)) (cycles : Nat) : Eff :=
  match e.hw.kernel? part with
  | none => e
  | some k =>
    if k.phase ≠ 0 || e.hw.noStart k.job.ctx || !e.hw.outgoingDone part then e
    else (if k.cleared then e else e.switchClear part k cycles).up fun h => h.switchLoad part code

/-! ### Start and end (05 R167, R215; R319, R322) -/

/-- What the hang detector takes of a core (13 R522): TRICKS, RETIRED, WAIT_INFO, WAIT_THRESH, and the counter or gate
counter that the wait names. -/
def Hw.snap (h : Hw) (p : Nat) : DWord × DWord × Word × Word × Word :=
  let b := h.body p
  let named := if fld b.waitInfo 2 0 = 2 then h.reg (gateReg (fld b.waitInfo 14 8) (fld b.waitInfo 15 15)) else b.cr (fld b.waitInfo 7 3)
  (b.tricks, b.retired, b.waitInfo, b.waitThresh, named)

/-- The matrix unit before a kernel (03 R109); its counters go on. -/
def MatrixUnit.begin_ (m : MatrixUnit) (negate : Bool) : MatrixUnit := { m.cleared with negate }

/-- A core when a kernel starts on it (05 R167). -/
def CoreBody.begin_ (b : CoreBody) (k : Kernel) (part served logical rank n : Nat) (detm negate : Bool) : CoreBody :=
  let b := b.openHatches.foldl CoreBody.closeHatch b
  let sregs := ([0, BitVec.ofNat 32 logical, BitVec.ofNat 32 rank, BitVec.ofNat 32 n] : List Word) ++ k.job.args
  { CoreBody.reset with
    run := .issuing
    ctx := BitVec.ofNat 32 (2 ^ 31 + served * 2 ^ 20 + part * 2 ^ 16 + k.gen % 16 * 2 ^ 12 + k.job.ctx % 4096)
    detm, s := Tbl.putAll (fun _ => 0) [] 0 sregs, pc := k.job.entry
    hatches := b.hatches, dir := b.dir, istore := b.istore, isBad := b.isBad, retired := b.retired, tricks := b.tricks
    dmaNext := b.dmaNext, mx := b.mx.begin_ negate, pbase := k.pbase, pbound := k.job.words, ibase := 0
    ibound := k.job.bundles, arrivals := b.arrivals }

/-- The item's queue of a job. -/
def Hw.jobQueue (h : Hw) (j : LaunchJob) : Option Nat := (h.item? j.item).map Item.queue

/-- The primary's windows and epoch that a copy answers for. -/
def Kernel.rot (k : Kernel) : Nat :=
  match k.kind with
  | .copy _ r => r
  | _ => 0

/-- The core state is set on every core of the partition, and the kernel issues. In a copy the core of rank
(r + ROT) mod n serves rank r (12 R498, R499). -/
def Hw.coresStart (h : Hw) (part : Nat) : Hw :=
  match h.kernel? part with
  | none => h
  | some k =>
      let cores := h.partCores part
      let n := cores.length
      let copy := k.isCopy
      let detm := if copy then k.detm else h.regBit Reg.globalCtrl 0
      let own := h.partCores k.job.part
      let h := (List.range n).foldl (fun h r =>
        let served := cores.getD ((r + k.rot) % n) 0
        let p := h.phys served
        let h := (h.hatchesEnd p).stopBody p fun b => b.begin_ k part served (if copy then own.getD r 0 else served) r n detm copy
        if k.kind = .plain then h else h.setSig p SigRun.start) h
      let age := match (if copy then none else h.jobQueue k.job) with
        | some q => h.age q
        | none => ageNone
      let phys := h.partPhys part
      let h := h.updKernel part fun k =>
        { k with phase := 2, detm, age, started := h.elapsed, startEpoch := h.epoch, stalled := 0,
                 snaps := phys.map h.snap, tricks0 := phys.map fun p => (h.body p).tricks }
      let h := h.updKeep part fun x => { x with carries := if copy then [] else k.job.carries, lastPbase := k.pbase }
      h.partState part

/-- KERNEL_START: granules that were to power down and lie outside the kernel's region do so now (06 R232), the core state
is set, and the kernel issues. -/
def Eff.kernelStart (e : Eff) (part : Nat) : Eff :=
  match e.hw.kernel? part with
  | none => e
  | some k =>
    if k.phase ≠ 1 || e.hw.noStart k.job.ctx then e
    else
      (e.each (e.hw.partPhys part) fun e p => e.each (List.range 16) fun e g =>
        if regionHas k.pbase k.job.words g then e else e.granuleDown p g).up fun h => h.coresStart part

/-- The status of a kernel that ends without a trap (05 R215; R322). -/
def Hw.endStatus (h : Hw) (part : Nat) (k : Kernel) : Status :=
  let fl := (h.partPhys part).foldl (fun (f : BitVec 4) p => f ||| (h.body p).flags) 0
  if k.jobsCancelled then Status.cancelled
  else if fl.getLsbD 0 then Status.ecc
  else if fl.getLsbD 1 then Status.poison
  else if fl.getLsbD 2 then Status.staleHatch
  else if fl.getLsbD 3 then Status.undelivered
  else Status.ok

/-- A copy has ended: its windows by rank await comparison (12 R501). -/
def Hw.copyEnded (h : Hw) (part id rot : Nat) : Hw :=
  let cores := h.partCores part
  let n := cores.length
  let phys := (List.range n).map fun r => h.phys (cores.getD ((r + rot) % n) 0)
  h.updCaller fun c =>
    { c with primaries := c.primaries.map fun x =>
        if x.id = id then { x with copy := some (phys.map fun p => (h.sigOf p).final), copyPhys := phys } else x }

/-- A primary has ended with OK: its copy is to run (12 R497). -/
def Hw.primaryEnded (h : Hw) (part id : Nat) (k : Kernel) : Hw :=
  let phys := h.partPhys part
  (h.updCaller fun c =>
    { c with primaries := c.primaries ++ [{ id, part, job := k.job, epoch := k.startEpoch, ended := true,
                                            windows := phys.map fun p => (h.sigOf p).final, copy := none,
                                            copyTrapped := none, doneEpoch := h.epoch, phys, copyPhys := [], detm := k.detm }] }).pendingCount

/-- KERNEL_END: every core of the partition has halted; the LAUNCH completes. -/
def Eff.kernelEnd (e : Eff) (part : Nat) : Eff :=
  match e.hw.kernel? part with
  | none => e
  | some k =>
    let phys := e.hw.partPhys part
    if k.phase ≠ 2 || e.hw.classAHeld || phys.any fun p => !((e.hw.body p).run == .idle && (e.hw.body p).loaded) then e
    else
      let h := e.hw
      let idle (h : Hw) : Hw :=
        let h := phys.foldl (fun h p => h.updBody p fun b => { b with ctx := setBit b.ctx 31 false }) h
        h.dropKernel part
      match k.kind with
      | .copy id rot => e.up fun h => idle (h.copyEnded part id rot)
      | kind =>
        let st := h.endStatus part k
        let e := e.up fun h =>
          let h := match h.jobQueue k.job with
            | some q => if (h.ageSlots q).isEmpty then h else h.setAge q (ageMin (h.age q) k.age)
            | none => h
          let h := match kind with
            | .primary id => if st = Status.ok then h.primaryEnded part id k else h
            | _ => h
          idle (h.complete k.job.item (h.launchDone part k st 0))
        e.kernelStatus part st

end Sys2Proof.Machine
end

