-- ==== Sys2Proof/Machine/Records.lean ====
section
/-!
DEFINITION. Doorbells and residency, completion records, plan runs, and what ends an eviction or a destroy
(08_caller_and_queues.md R311 to R313, R341 to R346, R351).
-/
namespace Sys2Proof.Machine

open Sys2Proof

/-! ### Residency (R341, R342) -/

/-- A context takes the lowest free slot, and its saved conditions are evaluated again (R343). One that was reset while it was not resident has its saved work ended and its
packets consumed (13 R529). -/
def Hw.enter (h : Hw) (c : Nat) : Hw :=
  match h.ctx? c, h.freeSlot with
  | some _, some s =>
    let h := ((h.updCtx c fun x => { x with slot := some s, wants := false }).residentCount).endSaved c
    (h.queuesOf c).foldl (fun h q => h.recheck q (.data [])) h
  | _, _ => h

/-- Slots that have become free go to the contexts that want one, the lowest CTXID first. -/
def Hw.admitWaiting (h : Hw) : Hw :=
  match (h.caller.ctxs.find? fun x => (x.2.map fun c => c.wants && c.slot.isNone).getD false) with
  | some x => h.enter x.1
  | none => h

/-! ### Ends of an eviction and of a destroy (R343, R346) -/

/-- The admin operation that runs ends with a result (R308). -/
def Hw.adminEnd (h : Hw) (st : Status) : Hw :=
  (h.setRegBit Reg.adminStatus 31 false).setRegFld Reg.adminStatus 15 0 st

/-- The front ends of an evicted context are in their save areas: the slot is free (R343). -/
def Hw.evictFree (h : Hw) (c : Nat) : Hw :=
  ((h.updCtx c fun x => { x with slot := none, evicting := false, saving := false, blockedAt := none }).residentCount.adminEnd
    Status.ok).admitWaiting.starve

/-- An eviction has every dispatched item completed and its record written, and the carry regions spilled: each front end
goes to its save area, whose 256 bytes the engine alone defines (R310: free values, log entry 5), and then the slot is
free. -/
def Hw.evictDone (h : Hw) (c : Nat) : Hw :=
  let busy := (h.ctxItems c).any fun i => i.state != .waiting
  let carries := (List.range 16).any fun p => (h.keep p).lastCtx == some c && !(h.keep p).carries.isEmpty
  let flying := h.atu.own.any fun j => !j.sys && j.ctx == c
  match h.ctx? c with
  | none => h
  | some x =>
    if !x.evicting || x.saving || busy || carries || flying || !(h.kernelsOf c).isEmpty || h.paused c || h.resetting c then h
    else if (h.queuesOf c).isEmpty then h.evictFree c
    else
      (h.queuesOf c).foldl (fun h q =>
        match h.queue? q with
        | some y =>
          let (bs, h) := h.freshBytes 32
          h.addOwn (ownWrite 3 q c y.part y.saveVa bs 0 (.saveArea c))
        | none => h) (h.updCtx c fun x => { x with saving := true })

/-- A save area has been written; the slot is free after the last (R343). -/
def Hw.saveDone (h : Hw) (c : Nat) : Hw :=
  if h.underWay fun g => match g with
    | .saveArea d => d == c
    | _ => false
  then h else if ((h.ctx? c).map Ctx.saving).getD false then h.evictFree c else h

/-- A destroy has only its final record left to write: that record is due. -/
def Hw.destroyDue (h : Hw) (q : Nat) : Hw :=
  match h.queue? q with
  | none => h
  | some x =>
    match x.destroying with
    | none => h
    | some (tag, n) =>
      if !(h.itemsOf q).isEmpty then h
      else
        let (i, h) := h.newItem q tag 0 0 false false []
        (h.updItem i fun y =>
          { y with state := .done, status := Status.ok, detail := BitVec.ofNat 32 n, time := h.now, final := true,
                   doneSeq := h.caller.nextDone }).updCaller fun c => { c with nextDone := c.nextDone + 1 }

/-- What follows when items have gone. -/
def Hw.afterItems (h : Hw) (q : Nat) : Hw :=
  let c := ((h.queue? q).map Queue.ctx).getD 4096
  ((h.destroyDue q).evictDone c).starve

/-! ### Records (R344, R345) -/

/-- A context that an engine reset destroys goes with its last queue (13 R536). -/
def Hw.leaveCtx (h : Hw) (c : Nat) : Hw :=
  if ((h.ctx? c).map Ctx.leaving).getD false && (h.queuesOf c).isEmpty then (h.setCtx c none).residentCount.admitWaiting else h

/-- RECORD_WRITE: the oldest record of a queue goes to memory through the context's translation, one at a time; a full ring
of a host queue holds it back, that of a plan queue loses its oldest record. -/
def Hw.recordWrite (h : Hw) (q : Nat) : Hw :=
  match h.queue? q, h.oldestDone q with
  | some x, some i =>
    if i.held || h.recordFlies q then h
    else
      let full := decide (2 ^ x.recLog ≤ (x.recTail - x.recHead).toNat)
      if full && x.plan.isNone then h.holdRecords q
      else
        let h := if full then (h.updQueue q fun x => { x with recHead := x.recHead + 1 }).satReg Reg.planRecOverwrite else h
        h.addOwn { ownWrite 5 q x.ctx x.part (x.recVa + 32 * (x.recTail.toNat % 2 ^ x.recLog)) i.record i.tag (.record q) with
          nopause := true }
  | _, _ => h

/-- The record on its way has its response (R344): it is in memory, REC_TAIL advances, and the item is gone; the final
record unregisters the queue (R346). DESIGN CHOICE (log 101): a write that memory answered DATA_ERR may not have been
performed, so the record is held back and tried again. -/
def Hw.recordDone (h : Hw) (q : Nat) (err : Bool) : Hw :=
  match h.queue? q, h.oldestDone q with
  | some x, some i =>
    if err then h.holdRecords q
    else
      let h := h.updQueue q fun x => { x with recTail := x.recTail + 1 }
      let h := h.updCtx x.ctx fun c => { c with recFaultSaid := false }
      let h := h.dropItem i.id
      let h := if i.irq && x.irq.testBit 6 then h.irq (x.irq % 64) else h
      if i.final then
        let h := ((h.setQueue q none).setAge q ageNone).leaveCtx x.ctx
        (if i.status = Status.ok then h.adminEnd Status.ok else h).starve
      else h.afterItems q
  | _, _ => h

/-- WAIT_POLL for a queue (R324, R345). -/
def Hw.poll (h : Hw) (q : Nat) (fence : MemAnswer) : Hw := (h.waitPoll q fence).afterItems q

/-! ### Doorbells (R311 to R313) -/

/-- DB_TAIL_WRITE: an accepted write evaluates the front end's condition again (R324), or asks for a slot (R341). -/
def Hw.tailWrite (h : Hw) (q : Nat) (t : Word) : Hw :=
  match h.queue? q with
  | none => h
  | some x =>
    if x.plan.isSome || x.destroying.isSome || 2 ^ x.ringLog < (t - x.head).toNat || 2 ^ 31 ≤ (t - x.tail).toNat then
      h.updQueue q fun x => { x with tailErr := true }
    else
      let h := h.updQueue q fun x => { x with tail := t }
      if h.resident x.ctx then (h.recheck q (.data [])).starve
      else ((h.updCtx x.ctx fun c => { c with wants := true }).enter x.ctx).starve

/-- DB_REC_HEAD_WRITE by a privilege class; a plan queue's takes the driver class and above (R351). -/
def Hw.recHeadWrite (h : Hw) (q : Nat) (v : Word) (cls : Nat) : Hw :=
  match h.queue? q with
  | none => h
  | some x =>
    if x.plan.isSome && cls == 0 then h
    else if 2 ^ x.recLog < (x.recTail - v).toNat || 2 ^ 31 ≤ (v - x.recHead).toNat then
      h.updQueue q fun x => { x with recHeadErr := true }
    else (h.updQueue q fun x => { x with recHead := v }).retryRecords q

/-- DB_STATE.STATE: every queue of a paused context reads 4 (09 R370), and every one of a context at its limit of items 3
(R334). -/
def Hw.queueState (h : Hw) (q : Nat) : Nat :=
  match h.queue? q with
  | none => 0
  | some x =>
    if h.paused x.ctx then 4
    else if x.plan.isSome then 7
    else if x.destroying.isSome then 5
    else if !h.resident x.ctx then 6
    else if 16 ≤ h.outstanding x.ctx then 3
    else if x.hold.isSome then 2
    else 1

/-- The registers of a doorbell page as they read (Table "Doorbell registers"). -/
def Hw.doorbell (h : Hw) (q o : Nat) : Word :=
  match h.queue? q with
  | none => 0
  | some x =>
    if o = 0 then x.tail
    else if o = 4 then x.head
    else if o = 8 then x.recHead
    else if o = 0xC then x.recTail
    else if o = 0x10 then
      BitVec.ofNat 32 (min 16 (h.heldOf q) * 2 ^ 16 + x.recHeadErr.toNat * 2 ^ 9 + x.tailErr.toNat * 2 ^ 8 + h.queueState q)
    else 0

/-! ### Plan runs (R351) -/

/-- A partition is held on an engine that does not lead (11 R468). -/
def Hw.partHeldBack (h : Hw) (p : Nat) : Bool :=
  h.partnered && h.role != 1 && h.role != 3 && h.regBit Reg.ptnHold p

/-- PLAN_RUN: the answer of a plan queue to a boundary of its generator. -/
def Hw.planRun (h : Hw) (q : Nat) : Hw :=
  if !h.caller.planDue.contains q || h.classAHeld then h
  else
    let h := h.updCaller fun c => { c with planDue := c.planDue.erase q }
    match h.queue? q with
    | none => h
    | some x =>
      match x.plan with
      | none => h
      | some (va, packets, _) =>
        if (h.keep x.part).retired || h.partHeldBack x.part then h
        else if x.frames.isEmpty && (h.itemsOf q).all fun i => i.state == .done then
          (h.updQueue q fun x => { x with frames := [{ buf := some (va, packets), pos := 0, skip := 0, item := none }] }).unwind q 8
        else
          let (i, h) := h.newItem q 0 0 0 false true []
          ((h.complete i { status := Status.skipped }).satReg Reg.planOverrun).irqOf Reg.callerIrq 6 0

end Sys2Proof.Machine
end

