-- ==== Sys2Proof/Machine/Admin.lean ====
section
/-!
DEFINITION. Admin operations (08_caller_and_queues.md R308 to R310, R343, R346; 00_scope.md R15;
09_translation_dma_memory_ports.md R356, R366, R385).
-/
namespace Sys2Proof.Machine

open Sys2Proof

/-- A write of an operation to ADMIN_OP: ignored while another one runs (R308). One whose register write has come before its
descriptor goes on with that. -/
def Hw.admin (h : Hw) (op : Nat) (f : Hw → Hw) : Hw :=
  if h.caller.adminDue == some op then f (h.updCaller fun c => { c with adminDue := none })
  else if h.regBit Reg.adminStatus 31 then h.setRegBit Reg.adminStatus 30 true
  else f (h.setRegBit Reg.adminStatus 31 true)

/-- ADMIN_ARG0. -/
def Hw.arg0 (h : Hw) : Nat := h.reg64 Reg.adminArg0

/-- The descriptor at ADMIN_ARG0, unless its address is out of range, the firewall denies the read, or memory does not
return it whole (09 R385). -/
def Hw.adminRead (h : Hw) (desc : MemAnswer) : Option (List Byte) :=
  match desc with
  | .data bs => if bs.length = 64 && decide (h.arg0 < 2 ^ 48) && h.admitted h.arg0 0 true false then some bs else none
  | _ => none

/-- The read of the descriptor goes out as a system request, where its address admits one (09 R354, R385). -/
def Hw.adminFetch (h : Hw) : Hw :=
  if h.arg0 < 2 ^ 48 ∧ h.admitted h.arg0 0 true false then h.sysNow h.arg0 64 false [] else h

/-- The engine has booted and an ABI negotiation has succeeded (R309, 01 R60). -/
def Hw.adminReady (h : Hw) : Bool := h.regBit Reg.engStatus0 13 && h.regFld Reg.abiAck 15 8 != 0

/-- End with the validity code that applies first, else with a conflict, else take effect. -/
def Hw.adminTry (h : Hw) (codes : List (Bool × Status)) (conflict : Bool) (f : Hw → Hw) : Hw :=
  match codes.find? fun c => c.1 with
  | some c => h.adminEnd c.2
  | none => if conflict || !h.adminReady then h.adminEnd Status.conflict else f h

/-! ### Contexts -/

/-- A context as its descriptor gives it. -/
def ctxOf (d : List Byte) (gen : Nat) : Ctx :=
  { gen, root := leField d 8 8 / 4096 * 4096, cellarBase := leField d 16 8, cellarStride := leField d 24 4, plan := false, slot := none,
    leaving := false, pause := [], recFaultSaid := false, resetMark := false, evicting := false, blockedAt := none, idleEpochs := 0,
    completed := false, wants := false }

/-- The checks of a Context Descriptor (Table "Context Descriptor", 09 R356). -/
def ctxDescBad (d : List Byte) : Bool :=
  decide (2 ^ 12 ≤ leField d 0 2) || !zeroAt d 2 6 || leField d 8 8 % 4096 != 1 || decide (2 ^ 48 ≤ leField d 8 8) ||
  !vaOk d 16 256 || leField d 24 4 % 256 != 0 || !zeroAt d 28 36

/-- CTX_CREATE. The spec gives a new context's generation no value: a free one (log entry 5). -/
def Hw.ctxCreate (h : Hw) (desc : MemAnswer) : Hw :=
  h.admin 1 fun h =>
    let h := h.adminFetch
    let d := (h.adminRead desc).getD []
    let c := leField d 0 2
    h.adminTry [((h.adminRead desc).isNone || ctxDescBad d, Status.invalidPacket)] (h.ctx? c).isSome fun h =>
      let (v, h) := h.fresh
      (h.setCtx c (some (ctxOf d (v.toNat % 16)))).adminEnd Status.ok

/-- CTX_DESTROY: the context's slot is free, what partitions keep of it is no other context's, and its entries leave the translation buffers (09 R366). -/
def Hw.ctxDestroy (h : Hw) : Hw :=
  h.admin 2 fun h =>
    let c := h.arg0 % 4096
    let conflict := ((h.ctx? c).map Ctx.plan).getD true || !(h.queuesOf c).isEmpty
    h.adminTry [(decide (4096 ≤ h.arg0), Status.invalidPacket)] conflict fun h =>
      let h := h.updAtu fun a =>
        { a with ports := a.ports.map fun x => (x.1, { x.2 with tb := x.2.tb.filter fun t => t.ctx != c,
                                                                walkCache := x.2.walkCache.filter fun t => t.ctx != c }) }
      let h := h.updCaller fun k => { k with cellar := k.cellar.filter fun i => i.ctx != c }
      let h := (List.range 16).foldl (fun h p =>
        let h := h.updCaller fun k => { k with carryCycles := Tbl.put (fun _ => 0) k.carryCycles (p * 4096 + c) 0 }
        if (h.keep p).lastCtx = some c then h.updKeep p fun k => { k with gone := true, carries := [] } else h) h
      ((h.setCtx c none).residentCount.adminEnd Status.ok).admitWaiting

/-! ### Queues -/

/-- A ring's log2 and its alignment: a reserved value, a zero. -/
def ringBad (d : List Byte) (va log unit : Nat) : Bool :=
  let n := leField d log 1
  n != 0 && (decide (n < 4) || decide (16 < n) || !vaOk d va (unit * 2 ^ n))

/-- A queue of an ABI major may be registered under the granted version (00 R15). -/
def Hw.majorOk (h : Hw) (major : Nat) : Bool :=
  let g := h.regFld Reg.abiAck 15 8
  if major = 2 then g == 2 || (g == 3 && decide (h.regFld Reg.abiReq 23 16 ≤ 2)) else g == 3

/-- The checks of a Queue Descriptor, in order of their codes. -/
def Hw.queueDescCodes (h : Hw) (d : List Byte) : List (Bool × Status) :=
  [(decide (2 ^ 10 ≤ leField d 0 2) || decide (2 ^ 12 ≤ leField d 2 2) || decide (16 ≤ leField d 4 1) ||
      decide (8 ≤ leField d 5 1) || !(leField d 6 1 == 2 || leField d 6 1 == 3) || decide (128 ≤ leField d 7 1) ||
      ringBad d 8 16 64 || ringBad d 24 17 32 || decide (2 ^ 48 ≤ leField d 8 8) || decide (2 ^ 48 ≤ leField d 24 8) ||
      !zeroAt d 18 6 || !vaOk d 32 256 || !zeroAt d 40 24, Status.invalidPacket),
   (leField d 16 1 == 0 || leField d 17 1 == 0, Status.invalidZero),
   ((leField d 6 1 == 2 || h.regFld Reg.abiAck 15 8 != 0) && !h.majorOk (leField d 6 1), Status.unsupported)]

/-- A host queue as its descriptor gives it. -/
def queueOf (d : List Byte) : Queue :=
  { ctx := leField d 2 2, part := leField d 4 1, prio := leField d 5 1, major := leField d 6 1, irq := leField d 7 1,
    ringVa := leField d 8 8, ringLog := leField d 16 1, recLog := leField d 17 1, recVa := leField d 24 8,
    saveVa := leField d 32 8, tail := 0, head := 0, recHead := 0, recTail := 0, tailErr := false, recHeadErr := false,
    destroying := none, plan := none, frames := [{ buf := none, pos := 0, skip := 0, item := none }], loops := [],
    hold := none, holdItem := none, heldSince := 0, batch := [], minor := none }

/-- QUEUE_CREATE. -/
def Hw.queueCreate (h : Hw) (desc : MemAnswer) : Hw :=
  h.admin 3 fun h =>
    let h := h.adminFetch
    let d := (h.adminRead desc).getD []
    let part := leField d 4 1
    let conflict := (h.queue? (leField d 0 2)).isSome || ((h.ctx? (leField d 2 2)).map Ctx.plan).getD true ||
      !h.partEn part || h.partPlan part
    h.adminTry (((h.adminRead desc).isNone, Status.invalidPacket) :: h.queueDescCodes d) conflict fun h =>
      (h.setQueue (leField d 0 2) (some (queueOf d))).adminEnd Status.ok

/-- Engine DMA items of a queue that have no channel or are paused are cancelled; fault records of paused ones stand (09
R375, R381). -/
def Hw.cancelDma (h : Hw) (q : Nat) : Hw :=
  let mine := h.atu.engineDma.filter fun d => d.queue == q && (d.channel.isNone || d.paused)
  mine.foldl (fun h d =>
    let ours (w : Option Requester) : Bool :=
      match w with
      | some (.engineDma i _) => i == d.item
      | _ => false
    let ctx := ((h.queue? q).map Queue.ctx).getD 0
    let fix (f : FaultRec) : FaultRec := if ours f.who then { f with bytesDone := d.done, who := none } else f
    let h := h.updAtu fun a => { a with faults := a.faults.map fix }
    (h.updCtx ctx fun c =>
      let left := c.pause.filter fun f => !ours f.who
      { c with pause := left, pauseFirst := if left.isEmpty then none else c.pauseFirst.map fix }).engineEnd d Status.cancelled) h

/-- Gather jobs of the kernels of a queue are cancelled (06 R269, R346). -/
def Hw.cancelJobs (h : Hw) (q : Nat) : Hw :=
  (List.range 16).foldl (fun h p =>
    match h.kernel? p with
    | none => h
    | some k =>
      if h.jobQueue k.job != some q || k.isCopy then h
      else
        let phys := h.partPhys p
        let mine (j : GatherJob) : Bool := phys.contains j.core && j.ctx == k.job.ctx && !j.ended
        let any_ := (List.range 4).any fun g => (h.gatherQ g).any mine
        let h := (List.range 4).foldl (fun h g => h.setGatherQ g ((h.gatherQ g).map fun j =>
          if mine j then { j with ended := true, status := if j.status = 0 then Status.cancelled else j.status } else j)) h
        if any_ then h.updKernel p fun k => { k with jobsCancelled := true } else h) h

/-- The kernels of a queue that have been chosen and have not started are given up (R346). -/
def Hw.dropChosen (h : Hw) (q : Nat) : Hw :=
  (List.range 16).foldl (fun h p =>
    match h.kernel? p with
    | none => h
    | some k =>
      if k.phase = 2 || k.isCopy || h.jobQueue k.job != some q then h
      else
        let h := (h.complete k.job.item { status := Status.cancelled }).updKeep p fun x =>
          { x with restoreDue := x.restoreDue || k.restoreDue }
        (((h.readsEnd 4 p).readsEnd 7 p).setKernel p none).partState p) h

/-- QUEUE_DESTROY: the queue's unstarted work is cancelled; the final record follows the last item (R346). -/
def Hw.queueDestroy (h : Hw) : Hw :=
  h.admin 4 fun h =>
    let q := h.arg0 % 1024
    let conflict := ((h.queue? q).map fun x => x.plan.isSome || x.destroying.isSome).getD true
    h.adminTry [(decide (1024 ≤ h.arg0), Status.invalidPacket)] conflict fun h =>
      let h := h.heldItem q
      let h := h.updQueue q fun x => { x with destroying := some (BitVec.ofNat 64 (h.reg64 Reg.adminArg1), 0) }
      let dead := (h.caller.launches.filter fun j => h.jobQueue j == some q).map LaunchJob.item
      let held := ((h.itemsOf q).filter fun i => i.state == .waiting).map Item.id
      let h := (h.completeAll (held ++ (((h.queue? q).bind Queue.holdItem).toList ++ dead)) { status := Status.cancelled }).dropChosen q
      let h := h.updCaller fun c => { c with launches := c.launches.filter fun j => !dead.contains j.item }
      let h := h.updQueue q fun x => { x with frames := [], loops := [], hold := none, holdItem := none, batch := [] }
      ((h.cancelDma q).cancelJobs q).afterItems q

/-- CTX_EVICT: the front ends stop at their next command boundary; what is dispatched runs to its end (R343). -/
def Hw.ctxEvict (h : Hw) : Hw :=
  h.admin 5 fun h =>
    let c := h.arg0 % 4096
    let conflict := ((h.ctx? c).map fun x => x.plan || x.slot.isNone).getD true
    h.adminTry [(decide (4096 ≤ h.arg0), Status.invalidPacket)] conflict fun h =>
      (h.updCtx c fun x => { x with evicting := true }).evictDone c

/-- A write of ADMIN_OP at the register port (R308, R309): an operation that reads a descriptor awaits it with the command
of its own (log entry 14). -/
def Hw.adminOpWrite (h : Hw) (op : Nat) : Hw :=
  match op with
  | 2 => h.ctxDestroy
  | 4 => h.queueDestroy
  | 5 => h.ctxEvict
  | _ =>
    if h.regBit Reg.adminStatus 31 then h.setRegBit Reg.adminStatus 30 true
    else if op = 1 ∨ op = 3 then (h.setRegBit Reg.adminStatus 31 true).updCaller fun c => { c with adminDue := some op }
    else h.adminEnd Status.invalidPacket

end Sys2Proof.Machine
end

