-- ==== Sys2Proof/Machine/Dealer.lean ====
section
/-!
DEFINITION. The Dealer (10_dealer_time_base.md R401 to R431). Times are counted in units of 2^-32 ns.
-/
namespace Sys2Proof.Machine

open Sys2Proof

/-! ### Time (R401 to R408) -/

/-- One ns and one second. -/
def unitNs : Nat := 2 ^ 32
def unitSec : Nat := 10 ^ 9 * 2 ^ 32

/-- Seconds wrap at 2^48, elapsed ns at 2^64. -/
def timeWrap : Nat := 2 ^ 48 * unitSec
def elapsedWrap : Nat := 2 ^ 64 * unitNs

/-- What the pending adjustments make of the time in one tick: the time, and by how much it moves beyond the increment. A
step to before SEC 0, NS 0 is refused. -/
def Dealer.adjusted (d : Dealer) : Nat × Int :=
  let plain := (d.time + d.incr) % timeWrap
  match d.adjust with
  | .step x :: _ => if (plain : Int) + x * unitNs < 0 then (plain, 0) else ((((plain : Int) + x * unitNs).toNat) % timeWrap, x * unitNs)
  | .load sec ns :: _ => ((sec * unitSec + ns * unitNs) % timeWrap, ((sec * unitSec + ns * unitNs : Nat) : Int) - plain)
  | [] => (plain, 0)

/-- The time part of a tick: the tick adds the old increment, at most one ordered adjustment applies, and an INCR write
applies behind it (R405, R408). -/
def Dealer.advance (d : Dealer) : Dealer :=
  { d with
    time := d.adjusted.1
    elapsed := (d.elapsed + d.incr) % elapsedWrap
    adjust := d.adjust.drop 1
    incr := d.incrNext.getD d.incr
    incrNext := none }

/-- `n` ticks of time. -/
def Dealer.ahead : Nat → Dealer → Dealer
  | 0, d => d
  | n + 1, d => Dealer.ahead n d.advance

/-- Derived time (R402). -/
def Dealer.ns (d : Dealer) : Nat := d.time / unitNs % 2 ^ 64

/-! ### The Ledger (R426 to R428) -/

/-! The entry kinds. -/
namespace Ledger
def restart : Nat := 1
def unsealed : Nat := 2
def sealing : Nat := 3
def calWrite : Nat := 4
def refused : Nat := 5
def timeStep : Nat := 6
def timeLoad : Nat := 7
def abandoned : Nat := 8
def source : Nat := 9
def gap : Nat := 10
end Ledger

/-- The flags that stamps and entries share: UNSEALED, UNSET, CAL_DEFAULT. -/
def Hw.dealerFlags (h : Hw) : Nat :=
  (!h.regBit Reg.dlrStatus 0).toNat + 2 * (h.regBit Reg.dlrStatus 1).toNat + 4 * (h.regBit Reg.dlrStatus 2).toNat

/-- The 28 bytes of an entry under its CRC. -/
def Hw.ledgerBody (h : Hw) (kind arg0 arg1 : Nat) : List Byte :=
  leBytes 4 h.dealer.ledgerSeq.toNat ++ leBytes 1 kind ++ leBytes 1 h.dealerFlags ++ leBytes 2 h.dealer.startCount.toNat ++
    leBytes 8 h.dealer.ns ++ leBytes 4 arg0 ++ leBytes 4 arg1 ++ leBytes 4 h.dealer.sealCount.toNat

/-- Append an entry: its CRC chains to the entry before. The first entry of a sector that holds old entries erases them,
which is a STORE cycle of the sector. -/
def Hw.ledger (h : Hw) (kind arg0 arg1 : Nat) : Hw :=
  let d := h.dealer
  let body := h.ledgerBody kind arg0 arg1
  let crc := crc32 (body ++ leBytes 4 d.ledgerCrc.toNat)
  let seq := d.ledgerSeq.toNat
  let erase := seq % 128 == 0 && decide (1664 < d.ledger.length)
  let old := if seq % 128 = 0 then d.ledger.take 1664 else d.ledger
  let held := (body ++ leBytes 4 crc.toNat) :: old
  let h := h.updDealer fun d =>
    { d with ledger := held, ledgerSeq := d.ledgerSeq + 1, ledgerCrc := crc,
             ledgerBad := if seq % 128 = 0 then d.ledgerBad.filter (fun s => (BitVec.ofNat 32 seq - s).toNat ≤ 1664) else d.ledgerBad }
  let h := if erase then h.wear (242 + seq / 128 % 14) else h
  let h := h.updCoffer fun c => { c with errs := Tbl.clear c.errs (30976 + seq % 1792) (30977 + seq % 1792) }
  (h.setReg Reg.ledgerNewest (BitVec.ofNat 32 seq)).setReg Reg.ledgerOldest
    (BitVec.ofNat 32 (((held.getLast?).map fun e => leField e 0 4).getD seq))

/-- The entry of a SEQ. -/
def Dealer.entry (d : Dealer) (seq : Word) : Option (List Byte) := d.ledger.find? fun e => leField e 0 4 == seq.toNat

/-- A read of LEDGER_DATA0 reads the entry that LEDGER_IDX names and captures the window. -/
def Hw.ledgerDataRead (h : Hw) : Hw :=
  let seq := h.reg Reg.ledgerIdx
  let e := h.dealer.entry seq
  let bad := h.dealer.ledgerBad.contains seq
  let bs := if bad then [] else e.getD []
  let h := (List.range 8).foldl (fun h k => h.setReg (Reg.ledgerData k) (BitVec.ofNat 32 (leField bs (4 * k) 4))) h
  h.setReg Reg.ledgerRdStatus (BitVec.ofNat 32 (e.isSome.toNat + 2 * (e.isSome && bad).toNat))

/-! ### Calibration (R420 to R424) -/

/-- CAL_CRC (R423). -/
def Hw.calCrc (h : Hw) : Word :=
  crc32 ((List.range 32).map fun k => leBytes 4 (h.reg (Reg.calIncrNom + 4 * k)).toNat).flatten

/-- The 36-bit value of an INCR pair. -/
def Hw.incrOf (h : Hw) (o : Nat) : Nat := h.reg64 o % 2 ^ 36

/-- The calibration as a sector holds it. -/
def Hw.calTable (h : Hw) : Tbl Word := (List.range 32).map fun k => (Reg.calIncrNom + 4 * k, h.reg (Reg.calIncrNom + 4 * k))

/-- The mask of a calibration register by its offset in the Dealer's block. -/
def calMask (o : Nat) : Nat :=
  if o = 0x100 || o = 0x108 || o = 0x110 then 2 ^ 32 - 1
  else if o = 0x104 || o = 0x10C || o = 0x114 then 15
  else if o = 0x118 then 2 ^ 31 - 1
  else if o = 0x124 then 15
  else if 0x12C ≤ o && o < 0x140 then 0
  else 2 ^ 16 - 1

/-- An RWK write takes effect: its field, with 0 as 1 for CAL_UNSEAL_LIMIT. -/
def calValue (o : Nat) (v : Word) : Word :=
  let m := BitVec.ofNat 32 (v.toNat % (calMask o + 1))
  if o = 0x128 && m == 0 then 1 else m

/-- The refused writes of a second are due for their entry: a later second has begun. -/
def Dealer.refusedDue (d : Dealer) : Bool :=
  match d.refused with
  | some (s, _, _) => decide (s < d.elapsed / unitSec)
  | none => false

/-- REFUSED_SUMMARY (R420). -/
def Hw.refusedSummary (h : Hw) : Hw :=
  if !h.dealer.refusedDue then h
  else match h.dealer.refused with
    | some (_, n, o) => (h.updDealer fun d => { d with refused := none }).ledger Ledger.refused o n
    | none => h

/-- CAL_WRITE: a sealed-class write of an RWK register. Refused while the Dealer is sealed, where the entry of an
earlier second goes first (R420); a _LO word of an INCR pair is staged (R20). -/
def Hw.calWrite (h : Hw) (o : Nat) (v : Word) : Hw :=
  if o < 0x100 || 0x180 ≤ o || o % 4 ≠ 0 || calMask o == 0 then h
  else if h.regBit Reg.dlrStatus 0 then
    let sec := h.elapsed / 10 ^ 9
    h.refusedSummary.updDealer fun d =>
      { d with refused := match d.refused with
          | some (s, n, _) => some (s, n + 1, o)
          | none => some (sec, 1, o) }
  else if o = 0x100 || o = 0x108 || o = 0x110 then { h with staged := Tbl.put (fun _ => 0) h.staged (0x50000 + o) v }
  else
    let lo := if o = 0x104 || o = 0x10C || o = 0x114 then [(o - 4, Tbl.get (fun _ => 0) h.staged (0x50000 + o - 4))] else []
    h.updDealer fun d => { d with calNext := d.calNext ++ lo ++ [(o, v)] }

/-- The result of a seal operation. -/
def Hw.sealResult (h : Hw) (st : Nat) : Hw := h.setReg Reg.sealResult (BitVec.ofNat 32 st)

/-- The older copy of the seal sector is written, one STORE cycle of its sector; when it verifies, it is the newest. -/
def Hw.storeSeal (h : Hw) (count : Word) (isOpen verify : Bool) : Hw :=
  let d := h.dealer
  let sector := if d.sealB then 240 else 241
  let h := (h.wear sector).updCoffer fun c => { c with errs := Tbl.clear c.errs (128 * sector) (128 * sector + 128) }
  if verify then
    h.updDealer fun d =>
      { d with
        sealOld := if d.sealValid then some ⟨d.startCount, d.sealCount, d.openMark, d.sealCal⟩ else none
        sealB := !d.sealB, sealLost := d.sealLost.filter (· == d.sealB), sealValid := true, sealCount := count
        openMark := isOpen, sealCal := h.calTable }
  else h.updDealer fun d => { d with sealOld := none }

/-- UNSEAL (R421); `permit` is the level of UNSEAL_PERMIT and `verify` whether the stored sector verified. -/
def Hw.unsealOp (h : Hw) (operator : BitVec 16) (reason : BitVec 8) (permit verify : Bool) : Hw :=
  let h := (h.updDealer fun d => { d with permit }).setRegBit Reg.dlrStatus 6 permit
  if !h.regBit Reg.dlrStatus 0 || !permit || h.dealer.sealCount == 0xFFFFFFFF then h.sealResult 0x70
  else if !verify then (h.storeSeal (h.dealer.sealCount + 1) true false).sealResult 0x30
  else
    let n := h.dealer.sealCount + 1
    let h := h.storeSeal n true true
    let h := (h.setReg Reg.dlrSealCount n).ledger Ledger.unsealed (operator.toNat * 2 ^ 16 + reason.toNat) n.toNat
    let limit := h.regFld (Reg.calUnsealLimit) 15 0
    ((h.setRegBit Reg.dlrStatus 0 false).updDealer fun d => { d with unsealAt := some (d.elapsed + limit * unitSec) }).sealResult 0

/-- The steps of a seal (R423); `cause` 0 command, 1 timeout. -/
def Hw.sealNow (h : Hw) (cause : Nat) (verify : Bool) : Hw :=
  let crc := h.calCrc
  let h := h.ledger Ledger.sealing crc.toNat cause
  let h := h.storeSeal h.dealer.sealCount false verify
  if verify then
    ((h.updDealer fun d => { d with unsealAt := none }).setRegBit Reg.dlrStatus 0 true).sealResult 0
  else
    let limit := h.regFld (Reg.calUnsealLimit) 15 0
    (h.updDealer fun d => { d with unsealAt := some (d.elapsed + limit * unitSec) }).sealResult 0x30

/-- SEAL. -/
def Hw.sealOp (h : Hw) (verify : Bool) : Hw :=
  if h.regBit Reg.dlrStatus 0 then h.sealResult 0x70 else h.sealNow 0 verify

/-- The seal timeout is due. -/
def Dealer.sealDue (d : Dealer) : Bool :=
  match d.unsealAt with
  | some t => decide (t ≤ d.elapsed)
  | none => false

/-- SEAL_TIMEOUT. -/
def Hw.sealTimeout (h : Hw) (verify : Bool) : Hw :=
  if h.dealer.sealDue && !h.regBit Reg.dlrStatus 0 then h.sealNow 1 verify else h

/-! ### Stamps (R409 to R412) -/

/-- The 32 bytes of a stamp. -/
def Hw.stampBytes (h : Hw) (kind time : Nat) : List Byte :=
  let body := leBytes 6 (time / unitSec) ++ leBytes 2 (h.dealerFlags + 8 * h.regFld Reg.timeSource 1 0 + 32 * kind) ++
    leBytes 4 (time % unitSec / unitNs) ++ leBytes 4 (time % unitNs) ++ leBytes 4 h.dealer.stampSeq.toNat ++
    leBytes 2 h.dealer.startCount.toNat ++ leBytes 2 0 ++ leBytes 4 h.dealer.sealCount.toNat
  body ++ leBytes 4 (crc32 body).toNat

/-- Issue a stamp into eight registers. -/
def Hw.stampInto (h : Hw) (reg : Nat → Nat) (kind time : Nat) : Hw :=
  let bs := h.stampBytes kind time
  let h := (List.range 8).foldl (fun h k => h.setReg (reg k) (BitVec.ofNat 32 (leField bs (4 * k) 4))) h
  h.updDealer fun d => { d with stampSeq := d.stampSeq + 1 }

/-- STAMP_READ: a read of STAMP0. -/
def Hw.stampRead (h : Hw) : Hw := if h.dealer.running then h.stampInto Reg.stamp 0 h.dealer.time else h

/-- PPS_IN_EDGE (R409). -/
def Hw.ppsIn (h : Hw) : Hw :=
  let d := h.dealer
  if !d.running then h
  else
    let near := match d.ppsLast with
      | some t => decide (d.elapsed < t + 500000000 * unitNs)
      | none => false
    if near then h.satRegFld Reg.dclkMon 15 0 1
    else
      let t := (d.time + timeWrap - h.regFld Reg.calPpsInDelay 15 0 * unitNs) % timeWrap
      (h.stampInto Reg.ppsStamp 1 t).updDealer fun d => { d with ppsLast := some d.elapsed }

/-! ### Software adjustments (R405 to R410) -/

/-- INCR_WRITE: refused outside the sealed bounds. -/
def Hw.incrWrite (h : Hw) (v : BitVec 36) : Hw :=
  if h.incrOf Reg.calIncrMin ≤ v.toNat ∧ v.toNat ≤ h.incrOf Reg.calIncrMax then
    h.updDealer fun d => { d with incrNext := some v.toNat }
  else h.setRegBit Reg.adjStatus 0 true

/-- ADJ_STEP. -/
def Hw.adjStep (h : Hw) (delta : Word) : Hw :=
  if h.regFld Reg.calStepMax 30 0 < delta.toInt.natAbs then h.setRegBit Reg.adjStatus 1 true
  else h.updDealer fun d => { d with adjust := d.adjust ++ [.step delta.toInt] }

/-- TIME_LOAD: LOAD_CTRL.GO. -/
def Hw.timeLoad (h : Hw) : Hw :=
  let ns := h.regFld Reg.loadNs 29 0
  if 999999999 < ns then h.setRegBit Reg.adjStatus 3 true
  else h.updDealer fun d => { d with adjust := d.adjust ++ [.load (h.reg64 Reg.loadSec % 2 ^ 48) ns] }

/-- TIME_SOURCE_WRITE: a change appends a SOURCE entry. -/
def Hw.sourceWrite (h : Hw) (v : BitVec 2) : Hw :=
  let old := h.regFld Reg.timeSource 1 0
  if old = v.toNat then h
  else ((h.setRegFld Reg.timeSource 1 0 v.toNat).setRegFld Reg.dlrStatus 5 4 v.toNat).ledger Ledger.source v.toNat old

/-! ### Epoch Generators (R413 to R416) -/

/-- An RWS register of the Dealer as its generators and outputs use it (R431). -/
def Hw.inForce (h : Hw) (o : Nat) : Word := Tbl.get regReset h.dealer.set o

/-- The settings of a generator by the values of its registers: period, phase, alignment. -/
def genSettingsOf (v : Nat → Word) (g : Nat) : Nat × Nat × Bool :=
  ((v (Reg.egPeriodNs g)).toNat * unitNs + (v (Reg.egPeriodFrac g)).toNat, (v (Reg.egPhaseNs g)).toNat * unitNs, bitOf (v (Reg.egCtrl g)) 1)

/-- The settings of a generator. -/
def Hw.genSettings (h : Hw) (g : Nat) : Nat × Nat × Bool := genSettingsOf h.inForce g

/-- The first grid point at or after a Dealer time: PHASE + k P with k at least 0. -/
def gridFrom (phase period : Nat) (t : Int) : Nat :=
  if t ≤ phase || period = 0 then phase else phase + ceilDiv (t - phase).toNat period * period

/-- The grid point G with P/2 ≤ G - L < 3P/2 (R415). -/
def gridAfter (phase period : Nat) (l : Int) : Nat := gridFrom phase period (l + ceilDiv period 2)

/-- A generator is enabled: its count is cleared and its first boundary scheduled (R414). -/
def Hw.genOn (h : Hw) (g : Nat) : Hw :=
  let (p, ph, al) := h.genSettings g
  let d := h.dealer
  h.updDealer fun x => x.setGen g
    { running := true, period := p, phase := ph, align := al,
      next := if al then gridFrom ph p d.time else d.elapsed + (if p = 0 then 0 else ph % p), last := none, lastElapsed := 0, count := 0 }

/-- A generator is disabled. -/
def Hw.genOff (h : Hw) (g : Nat) : Hw := h.updDealer fun x => x.setGen g { x.gen g with running := false }

/-- A boundary of a generator is due. -/
def Dealer.genDue (d : Dealer) (g : Nat) : Bool :=
  let x := d.gen g
  d.running && x.running && (if x.align then decide (x.next ≤ d.time) else decide (x.next ≤ d.elapsed))

/-- Re-seat an aligned generator when a step or load of `delta` applies (R415). -/
def EpochGen.reseat (x : EpochGen) (delta : Int) (time : Nat) : EpochGen :=
  if !x.running || !x.align then x
  else match x.last with
    | some l => { x with last := some (l + delta), next := gridAfter x.phase x.period (l + delta) }
    | none => { x with next := gridFrom x.phase x.period time }

/-- The ordered adjustment of a tick, if any, applies. -/
def Dealer.adjusts (d : Dealer) : Bool :=
  match d.adjust with
  | .step x :: _ => d.adjusted.2 != 0 || x == 0
  | .load .. :: _ => true
  | [] => false

/-- Every generator is re-seated. -/
def Dealer.reseatAll (d : Dealer) (delta : Int) : Dealer :=
  (List.range 8).foldl (fun d g => d.setGen g ((d.gen g).reseat delta d.time)) d

/-- The times and schedules of the tick to come. -/
def Dealer.peek (d : Dealer) : Dealer := if d.adjusts then d.advance.reseatAll d.adjusted.2 else d.advance

/-- The generator behind a boundary: changed settings take effect here (R416). -/
def EpochGen.passed (x : EpochGen) (settings : Nat × Nat × Bool) (time elapsed : Nat) : EpochGen :=
  let (p, ph, al) := settings
  let same := x.period == p && x.phase == ph && x.align == al
  { x with
    period := p, phase := ph, align := al, count := x.count + 1, last := some time, lastElapsed := elapsed
    next := if al then (if same then x.next + p else gridAfter ph p time) else (if x.align then elapsed else x.next) + p }

/-! ### FSYNC and PPS_OUT (R417, R418) -/

/-- Output `n` drives a pulse for each boundary of generator `g`, so many ns behind it. -/
def Hw.follows (h : Hw) (n g : Nat) : Bool := bitOf (h.inForce (Reg.fsCtrl n)) 4 && fld (h.inForce (Reg.fsCtrl n)) 2 0 == g
def Hw.pulseLead (h : Hw) (n : Nat) : Nat := (h.inForce (Reg.fsPhase n)).toNat - h.regFld (Reg.calFsDelay n) 15 0

/-- Pulses of the outputs of a generator follow its boundary. -/
def Hw.pulsesOf (h : Hw) (g : Nat) : Hw :=
  (List.range 16).foldl (fun h n =>
    if h.follows n g then
      let p : Pulse := ⟨h.dealer.elapsed + h.pulseLead n * unitNs, (h.inForce (Reg.fsWidth n)).toNat * unitNs⟩
      h.updDealer fun d => { d with pulses := Tbl.upd (fun _ => []) d.pulses n fun ps => ps ++ [p] }
    else h) h

def Dealer.pulse (d : Dealer) (n : Nat) : List Pulse := Tbl.get (fun _ => []) d.pulses n
def Dealer.active (d : Dealer) (n : Nat) : Option Nat := Tbl.get (fun _ => none) d.fsync n

/-- A leading edge of output n is due. -/
def Dealer.pulseDue (d : Dealer) (n : Nat) : Bool :=
  match d.pulse n with
  | p :: _ => decide (p.edge ≤ d.elapsed)
  | [] => false

/-- FSYNC_PULSE: the leading edge. -/
def Hw.fsyncPulse (h : Hw) (n : Nat) : Hw :=
  match h.dealer.pulse n with
  | p :: ps =>
    if p.edge ≤ h.dealer.elapsed then
      (h.updDealer fun d =>
        { d with pulses := Tbl.put (fun _ => []) d.pulses n ps, fsync := Tbl.put (fun _ => none) d.fsync n (some (d.elapsed + p.width)) }).setReg
        (Reg.fsCount n) (h.reg (Reg.fsCount n) + 1)
    else h
  | [] => h

/-- The next tick has a leading edge of output `n`: of a pulse that waits, or of a boundary of that tick. -/
def Hw.edgeNext (h : Hw) (n : Nat) : Bool :=
  (match h.dealer.pulse n with
  | p :: _ => decide (p.edge ≤ h.dealer.elapsed + h.dealer.incr)
  | [] => false) || (h.pulseLead n == 0 && (List.range 8).any fun g => h.follows n g && h.dealer.peek.genDue g)

/-- An active output returns to idle when its width has passed, or one tick before its next edge. -/
def Hw.settleFsync (h : Hw) (n : Nat) : Hw :=
  match h.dealer.active n with
  | none => h
  | some e =>
    if e ≤ h.dealer.elapsed || h.edgeNext n then h.updDealer fun d => { d with fsync := Tbl.put (fun _ => none) d.fsync n none } else h

/-- Whole seconds that the output has reached, its delay included. -/
def ppsSeconds (delay time : Nat) : Nat := (time + delay * unitNs) / unitSec

/-- PPS_OUT_EDGE: the rising edge. -/
def Hw.ppsEdge (h : Hw) : Hw :=
  if !h.dealer.ppsDue then h
  else h.updDealer fun d =>
    { d with ppsDue := false, ppsOut := some (d.elapsed + fld (h.inForce Reg.ppsOutCtrl) 23 0 * 1000 * unitNs) }

/-! ### The tick -/

/-- Something of the present tick has not been answered: boundaries, edges, summaries, a seal timeout. -/
def Hw.tickWaits (h : Hw) : Bool :=
  let d := h.dealer
  ((List.range 8).any d.genDue) || ((List.range 16).any d.pulseDue) || d.ppsDue || d.refusedDue ||
    (d.sealDue && !h.regBit Reg.dlrStatus 0) || (h.captured.map Captured.due).getD false

/-- A step or load of the Dealer ends the entry at work; the list restarts on its grid, and a list that waits starts no
earlier than a cycle start of its own at or after the new time (R445, R447). -/
def Hw.gclStepped (h : Hw) : Hw :=
  (List.range 2).foldl (fun h n =>
    let h := h.updLink n fun l => { l with
      gclNext := l.gclNext.map fun g =>
        let at_ := max g.cycleAt (gridFrom g.base g.cycle h.dealer.time)
        { g with cycleAt := at_, endsAt := at_ } }
    match (h.link n).gcl with
    | none => h
    | some g =>
      let at_ := gridFrom g.base g.cycle h.dealer.time
      let (v, h) := h.fresh
      h.updLink n fun l => { l with gcl := some { g with gap := some (v.setWidth 8), cycleAt := at_, endsAt := at_ } }) h

/-- The ordered adjustment that a tick applied is recorded, and aligned generators are re-seated. -/
def Hw.recordAdjust (h : Hw) (old : Dealer) : Hw :=
  let (_, delta) := old.adjusted
  let reseat (h : Hw) : Hw := (h.updDealer fun d => d.reseatAll delta).gclStepped
  match old.adjust with
  | .step x :: _ =>
    if !old.adjusts then h.setRegBit Reg.adjStatus 1 true
    else (reseat h).ledger Ledger.timeStep (x % 2 ^ 32).toNat (if x < 0 then 0xFFFFFFFF else 0)
  | .load .. :: _ =>
    ((reseat h).setRegBit Reg.dlrStatus 1 false).ledger Ledger.timeLoad (old.ns % 2 ^ 32) (old.ns / 2 ^ 32)
  | [] => h

/-- RWK writes take effect and are recorded (R422). -/
def Hw.applyCal (h : Hw) (w : Nat × Word) : Hw :=
  let v := calValue w.1 w.2
  (h.setReg (0x50000 + w.1) v).ledger Ledger.calWrite w.1 v.toNat

/-- The time bus (R419). -/
def Hw.driveBus (h : Hw) : Hw :=
  let led := Dealer.ahead (h.regFld Reg.calTbLead 3 0) h.dealer
  h.updDealer fun d =>
    { d with dtbTime := BitVec.ofNat 64 led.ns, dtbFrac := BitVec.ofNat 8 (led.time % unitNs / 2 ^ 24), dtbEpoch := 0,
             dtbFlags := BitVec.ofNat 4 (h.dealerFlags % 4 + 4 * h.regFld Reg.timeSource 1 0) }

/-- DEALER_TICK. -/
def Hw.dealerTick (h : Hw) : Hw :=
  if !h.dealer.running || h.tickWaits then h
  else
    let old := h.dealer
    let delay := h.regFld Reg.calPpsOutDelay 15 0
    let h := h.updDealer fun d => { d.advance with calNext := [] }
    let h := h.recordAdjust old
    let h := old.calNext.foldl Hw.applyCal h
    let h := (List.range 16).foldl Hw.settleFsync h
    let rises := bitOf (h.inForce Reg.ppsOutCtrl) 31 && decide (ppsSeconds delay old.time < ppsSeconds delay h.dealer.time)
    let soon := decide (ppsSeconds delay h.dealer.time < ppsSeconds delay h.dealer.advance.time)
    let h := h.updDealer fun d =>
      { d with
        ppsDue := rises
        ppsOut := match d.ppsOut with
          | some e => if e ≤ d.elapsed || soon then none else some e
          | none => none }
    h.driveBus

/-! ### Start and reset (R404, R424, R427, R431) -/

/-- Put every register of a block of offsets at its reset value. -/
def Hw.resetBlock (h : Hw) (lo hi : Nat) : Hw :=
  { h with
    regs := h.regs.filter fun x => !(decide (lo ≤ x.1) && decide (x.1 < hi))
    shadow := h.shadow.filter fun x => !(decide (lo ≤ x.1) && decide (x.1 < hi))
    snaps := h.snaps.filter fun x => !(decide (lo ≤ x.1) && decide (x.1 < hi))
    staged := h.staged.filter fun x => !(decide (lo ≤ x.1) && decide (x.1 < hi)) }

/-- The Dealer stops: what no reset keeps is gone; the seal sector and the Ledger stay. -/
def Hw.dealerStop (h : Hw) : Hw :=
  let d := h.dealer
  (h.resetBlock 0x50000 0x60000).updDealer fun _ =>
    { Dealer.reset with
      startCount := d.startCount, sealCount := d.sealCount, openMark := d.openMark, sealValid := d.sealValid,
      sealCal := d.sealCal, sealB := d.sealB, sealOld := d.sealOld, sealLost := d.sealLost, ledger := d.ledger, ledgerBad := d.ledgerBad, ledgerSeq := d.ledgerSeq, ledgerCrc := d.ledgerCrc }

/-- Lost Ledger slots as runs of SEQs. -/
def lostRuns : List Nat → List (Nat × Nat)
  | [] => []
  | s :: ss =>
    match lostRuns ss with
    | (a, b) :: rs => if s + 1 = a then (s, b) :: rs else (s, s) :: (a, b) :: rs
    | [] => [(s, s)]

/-- Slots that the scan at start finds uncorrectable are lost, in order of SEQ. -/
def Dealer.lost (d : Dealer) : List Nat :=
  ((d.ledger.reverse.map fun e => leField e 0 4).filter fun s => d.ledgerBad.contains (BitVec.ofNat 32 s))

/-- The seal sectors are read: the newest copy, else the older one. The counts are open when neither reads (log entry 5). -/
def Hw.readSeal (h : Hw) : Hw :=
  let d := h.dealer
  if !d.sealLost.contains d.sealB then h
  else match d.sealOld, d.sealLost.contains (!d.sealB) with
    | some o, false => h.updDealer fun d =>
        { d with
          startCount := o.starts, sealCount := o.count, openMark := o.isOpen, sealCal := o.cal, sealB := !d.sealB, sealOld := none }
    | _, _ =>
      let (v, h) := h.fresh
      h.updDealer fun d =>
        { d with
          sealValid := false, sealOld := none, sealLost := [], openMark := false, startCount := v.truncate 32
          sealCount := (v >>> 32).truncate 32 }

/-- DEALER_START. -/
def Hw.dealerStart (h : Hw) : Hw :=
  if h.dealer.running then h
  else
    let h := h.readSeal
    let newest := h.dealer.ledgerSeq - 1
    let runs := lostRuns h.dealer.lost
    let h := if h.dealer.sealValid then
        h.dealer.sealCal.foldl (fun h x => h.setReg x.1 x.2) h
      else h.setRegBit Reg.dlrStatus 2 true
    let h := h.updDealer fun d =>
      { d with
        startCount := d.startCount + 1, ledgerBad := []
        ledger := d.ledger.filter fun e => !d.ledgerBad.contains (BitVec.ofNat 32 (leField e 0 4)) }
    let h := (h.setRegFld Reg.dlrStatus 31 16 (h.dealer.startCount.toNat % 2 ^ 16)).setReg Reg.dlrSealCount h.dealer.sealCount
    let h := runs.foldl (fun h r => (h.ledger Ledger.gap r.1 r.2).setRegBit Reg.dlrStatus 3 true) h
    let h := if h.dealer.openMark then h.ledger Ledger.abandoned h.dealer.sealCount.toNat newest.toNat else h
    let h := h.ledger Ledger.restart h.dealer.startCount.toNat h.calCrc.toNat
    let incr := h.incrOf Reg.calIncrNom
    let (p, ph, al) := h.genSettings 0
    h.updDealer fun d =>
      { d with running := true, incr }.setGen 0
        { running := true, period := p, phase := ph, align := al, next := incr + (if p = 0 then 0 else ph % p), last := none,
          lastElapsed := 0, count := 0 }

/-- DCLK_MONITOR: each 1 ms of FCLK; `bad` is a deviation beyond 1,000 ppm or a missing DCLK (R430). -/
def Hw.dclkMonitor (h : Hw) (bad : Bool) : Hw := if bad then h.setRegBit Reg.dclkMon 31 true else h

end Sys2Proof.Machine
end

