-- ==== Sys2Proof/Machine/Htp.lean ====
section
/-!
DEFINITION. The Hatch Transfer Protocol: frames, sequence numbers, sessions, Hatch writes and notices to and from the
Partner (11_links_and_partnership.md R453 to R463).
-/
namespace Sys2Proof.Machine

open Sys2Proof

/-! ### Out of a port (R442, R454) -/

/-- The rank of a frame within its class (R442). -/
def TxSource.rank : TxSource → Nat
  | .as_ _ => 0
  | .htp => 1
  | .host .. => 2

/-- A frame is ready in a class. -/
def Hw.enqueue (h : Hw) (port cls : Nat) (f : TxFrame) : Hw :=
  h.updLink port fun l =>
    { l with queues := Tbl.upd (fun _ => []) l.queues cls fun q =>
        q.filter (fun x => decide (x.src.rank ≤ f.src.rank)) ++ f :: q.filter (fun x => decide (f.src.rank < x.src.rank)) }

/-- The path of a new session: the lowest-numbered valid peer entry whose port is up (R453). -/
def Hw.peerPath (h : Hw) : Option Nat :=
  (List.range 4).find? fun k => h.regBit (Reg.peerCtrl k) 0 && h.regBit (Reg.lnkStatus (h.regBit (Reg.peerCtrl k) 1).toNat) 0

/-- The local port of a peer entry. -/
def Hw.peerPort (h : Hw) (k : Nat) : Nat := (h.regBit (Reg.peerCtrl k) 1).toNat

/-- The frame of Table "HTP frame", without its FCS. -/
def Hw.htpBytes (h : Hw) (k session : Nat) (f : HtpFrame) : List Byte :=
  let c := Reg.peerCtrl k
  let tag := if h.regBit c 2 then
      beBytes 2 0x8100 ++ beBytes 2 (h.regFld c 31 29 * 8192 + h.regFld c 27 16) else []
  let body := leBytes 1 (f.typ + 16) ++ leBytes 1 session ++ leBytes 2 (h.regFld Reg.ptnCfg 15 0) ++ leBytes 4 f.seq ++
    leBytes 4 h.partner.rxSeq ++ leBytes 2 f.payload.length ++ leBytes 1 f.count ++ [0] ++ f.args ++ f.payload
  leBytes 6 (h.reg64 (Reg.peerMac k)) ++ leBytes 6 (h.reg64 (Reg.lnkMac (h.peerPort k))) ++ tag ++
    beBytes 2 (h.regFld Reg.htpCfg 15 0) ++ body ++ leBytes 4 (crc32 body).toNat

/-- SESSION of PTN_STATUS: the current or last session. -/
def Hw.sessionNo (h : Hw) : Nat := h.regFld Reg.ptnStatus 15 8

/-- Send a frame on the session's path. -/
def Hw.htpEmit (h : Hw) (f : HtpFrame) : Hw :=
  match h.partner.path with
  | none => h
  | some k =>
    (h.enqueue (h.peerPort k) (h.regFld Reg.htpCfg 26 24) ⟨.htp, h.htpBytes k h.sessionNo f⟩).satReg (Reg.ptnCnt 0)

/-- An unsequenced frame. -/
def htpBare (typ : Nat) : HtpFrame := ⟨typ, 0, 0, List.replicate 16 0, [], []⟩

/-- A waiting frame takes its sequence number and leaves; its ACK field carries the acknowledgement that is due (R457,
R458). MIRROR_COMMIT marks that the epoch's data has been read (R476). -/
def Hw.htpFirst (h : Hw) (f : HtpFrame) : Hw :=
  let f := { f with seq := h.partner.txSeq }
  let now := h.elapsed
  let h := h.updPartner fun p =>
    { p with
      waiting := p.waiting.drop 1, unacked := p.unacked ++ [f], txSeq := (p.txSeq + 1) % 2 ^ 32, ackDue := false
      timer := p.timer <|> some now
      pieces := if f.pieces.isEmpty then p.pieces else p.pieces ++ [(f.seq, f.pieces)]
      mirrorOut := p.mirrorOut && f.typ != HtpType.mirrorCommit }
  let h := if f.typ = HtpType.mirrorCommit then
      let e := leField f.args 0 4
      (h.setReg Reg.ptnMirrorSent (BitVec.ofNat 32 e)).setRegFld Reg.ptnMirrorInfo 31 2 (e % 2 ^ 30)
    else h
  h.htpEmit f

/-- Waiting frames leave while the window has room (R458). -/
def Hw.htpPump (h : Hw) : Hw :=
  if !h.session then h
  else
    let p := h.partner
    (p.waiting.take (h.regFld Reg.htpWin 10 0 - p.unacked.length)).foldl Hw.htpFirst h

/-! ### From the mesh (R461, R462) -/

/-- TARGET and HATCH of a Hatch, by its directory key: a core's, the Partner's core's, or a Loft Hatch's, which the table
has no place for (log entry 102). -/
def hatchTarget (key : Nat) : List Byte :=
  if key < 2048 then leBytes 1 (key % 1024 / 16) ++ leBytes 1 (key % 16) else leBytes 2 (Config.loftTarget (key - 2048)).toNat

/-- TARGET and HATCH name a core's Hatch. -/
def coreTarget (target hatch : Nat) : Bool := decide (target < 64) && decide (hatch < 16)

/-- The Loft Hatches that TARGET and HATCH name. -/
def loftTargets (target hatch : Nat) : List Nat :=
  (List.range 64).filter fun n => (Config.loftTarget n).toNat == target + 256 * hatch

/-- A piece is answered to the core that sent it (R461, R463). -/
def Hw.pieceAnswer (h : Hw) (st : Status) (x : PieceOut) : Hw :=
  h.send stopPartner x.src (.answer st x.hput x.item x.ctx x.gen)

/-- A NOTICE_REPLY goes out once every core has replied and no DATA to that Hatch is unanswered. -/
def Hw.closesDone (h : Hw) : Hw :=
  let p := h.partner
  let open_ (key : Nat) : Bool :=
    p.pieces.any (fun x => x.2.any fun y => y.key == key) || p.waiting.any fun f => f.pieces.any fun y => y.key == key
  let done := p.closes.filter fun c => c.2.2.isEmpty && !open_ c.1
  let h := h.updPartner fun p => { p with closes := p.closes.filter fun c => !(c.2.2.isEmpty && !open_ c.1) }
  done.foldl (fun h c => h.htpSend HtpType.noticeReply 0
    (leBytes 1 1 ++ hatchTarget c.1 ++ [c.2.1.setWidth 8]) []) h

/-- The answer to a received piece, numbered 16 × SEQ + place: with the last one ANSWER goes out. -/
def Hw.pieceStatus (h : Hw) (no : Nat) (st : Status) : Hw :=
  let seq := no / 16
  let h := h.updPartner fun p =>
    { p with answers := p.answers.map fun a => if a.1 = seq then (a.1, a.2.set (no % 16) (some st)) else a }
  match h.partner.answers.find? fun a => a.1 == seq with
  | none => h
  | some a =>
    if a.2.any Option.isNone then h
    else (h.updPartner fun p => { p with answers := p.answers.filter fun x => x.1 != seq }).htpSend HtpType.answer
      a.2.length (leBytes 4 seq) ((a.2.map fun s => leBytes 2 (s.getD 0)).flatten)

/-- One message for the Partner. -/
def Hw.toPartner (h : Hw) (m : Message) : Hw :=
  match m.body with
  | .write _ _ key offset stamp data _ hput item ctx gen _ =>
    let x : PieceOut := ⟨m.src, key, hput, item, ctx, gen⟩
    if !h.session then h.pieceAnswer Status.undelivered x
    else
      let args := leBytes 1 ((key - 1024) / 16) ++ leBytes 1 (key % 16) ++ leBytes 1 stamp.toNat ++ [0] ++ leBytes 4 offset ++
        List.replicate 8 0
      h.updPartner fun p => { p with waiting := p.waiting ++ [⟨HtpType.data, 0, 1, args, data, [x]⟩] }
  | .answer st _ item _ _ => if h.session then h.pieceStatus item st else h
  | .notice key gen open_ =>
    if !h.session then h
    else if 1024 ≤ key ∧ key < 2048 then
      h.updPartner fun p => { p with closes := p.closes.map fun c => if c.1 = key ∧ c.2.1 = gen then (c.1, c.2.1, c.2.2.erase m.src) else c }
    else h.htpSend HtpType.notice 0 (leBytes 1 (!open_).toNat ++ hatchTarget key ++ leBytes 1 gen.toNat) []

/-- Messages that have reached the link become frames, in their order. -/
def Hw.htpCollect (h : Hw) : Hw :=
  let ms := h.loft.mesh.filter fun m => m.dst == stopPartner
  let h := h.updLoft fun l => { l with mesh := l.mesh.filter fun m => m.dst != stopPartner }
  ((ms.foldl Hw.toPartner h).closesDone).htpPump

/-! ### Sessions (R456, R462, R463) -/

/-- PTN_STATUS: session state, and the port of the session's path. -/
def Hw.sessionSet (h : Hw) (state : Nat) : Hw :=
  let h := h.setRegFld Reg.ptnStatus 5 4 state
  match h.partner.path with
  | some k => h.setRegBit Reg.ptnStatus 6 (h.peerPort k == 1)
  | none => h

/-- Hatches that are open to the Partner: directory key and generation. -/
def Hw.partnerHatches (h : Hw) : List (Nat × BitVec 8) :=
  ((List.range h.inService).map fun l =>
    (List.range 16).filterMap fun k =>
      let x := (h.body (h.phys l)).hatch k
      if x.isOpen && x.partner && !x.closing then some (hatchKey l k, x.gen) else none).flatten ++
  (List.range 64).filterMap fun n =>
    let x := h.loftHatch n
    if x.isOpen && x.partner && !x.closing then some (loftKey n, x.gen) else none

/-- A session comes up: sequence numbers start at 1, and every Hatch open to the Partner is announced first. -/
def Hw.sessionUp (h : Hw) (session : Nat) : Hw :=
  let h := h.updPartner fun p =>
    { p with txSeq := 1, rxSeq := 1, waiting := [], unacked := [], timer := none, retries := 0, ackDue := false, uses := [],
             beaten := false, pieces := [], answers := [] }
  let h := (h.setRegFld Reg.ptnStatus 15 8 session).sessionSet 2
  (h.partnerHatches.foldl (fun h x => h.htpSend HtpType.notice 0
    (leBytes 1 0 ++ hatchTarget x.1 ++ leBytes 1 x.2.toNat) []) h).htpPump.ptnIrq

/-- Pieces that no answer has come for. -/
def Partner.openPieces (p : Partner) : List PieceOut :=
  (p.pieces.map Prod.snd).flatten ++ (p.waiting.map HtpFrame.pieces).flatten

/-- A session is lost (R463). -/
def Eff.sessionLost (e : Eff) : Eff :=
  if !e.hw.session then e
  else
    let e := e.up fun h =>
      let h := h.partner.openPieces.foldl (fun h x => h.pieceAnswer Status.undelivered x) h
      let h := (List.range 68).foldl (fun h p => h.updBody p fun b =>
        { b with dir := b.dir.map fun x => if 1024 ≤ x.1 ∧ x.1 < 2048 then (x.1, { x.2 with isOpen := false }) else x }) h
      let h := (List.range 68).foldl (fun h p => h.updBody p fun b =>
        { b with hatches := b.hatches.map fun x => (x.1, { x.2 with awaiting := x.2.awaiting.erase 64 }) }) h
      let h := (List.range 64).foldl (fun h n => h.setLoftHatch n { h.loftHatch n with awaiting := (h.loftHatch n).awaiting.erase 64 }) h
      let h := (h.satReg (Reg.ptnCnt 2)).sessionSet 0
      let h := h.updPower fun p => { p with partner := none, partnerRuns := none, heldByPartner := false, proposal := none, reported := none }
      h.ptnIrq
    let parts := (List.range 16).filter fun p => !(e.hw.ptnWaiters p).isEmpty
    let e := e.up fun h => h.updPartner fun p =>
      { p with path := none, waiting := [], unacked := [], timer := none, retries := 0, ackDue := false, inbox := [],
               pieces := [], answers := [], closes := [], cuts := (p.cuts.filter fun c => c.launch.isSome).map (fun c => { c with others := [] }), mirrorIn := none,
               mirrorOut := false, lastOpen := none }
    e.each parts fun e p => e.abandonCut (e.hw.ptnWaiters p)

/-- HTP_OPEN_TIMER: every 1 ms with no session up, OPEN goes out on the path. -/
def Hw.htpOpenTimer (h : Hw) : Hw :=
  let due := match h.partner.lastOpen with
    | some t => decide (t + 1000000 ≤ h.elapsed)
    | none => true
  if !h.partnered || h.session || !due then h
  else match h.peerPath with
    | none => h
    | some k =>
      let s := if h.regFld Reg.ptnStatus 5 4 = 1 then h.sessionNo else if h.sessionNo = 255 then 1 else h.sessionNo + 1
      let now := h.elapsed
      let h := h.updPartner fun p => { p with path := some k, lastOpen := some now, rxSeq := 1 }
      ((h.setRegFld Reg.ptnStatus 15 8 s).sessionSet 1).htpEmit (htpBare HtpType.opening)

/-! ### In (R457, R459, R460) -/

/-- An ACK value advances the acknowledgement; a CONFIRM that it covers counts as acknowledged (14 R569). -/
def Hw.htpAcked (h : Hw) (a : Nat) : Hw :=
  let p := h.partner
  let old := ((p.unacked.head?).map HtpFrame.seq).getD p.txSeq
  let ahead (s : Nat) : Nat := (a + 2 ^ 32 - s) % 2 ^ 32
  if ahead old = 0 || 2 ^ 31 ≤ ahead old then h
  else
    let covered (f : HtpFrame) : Bool := decide (1 ≤ ahead f.seq) && decide (ahead f.seq < 2 ^ 31)
    let confirm := p.unacked.any fun f => covered f && f.typ == HtpType.opExchange && leField f.args 0 1 == 3
    let rest := p.unacked.filter fun f => !covered f
    let now := h.elapsed
    let h := h.updPartner fun p => { p with unacked := rest, retries := 0, timer := if rest.isEmpty then none else some now }
    let h := if confirm then h.updPower fun w => { w with proposal := w.proposal.map fun x => { x with acked := true } } else h
    h.htpPump

/-- Bytes of a frame that are to be zero, COUNT and LENGTH fit the type (R460). -/
def Hw.htpFits (h : Hw) (b : List Byte) : Bool :=
  let t := leField b 0 1 % 16
  let len := leField b 12 2
  let n := leField b 14 1
  let a (o k : Nat) : Nat := leField b (16 + o) k
  let z (o k : Nat) : Bool := a o k == 0
  let bare := len == 0 && n == 0
  zeroAt b 15 1 &&
  if t = HtpType.opening || t = HtpType.openAck || t = HtpType.ack then bare && z 0 16 && leField b 4 4 == 0
  else if t = HtpType.data then
    1 ≤ n && n ≤ h.regFld Reg.htpCfg 20 16 && len == 256 * n && a 0 1 < 64 && a 1 1 < 16 && z 3 1 && a 4 4 % 8 == 0 && z 8 8
  else if t = HtpType.answer then 1 ≤ n && len == 2 * n && z 4 12
  else if t = HtpType.notice || t = HtpType.noticeReply then 
    bare && a 0 1 ≤ 1 && (coreTarget (a 1 1) (a 2 1) || !(loftTargets (a 1 1) (a 2 1)).isEmpty) && z 4 12
  else if t = HtpType.mirror then n == 0 && len % 32 == 0 && z 6 2
  else if t = HtpType.mirrorCommit then bare
  else if t = HtpType.heartbeat then
    n == 0 && len == 32 && z 0 16 && leField b 36 1 ≤ 4 && leField b 37 1 ≤ 1 && zeroAt b 38 2 && leField b 42 1 < 8 &&
      zeroAt b 43 1 && zeroAt b 56 8
  else if t = HtpType.cutArrive then bare && a 0 1 < 16 && a 1 1 < 16
  else if t = HtpType.opExchange then
    let k := a 0 1
    bare && k ≤ 4 && a 1 1 < 8 && z 2 2 && (k == 0 || k == 1 || z 1 1) && (k != 0 && k != 4 || z 4 4) && (k == 1 || z 8 8)
  else false

/-- A frame of an HTP EtherType from a peer, from the HTP header onward (R457): discarded and counted, answered with an
ACK, or accepted for its own command. -/
def Hw.htpReceive (h : Hw) (b : List Byte) : Hw :=
  let len := leField b 12 2
  let t := leField b 0 1 % 16
  let seq := leField b 4 4
  if !h.partnered then h
  else
    let whole := 36 + len ≤ b.length
    let ok := decide whole && (crc32 (b.take (32 + len))).toNat == leField b (32 + len) 4 && leField b 0 1 / 16 == 1 &&
      h.htpFits b && decide (len ≤ 4096)
    let known :=
      if t = HtpType.opening then leField b 1 1 != 0
      else leField b 1 1 == h.sessionNo && (h.session || (t == HtpType.openAck && h.regFld Reg.ptnStatus 5 4 == 1))
    if !ok || !known then h.satReg (Reg.ptnCnt 3)
    else
      let push (h : Hw) : Hw := h.updPartner fun p => { p with inbox := p.inbox ++ [b] }
      let h := if t = HtpType.opening || t = HtpType.openAck then h else h.htpAcked (leField b 8 4)
      if t ≤ 2 then push h
      else if seq = h.partner.rxSeq then
        push (h.updPartner fun p => { p with rxSeq := (p.rxSeq + 1) % 2 ^ 32, ackDue := true })
      else h.htpEmit (htpBare HtpType.ack)

/-- Process the oldest accepted frame, when it has the type. -/
def Eff.htpTake (e : Eff) (t : Nat) (f : Eff → List Byte → Eff) : Eff :=
  match e.hw.partner.inbox with
  | [] => e
  | b :: rest =>
    if leField b 0 1 % 16 = t then f (e.up fun h => h.updPartner fun p => { p with inbox := rest }) b else e

/-- HTP_OPEN: OPEN is answered with OPEN_ACK and the session is up; of two engines that open in one interval, the one with
the lower SELF_ID answers. -/
def Eff.htpOpen (e : Eff) : Eff :=
  e.htpTake HtpType.opening fun e b =>
    let s := leField b 1 1
    let crossing := e.hw.regFld Reg.ptnStatus 5 4 == 1 &&
      (match e.hw.partner.lastOpen with | some t => decide (e.hw.elapsed < t + 1000000) | none => false)
    if crossing && decide (leField b 2 2 < e.hw.regFld Reg.ptnCfg 15 0) then e
    else
      let e := e.sessionLost
      e.up fun h =>
        match h.peerPath with
        | none => h
        | some k =>
          let h := h.updPartner fun p => { p with path := some k, rxSeq := 1 }
          let h := (h.setRegFld Reg.ptnStatus 15 8 s).htpEmit (htpBare HtpType.openAck)
          h.sessionUp s

/-- HTP_OPEN_ACK: the session is up. -/
def Eff.htpOpenAck (e : Eff) : Eff :=
  e.htpTake HtpType.openAck fun e b => e.up fun h =>
    if h.regFld Reg.ptnStatus 5 4 = 1 && leField b 1 1 == h.sessionNo then h.sessionUp h.sessionNo else h

/-- HTP_ACK: the acknowledgement was taken as the frame was accepted (R459). -/
def Eff.htpAck (e : Eff) : Eff := e.htpTake HtpType.ack fun e b => e.up fun h => h.htpAcked (leField b 8 4)

/-- HTP_DATA: each piece goes to the target core's Hatch. The frame has no field for an age: a free value (log entry 5). -/
def Eff.htpData (e : Eff) : Eff :=
  e.htpTake HtpType.data fun e b => e.up fun h =>
    let n := leField b 14 1
    let seq := leField b 4 4
    let dst := h.phys (leField b 16 1)
    let h := h.updPartner fun p => { p with answers := p.answers ++ [(seq, List.replicate n none)] }
    (List.range n).foldl (fun h i =>
      let (age, h) := h.fresh
      h.send stopPartner dst (.write 64 0 (leField b 17 1) (leField b 20 4 + 8 * i) (BitVec.ofNat 8 (leField b 18 1))
        (sliceBytes b (32 + 256 * i) 256) [] none (16 * seq + i) 0 0 age)) h

/-- HTP_ANSWER: each originating write is answered with its piece's status. -/
def Eff.htpAnswer (e : Eff) : Eff :=
  e.htpTake HtpType.answer fun e b => e.up fun h =>
    let seq := leField b 16 4
    match h.partner.pieces.find? fun x => x.1 == seq with
    | none => h
    | some x =>
      let h := h.updPartner fun p => { p with pieces := p.pieces.filter fun y => y.1 != seq }
      ((x.2.zipIdx.foldl (fun h y => h.pieceAnswer (leField b (32 + 2 * y.2) 2) y.1) h).closesDone).htpPump

/-- HTP_NOTICE: the directories follow, and a CLOSE is replied to once every core has (R462). They have no entry for a Loft
Hatch of the Partner (06 R252): its close is replied to at once. -/
def Eff.htpNotice (e : Eff) : Eff :=
  e.htpTake HtpType.notice fun e b => e.up fun h =>
    let core := coreTarget (leField b 17 1) (leField b 18 1)
    let key := if core then partnerKey (leField b 17 1) (leField b 18 1)
      else loftKey ((loftTargets (leField b 17 1) (leField b 18 1)).headD 0)
    let gen := BitVec.ofNat 8 (leField b 19 1)
    let open_ := leField b 16 1 == 0
    let cores := if core then (List.range h.inService).map h.phys else []
    let h := cores.foldl (fun h p => h.send stopPartner p (.notice key gen open_)) h
    if open_ then h else (h.updPartner fun p => { p with closes := p.closes ++ [(key, gen, cores)] }).closesDone.htpPump

/-- HTP_NOTICE_REPLY: the Partner has replied to a close. -/
def Eff.htpNoticeReply (e : Eff) : Eff :=
  e.htpTake HtpType.noticeReply fun e b => e.up fun h =>
    let gen := BitVec.ofNat 8 (leField b 19 1)
    if coreTarget (leField b 17 1) (leField b 18 1) then h.closeReplied (hatchKey (leField b 17 1) (leField b 18 1)) gen 64
    else (loftTargets (leField b 17 1) (leField b 18 1)).foldl (fun h n => h.closeReplied (loftKey n) gen 64) h

/-- HTP_ACK_TIMER: the acknowledgement that is due goes out by itself. -/
def Hw.htpAckTimer (h : Hw) : Hw :=
  if h.session && h.partner.ackDue then
    (h.updPartner fun p => { p with ackDue := false }).htpEmit (htpBare HtpType.ack)
  else h

/-- HTP_RTO_EXPIRY: the unacknowledged frames go out again, or the session is lost (R458). -/
def Eff.htpRto (e : Eff) : Eff :=
  let h := e.hw
  let due := match h.partner.timer with
    | some t => decide (t + h.regFld Reg.htpRto 15 0 * 1000 ≤ h.elapsed)
    | none => false
  if !h.session || h.partner.unacked.isEmpty || !due then e
  else if h.regFld Reg.htpRetry 7 0 ≤ h.partner.retries + 1 then e.sessionLost
  else e.up fun h =>
    let fs := h.partner.unacked
    let now := h.elapsed
    let h := h.updPartner fun p => { p with retries := p.retries + 1, timer := some now, ackDue := false }
    fs.foldl (fun h f => (h.satReg (Reg.ptnCnt 1)).htpEmit f) h

end Sys2Proof.Machine
end

