-- ==== Sys2Proof/Machine/Links.lean ====
section
/-!
DEFINITION. The Ethernet ports: receive dispatch, host rings, traffic classes, shaping, gating, timestamps, fault
injection and the 802.1AS agent (11_links_and_partnership.md R433 to R452, R465 to R467).
-/
namespace Sys2Proof.Machine

open Sys2Proof

/-! ### The port -/

/-- Line rate in kb/s (LNK_CTRL.RATE). -/
def Hw.linkRate (h : Hw) (n : Nat) : Nat := [25000000, 50000000, 100000000, 100000000].getD (h.regFld (Reg.lnkCtrl n) 1 0) 0

/-- FEC is on: always at 50 and 100 Gb/s. -/
def Hw.linkFec (h : Hw) (n : Nat) : Bool := h.regFld (Reg.lnkCtrl n) 1 0 != 0 || h.regBit (Reg.lnkCtrl n) 2

def Hw.linkUp (h : Hw) (n : Nat) : Bool := h.regBit (Reg.lnkStatus n) 0

/-- TS_PCS_TX and TS_PCS_RX (Table "PCS and FEC latency"). -/
def Hw.pcsDelay (h : Hw) (n : Nat) : Nat × Nat :=
  match h.regFld (Reg.lnkCtrl n) 1 0, h.linkFec n with
  | 0, false => (0x0C80, 0x12C0)
  | 0, true => (0xDB40, 0x1B4C0)
  | 1, _ => (0x7640, 0xEC00)
  | _, _ => (0x3D40, 0x7F80)

/-- Count in counter pair `i` of a port. -/
def Hw.linkCount (h : Hw) (n i k : Nat) : Hw := h.addReg64 (Reg.lnkCnt n i) k

/-- A port goes down (R435): the session of its path is lost (R453), and asCapable with it (R452, log entry 30). -/
def Eff.portDown (e : Eff) (n : Nat) : Eff :=
  if !e.hw.linkUp n then e
  else
    let e := e.up fun h =>
      let h := ((h.setRegBit (Reg.lnkStatus n) 0 false).linkCount n 11 1).setRegBit (Reg.asStatus n) 2 false
      h.updLink n fun l => { l with as_ := { l.as_ with t1 := none, resp := none, before := none, lost := 0 } }
    match e.hw.partner.path with
    | some k => if e.hw.peerPort k = n then e.sessionLost else e
    | none => e

/-- LINK_DOWN: a lock has been lost for more than 10 µs; which locks still hold comes with the command. -/
def Eff.linkDown (e : Eff) (n : Nat) (block aligned fec : Bool) : Eff :=
  let hold := block && aligned && (fec || !e.hw.linkFec n)
  if hold then e
  else (e.portDown n).up fun h =>
    ((h.setRegBit (Reg.lnkStatus n) 1 block).setRegBit (Reg.lnkStatus n) 2 aligned).setRegBit (Reg.lnkStatus n) 3 fec

/-- LINK_UP: block lock, alignment and, with FEC on, FEC lock hold. -/
def Hw.linkUpNow (h : Hw) (n : Nat) : Hw :=
  if !h.regBit (Reg.lnkCtrl n) 3 || !h.unitUp (22 + n) then h
  else (h.driveLanes n).setRegFld (Reg.lnkStatus n) 3 0 (7 + 8 * (h.linkFec n).toNat)

/-! ### Fault injection (R465 to R467) -/

/-- What INJ_CTRL.SELECT and the direction (DIR_TX bit 2, DIR_RX bit 3) admit: kind 1 HTP, 2 stream, 3 host, 0 none of
them. -/
def Hw.injTakes (h : Hw) (n dir kind : Nat) : Bool :=
  let c := h.reg (Reg.injCtrl n)
  bitOf c 0 && bitOf c (2 + dir) && (fld c 7 6 == 0 || fld c 7 6 == kind)

/-- Frame `k` of a direction is acted on. -/
def Hw.injActs (h : Hw) (n dir k : Nat) : Bool :=
  if h.regBit (Reg.injCtrl n) 8 then h.regBit (Reg.injPattern n) (k % 32)
  else
    let u := shuffle ((h.reg (Reg.injSeed n)).setWidth 64) (BitVec.ofNat 64 k) (BitVec.ofNat 32 n) (BitVec.ofNat 32 dir)
    decide (fld u 31 16 < h.regFld (Reg.injRate n) 15 0)

/-- One bit of a frame inverted; a bit of the FCS changes no byte of the frame. -/
def flipBit (d : List Byte) (bit : Nat) : List Byte :=
  d.set (bit / 8) (d.getD (bit / 8) 0 ^^^ BitVec.ofNat 8 (2 ^ (bit % 8)))

/-- What the injection does with a considered frame: nothing, or an action (0 DROP, 1 CORRUPT_BAD, 2 CORRUPT_GOOD, 3
REORDER). The count of frames and INJ_COUNT follow. -/
def Hw.inject (h : Hw) (n dir kind : Nat) : Option Nat × Hw :=
  if !h.injTakes n dir kind then (none, h)
  else
    let k := Tbl.get (fun _ => 0) (h.link n).seen dir
    let h' := h.updLink n fun l => { l with seen := Tbl.put (fun _ => 0) l.seen dir (k + 1) }
    if h.injActs n dir k then (some (h.regFld (Reg.injCtrl n) 5 4), h'.satReg (Reg.injCount n)) else (none, h')

/-- Held frames of a direction after one more considered frame has passed: those to release now, in order. -/
def Hw.heldPass (h : Hw) (n dir : Nat) : List HeldFrame × Hw :=
  let q := (Tbl.get (fun _ => []) (h.link n).held dir).map fun f => { f with left := f.left - 1 }
  (q.filter fun f => f.left == 0, h.updLink n fun l => { l with held := Tbl.put (fun _ => []) l.held dir (q.filter fun f => f.left != 0) })

/-- Hold a frame. -/
def Hw.holdFrame (h : Hw) (n dir : Nat) (f : HeldFrame) : Hw :=
  h.updLink n fun l => { l with held := Tbl.upd (fun _ => []) l.held dir fun q => q ++ [f] }

/-- The injection bit within a frame of `bytes` bytes with its FCS. -/
def Hw.injBitOf (h : Hw) (n bytes : Nat) : Nat := h.regFld (Reg.injBit n) 16 0 % (8 * bytes)

/-- The permit of the Safety Monitor (12 R517). -/
def Hw.injPermit (h : Hw) : Bool := h.regBit Reg.smInjCtrl 31

/-- INJ_ENABLE: a write of INJ_CTRL. EN = 1 needs the permit. -/
def Hw.injEnable (h : Hw) (n : Nat) (v : Word) : Hw :=
  let old := h.reg (Reg.injCtrl n)
  let en := bitOf v 0
  let ok := en && h.injPermit
  let h := if en && !h.injPermit then h.setRegBit (Reg.injStatus n) 0 true else h
  let h := h.setReg (Reg.injCtrl n) (setBit (v &&& 0xF00001FD) 0 ok)
  let h := h.setRegBit (Reg.lnkStatus n) 4 ok
  if ok && !bitOf old 0 then h.updLink n fun l => { l with seen := [] } else h

/-- At a frame boundary a withdrawn permit clears EN (R465). -/
def Hw.injRevoke (h : Hw) (n : Nat) : Hw :=
  if h.regBit (Reg.injCtrl n) 0 && !h.injPermit then
    ((h.setRegBit (Reg.injCtrl n) 0 false).setRegBit (Reg.injStatus n) 1 true).setRegBit (Reg.lnkStatus n) 4 false
  else h

/-! ### Receive (R436, R437, R439) -/

/-- A frame has one tag of TPID 0x8100, or none; its EtherType and the offset behind it. -/
def frameTagged (d : List Byte) : Bool := beField d 12 2 == 0x8100
def frameType (d : List Byte) : Nat := beField d (if frameTagged d then 16 else 12) 2
def frameBody (d : List Byte) : List Byte := d.drop (if frameTagged d then 18 else 14)

/-- A second tag, or an S-tag. -/
def frameStacked (d : List Byte) : Bool :=
  frameType d == 0x8100 || frameType d == 0x88A8

/-- The multicast address 01-80-C2-00-00-0E. -/
def asMulticast : List Byte := [0x01, 0x80, 0xC2, 0x00, 0x00, 0x0E]

/-- Row 2 of Table "Receive dispatch" admits the destination. -/
def Hw.addressed (h : Hw) (n : Nat) (d : List Byte) : Bool :=
  let dst := d.take 6
  dst == leBytes 6 (h.reg64 (Reg.lnkMac n)) || dst == List.replicate 6 0xFF || dst == asMulticast ||
    (h.regBit (Reg.lnkCtrl n) 7 && bitOf ((d.getD 0 0).setWidth 32) 0)

/-- The source is the address of a valid peer entry of the port. -/
def Hw.fromPeer (h : Hw) (n : Nat) (d : List Byte) : Bool :=
  (List.range 4).any fun k => h.regBit (Reg.peerCtrl k) 0 && h.peerPort k == n && (d.drop 6).take 6 == leBytes 6 (h.reg64 (Reg.peerMac k))

/-- The 802.1AS agent takes a frame: Pdelay_Req, and as end station Sync, Pdelay_Resp and the Follow_Ups; every other
message takes the host path (R450, log entry 96). -/
def Hw.agentTakes (h : Hw) (n : Nat) (d : List Byte) : Bool :=
  let mode := h.regFld (Reg.lnkCtrl n) 6 5
  let type := beField (frameBody d) 0 1 % 16
  !frameStacked d && frameType d == 0x88F7 && d.take 6 == asMulticast && beField (frameBody d) 4 1 == 0 &&
    ((mode != 0 && type == 2) || (mode == 2 && (type == 0 || type == 3 || type == 8 || type == 10)))

/-- The first row of Table "Receive dispatch" that a frame matches; 6 stands for rows 6 and 7. -/
def Hw.rxRow (h : Hw) (n : Nat) (d : List Byte) : Nat :=
  if beField d 12 2 = 0x8808 || frameType d = 0x8808 then 1
  else if !h.addressed n d then 2
  else if frameType d = h.regFld Reg.htpCfg 15 0 && h.fromPeer n d then 3
  else if h.agentTakes n d then 4
  else if !frameStacked d && ((datagramOf d).bind fun g => h.filterOf n g).isSome then 5
  else 6

/-- The kind of a received frame for SELECT; frames of the 802.1AS agent and dropped ones are of no kind (log entry 96). -/
def Hw.frameKind (h : Hw) (n : Nat) (d : List Byte) : Nat :=
  match h.rxRow n d with
  | 3 => 1
  | 5 => 2
  | 6 => 3
  | _ => 0

/-- Slot of a ring of descriptors of 32 bytes. -/
def Hw.ringSlot (h : Hw) (base ctrl : Nat) (i : Nat) : Nat := h.reg64 base % 2 ^ 48 + 32 * (i % 2 ^ h.regFld ctrl 7 4)

/-- The context of the host rings may be worked for (R440). -/
def Hw.hostOk (h : Hw) (n : Nat) : Bool :=
  let c := h.regFld (Reg.lnkHostctx n) 11 0
  (h.ctx? c).isSome && !h.paused c && !h.resetting c

/-- Descriptors of a ring of a link port whose write-back is under way. -/
def Hw.ringPending (h : Hw) (n r : Nat) : Nat :=
  (h.atu.own.filter fun j => match j.goal with
    | .ring m s _ _ => m == n && s == r
    | _ => false).length

/-- A write of a link port for a ring, in the context of LNK_HOSTCTX. -/
def Hw.ringWrite (h : Hw) (n r va : Nat) (bs : List Byte) (irq : Bool) (back : Option (Nat × List Byte)) : Hw :=
  h.addOwn (ownWrite 1 (if r = 8 then 32 + n else 16 + 8 * n + r) (h.regFld (Reg.lnkHostctx n) 11 0)
    (h.regFld (Reg.lnkHostctx n) 19 16) va bs 0 (.ring n r irq back))

/-- The host receive ring takes a frame: the buffer at RXR_HEAD, past those that are being
written, whose descriptor comes with the command. The descriptor is written back after the buffer (R439). -/
def Hw.hostReceive (h : Hw) (n : Nat) (d : List Byte) (ts : BitVec 72) (desc : MemAnswer) : Hw :=
  let head := h.reg (Reg.rxrHead n) + BitVec.ofNat 32 (h.ringPending n 8)
  let ctrl := Reg.rxrCtrl n
  let drop := h.linkCount n 6 1
  if !h.regBit ctrl 0 || head == h.reg (Reg.rxrTail n) || !h.hostOk n || frameStacked d then drop
  else match desc with
    | .data bs =>
      let va := leField bs 0 8
      let len := leField bs 8 2
      if bs.length < 32 || 2 ^ 48 ≤ va || va % 64 ≠ 0 || len = 0 || len % 64 ≠ 0 || 9664 < len || !zeroAt bs 10 6 then drop
      else
        let stored := d.take len
        let tagged := frameTagged d
        let wb := leBytes 2 0 ++ [ts.setWidth 8] ++ leBytes 1 (3 + 4 * tagged.toNat + 8 * (decide (len < d.length)).toNat) ++
          leBytes 2 stored.length ++ leBytes 2 (if tagged then beField d 14 2 else 0) ++ leBytes 8 (ts.toNat / 256)
        let h := h.ringWrite n 8 va stored true (some (h.ringSlot (Reg.rxrBase n) ctrl head.toNat + 16, wb))
        (h.linkCount n 0 1).linkCount n 1 d.length
    | _ => drop

/-- Dispatch of a frame that has passed R436 (Table "Receive dispatch"). -/
def Eff.dispatch (e : Eff) (n : Nat) (d : List Byte) (ts : BitVec 72) (desc : MemAnswer) : Eff :=
  match e.hw.rxRow n d with
  | 1 => e.up fun h => h.linkCount n 4 1
  | 2 => e.up fun h => h.linkCount n 5 1
  | 3 => e.up fun h => h.htpReceive (frameBody d)
  | 4 => e.up fun h => h.updLink n fun l => { l with asIn := l.asIn ++ [(frameBody d, ts.toNat)] }
  | 5 => e.udpPacket n d (BitVec.ofNat 64 (ts.toNat / 256))
  | _ => e.up fun h => h.hostReceive n d ts desc

/-- RX_FRAME: a frame without its FCS, whether that was right, its timestamp in 2^-8 ns, how many FEC codewords since the frame
before were corrected and could not be, and the descriptors that it and frames released with it take. -/
def Eff.rxFrame (e : Eff) (n : Nat) (d : List Byte) (fcsOk : Bool) (ts : BitVec 72) (fec : Nat × Nat) (descs : List MemAnswer) : Eff :=
  let h := e.hw
  let desc := descs.getD 0 .addrErr
  if !h.linkUp n then e
  else
    let e := e.up fun h => if h.linkFec n then ((h.linkCount n 9 fec.1).linkCount n 10 fec.2).injRevoke n else h.injRevoke n
    let size := d.length + 4
    let limit := h.regFld (Reg.lnkMaxframe n) 13 0 + (if frameTagged d then 4 else 0)
    if !fcsOk then e.up fun h => h.linkCount n 2 1
    else if size < 64 || limit < size then e.up fun h => h.linkCount n 3 1
    else
      let (act, h) := e.hw.inject n 1 (h.frameKind n d)
      let considered := e.hw.injTakes n 1 (e.hw.frameKind n d)
      let (out, h) := if considered then h.heldPass n 1 else ([], h)
      let e := { e with hw := h }
      let bit := h.injBitOf n size
      let e := match act with
        | none => e.dispatch n d ts desc
        | some 0 => e
        | some 1 => e.up fun h => h.linkCount n 2 1
        | some 2 => e.dispatch n (if bit / 8 < d.length then flipBit d bit else d) ts desc
        | some _ => e.up fun h => h.holdFrame n 1 ⟨d, h.regFld (Reg.injCtrl n) 31 28, h.elapsed, ts.toNat, true⟩
      e.each out.zipIdx fun e f => e.dispatch n f.1.data (BitVec.ofNat 72 f.1.time) (descs.getD (f.2 + 1) .addrErr)

/-! ### Credits and gates (R442 to R447) -/

/-- Shaped (R443): EN and idleSlope in kb/s. -/
def Hw.cbs (h : Hw) (n c : Nat) : Option Nat :=
  if h.regBit (Reg.cbsIdle n c) 31 then some (h.regFld (Reg.cbsIdle n c) 26 0) else none

/-- The unit of credit: one bit. -/
def creditBit : Int := 10 ^ 6 * 2 ^ 32

/-- Entry `i` of a cycle begins at `at_`; it is cut at the cycle's end, and the last entry's gates stay until then (log
entry 72). -/
def GateList.begin_ (g : GateList) (i at_ : Nat) : GateList :=
  let stop := g.cycleAt + g.cycle
  { g with entry := i, gap := none,
           endsAt := if i + 1 < g.entries.length then min (at_ + (g.entries.getD i (0, 0)).1 * unitNs) stop else stop }

/-- What follows the entry at work: entry 0 after a gap, the next entry of the cycle, or entry 0 of the next cycle (R444,
R447). -/
def GateList.next (g : GateList) : GateList :=
  if g.gap.isSome then g.begin_ 0 g.cycleAt
  else if g.entry + 1 < g.entries.length && g.endsAt < g.cycleAt + g.cycle then g.begin_ (g.entry + 1) g.endsAt
  else { g with cycleAt := g.cycleAt + g.cycle }.begin_ 0 (g.cycleAt + g.cycle)

/-- The gates of the entry at work. -/
def GateList.gates (g : GateList) : Nat :=
  match g.gap with
  | some x => x.toNat
  | none => (g.entries.getD g.entry (0, 0xFF)).2

/-- The gates in force: bit c opens class c. -/
def LinkPort.gates (l : LinkPort) : Nat := (l.gcl.map GateList.gates).getD 0xFF

/-- The credit of a class over `dt` units of time in which it transmits or not. -/
def Hw.creditOver (h : Hw) (n c : Nat) (sending : Bool) (dt : Nat) (x : Int) : Int :=
  match h.cbs n c with
  | none => 0
  | some idle =>
    let l := h.link n
    let waits := !(Tbl.get (fun _ => []) l.queues c).isEmpty
    let lo := (h.reg (Reg.cbsLo n c)).toInt * creditBit
    let hi := (h.reg (Reg.cbsHi n c)).toInt * creditBit
    let clamp (v : Int) : Int := clampInt lo hi v
    if !l.gates.testBit c then x
    else if sending then clamp (x - ((h.linkRate n : Int) - idle) * dt)
    else if waits then clamp (x + (idle : Int) * dt)
    else if x < 0 then clamp (min 0 (x + (idle : Int) * dt))
    else 0

/-- Settle the credits of a port to the present. -/
def Hw.settle (h : Hw) (n : Nat) : Hw :=
  let l := h.link n
  let now := h.dealer.elapsed
  let mid := if l.sending.isSome then min now (max l.settled l.freeAt) else l.settled
  let one (c : Nat) (x : Int) : Int :=
    let x := if l.sending.isSome then h.creditOver n c (l.sending == some c) (mid - l.settled) x else x
    h.creditOver n c false (now - mid) x
  h.updLink n fun l =>
    { l with
      credit := (List.range 8).foldl (fun t c => Tbl.upd (fun _ => 0) t c (one c)) l.credit
      settled := now, sending := if l.freeAt ≤ now then none else l.sending }

/-- Time on the line of a frame with preamble, FCS and interframe gap. -/
def Hw.lineTime (h : Hw) (n bytes : Nat) : Nat := ceilDiv ((8 + max 64 (bytes + 4) + 12) * 8 * 10 ^ 6 * 2 ^ 32) (h.linkRate n)

/-- When a class's gate, open now, closes next: none while it never does. -/
def GateList.closes (g : GateList) (c : Nat) : Option Nat := go (g.entries.length + 1) g
where
  go : Nat → GateList → Option Nat
    | 0, _ => none
    | k + 1, g => if g.next.gates.testBit c then go k g.next else some g.endsAt

/-- The next closing of a class's gate on a port: of the list at work, and of a list that waits from its start on. -/
def LinkPort.closes (l : LinkPort) (c : Nat) : Option Nat :=
  let now := l.gcl.bind fun g => g.closes c
  match l.gclNext with
  | none => now
  | some g =>
    let later := if (g.begin_ 0 g.cycleAt).gates.testBit c then (g.begin_ 0 g.cycleAt).closes c else some g.cycleAt
    match now with
    | some t => if t < g.cycleAt then some t else later
    | none => later

/-- A frame of a class ends before its gate closes (R446). -/
def Hw.fitsGate (h : Hw) (n c bytes : Nat) : Bool :=
  match (h.link n).closes c with
  | none => true
  | some t => decide (h.dealer.time + h.lineTime n bytes ≤ t)

/-- The class that transmission selection takes (R442). -/
def Hw.txClass (h : Hw) (n : Nat) : Option (Nat × TxFrame) :=
  let l := h.link n
  (List.range 8).reverse.findSome? fun c =>
    match Tbl.get (fun _ => []) l.queues c with
    | [] => none
    | f :: _ =>
      let credit := Tbl.get (fun _ => 0) l.credit c
      if l.gates.testBit c && ((h.cbs n c).isNone || decide (0 ≤ credit)) && h.fitsGate n c f.data.length then some (c, f) else none

/-- GCL_STATUS follows the list. -/
def Hw.gclShow (h : Hw) (n : Nat) : Hw :=
  let l := h.link n
  h.setReg (Reg.gclStatus n) (BitVec.ofNat 32 (l.gclNext.isSome.toNat * 2 ^ 31 + ((l.gcl.map GateList.entry).getD 0) % 256))

/-- A list as the committed registers give it; `from_` is the first time at which it may start (R445). -/
def Hw.gclOf (h : Hw) (n from_ : Nat) : GateList :=
  let len := h.regFld (Reg.gclCtrl n) 8 0
  let cycle := (h.reg (Reg.gclCycle n)).toNat * unitNs
  let base := h.reg64 (Reg.gclBase n) * unitNs
  let start := gridFrom base cycle from_
  { entries := (List.range len).map fun e => ((h.reg (Reg.gclInterval n e)).toNat, (h.reg (Reg.gclGates n e)).toNat % 256)
    cycle, base, entry := 0, cycleAt := start, endsAt := start, gap := none }

/-- GCL_ENTRY_ADVANCE: the interval at work has ended, or the list starts. -/
def Hw.gclAdvance (h : Hw) (n : Nat) : Hw :=
  let h := h.settle n
  let l := h.link n
  let now := h.dealer.time
  match l.gclNext with
  | some g =>
    if g.cycleAt ≤ now then (h.updLink n fun l => { l with gcl := some (g.begin_ 0 g.cycleAt), gclNext := none }).gclShow n
    else go h l now
  | none => go h l now
where
  go (h : Hw) (l : LinkPort) (now : Nat) : Hw :=
    match l.gcl with
    | none => h
    | some g =>
      if now < g.endsAt then h
      else
        (h.updLink n fun l => { l with gcl := some g.next }).gclShow n

/-! ### Transmit (R436, R438, R448) -/

/-- TX_DESCRIPTOR: the descriptor at TXRc_HEAD, past those that are being written back, and its buffer are read. One that sends nothing is written back at once; so is
a MAC Control frame, which the MAC never transmits (log entry 107). -/
def Hw.txDescriptor (h : Hw) (n c : Nat) (desc buf : List Byte) : Hw :=
  let ctrl := Reg.txrCtrl n c
  let head := h.reg (Reg.txrHead n c) + BitVec.ofNat 32 (h.ringPending n c)
  let busy := (Tbl.get (fun _ => []) (h.link n).queues c).any fun f => f.src.rank == 2
  if !h.regBit ctrl 0 || head == h.reg (Reg.txrTail n c) || !h.hostOk n || busy || desc.length < 32 then h
  else
    let va := h.ringSlot (Reg.txrBase n c) ctrl head.toNat
    let len := leField desc 8 2
    let fl := leField desc 10 2
    let bad := decide (h.regFld (Reg.lnkMaxframe n) 13 0 < len + 4) || decide (8 ≤ fl) || decide (2 ^ 48 ≤ leField desc 0 8) ||
      !zeroAt desc 14 2
    let d := sliceBytes buf 0 len
    let d := if fl.testBit 1 then d.take 12 ++ beBytes 2 0x8100 ++ beBytes 2 (leField desc 12 2) ++ d.drop 12 else d
    if bad || len = 0 || frameType d = 0x8808 then
      let wb := leBytes 2 (if bad then Status.invalidPacket else Status.ok) ++ [0, 1] ++ List.replicate 12 0
      h.ringWrite n c (va + 16) wb (fl.testBit 2) none
    else
      (h.settle n).enqueue n c ⟨.host va (fl.testBit 0) (fl.testBit 2), d⟩

/-- A host frame has left: its descriptor is written back. -/
def Hw.hostSent (h : Hw) (n c va : Nat) (ts irq : Bool) (time : BitVec 72) : Hw :=
  let wb := leBytes 2 0 ++ [if ts then time.setWidth 8 else 0] ++ leBytes 1 (1 + 2 * ts.toNat) ++ List.replicate 4 0 ++
    leBytes 8 (if ts then time.toNat / 256 else 0)
  h.ringWrite n c (va + 16) wb irq none

/-! ### The 802.1AS agent (R450 to R452). The layout of its messages is that of IEEE 802.1AS-2020 (log entry 30). -/

/-- A PTP header: type, length, flags, correction in 2^-16 ns, sequence number, interval. -/
def Hw.ptpHead (h : Hw) (n type len flags corr seq : Nat) (log : Nat) : List Byte :=
  leBytes 1 (0x10 + type) ++ [0x12] ++ beBytes 2 len ++ [0, 0] ++ beBytes 2 flags ++ beBytes 8 corr ++ List.replicate 4 0 ++
    leBytes 8 (h.reg64 (Reg.asClockid n)) ++ beBytes 2 1 ++ beBytes 2 seq ++ [0] ++ leBytes 1 log

/-- A message in its frame, on class 7. -/
def Hw.asSend (h : Hw) (n kind : Nat) (msg : List Byte) : Hw :=
  (h.settle n).enqueue n 7 ⟨.as_ kind, asMulticast ++ leBytes 6 (h.reg64 (Reg.lnkMac n)) ++ beBytes 2 0x88F7 ++ msg⟩

/-- A time of 2^-8 ns as ten bytes of seconds and nanoseconds. -/
def ptpTime (t : Nat) : List Byte := beBytes 6 (t / 256 / 10 ^ 9) ++ beBytes 4 (t / 256 % 10 ^ 9)
def ptpTimeOf (bs : List Byte) (o : Nat) : Nat := (beField bs o 6 * 10 ^ 9 + beField bs (o + 6) 4) * 256

/-- Time on the medium of a transmit and of a receive timestamp (R449, R451, R452). -/
def Hw.asTx (h : Hw) (n ts : Nat) : Nat := ts + (h.pcsDelay n).1 + h.regFld (Reg.extTxDelay n) 23 0
def Hw.asRx (h : Hw) (n ts : Nat) : Nat := ts - (h.pcsDelay n).2 - h.regFld (Reg.extRxDelay n) 23 0

/-- The kinds of agent frames that a transmission is followed up for. -/
def asSync : Nat := 0
def asPdelayReq : Nat := 2
def asPdelayResp : Nat := 3
def asOther : Nat := 15

/-- What follows the transmission of a message: Follow_Up behind Sync, the response's Follow_Up behind Pdelay_Resp, t1 of
a request. -/
def Hw.asSent (h : Hw) (n kind ts : Nat) (d : List Byte) : Hw :=
  let msg := d.drop 14
  let seq := beField msg 30 2
  let t := h.asTx n ts
  if kind = asSync then
    h.asSend n asOther (h.ptpHead n 8 76 0 (t % 256 * 256) seq (h.regFld (Reg.asCtrl n) 7 0) ++ ptpTime t ++
      beBytes 2 3 ++ beBytes 2 28 ++ [0x00, 0x80, 0xC2, 0, 0, 1] ++ List.replicate 22 0)
  else if kind = asPdelayResp then
    h.asSend n asOther (h.ptpHead n 10 54 0 (t % 256 * 256) seq 0x7F ++ ptpTime t ++ sliceBytes msg 44 10)
  else if kind = asPdelayReq then h.updLink n fun l => { l with as_ := { l.as_ with t1 := some t } }
  else h

/-- A signed exponent of s as ns. -/
def intervalNs (log : Nat) : Nat :=
  let e := signed 8 log
  if 0 ≤ e then 10 ^ 9 * 2 ^ e.toNat else 10 ^ 9 / 2 ^ (-e).toNat

/-- An interval has passed. -/
def Hw.intervalDue (h : Hw) (last : Option Nat) (log : Nat) : Bool :=
  match last with
  | some t => decide (t + intervalNs log ≤ h.elapsed)
  | none => true

/-- The port is grandmaster and sends; while UNSET holds it is suppressed. -/
def Hw.asMaster (h : Hw) (n : Nat) (f : Hw → Hw) : Hw :=
  if h.regFld (Reg.lnkCtrl n) 6 5 != 1 || !h.linkUp n then h
  else if h.regBit Reg.dlrStatus 1 then (h.setRegBit (Reg.asStatus n) 1 true).setRegBit (Reg.asStatus n) 0 false
  else f ((h.setRegBit (Reg.asStatus n) 1 false).setRegBit (Reg.asStatus n) 0 true)

/-- AS_SYNC_SEND. -/
def Hw.asSyncSend (h : Hw) (n : Nat) : Hw :=
  let log := h.regFld (Reg.asCtrl n) 7 0
  if !h.intervalDue (h.link n).as_.lastSync log then h
  else h.asMaster n fun h =>
    let seq := (h.link n).as_.syncSeq
    let now := h.elapsed
    let h := h.updLink n fun l => { l with as_ := { l.as_ with syncSeq := (seq + 1) % 2 ^ 16, lastSync := some now } }
    h.asSend n asSync (h.ptpHead n 0 44 0x0200 0 seq log ++ List.replicate 10 0)

/-- AS_ANNOUNCE_SEND. -/
def Hw.asAnnounceSend (h : Hw) (n : Nat) : Hw :=
  let log := h.regFld (Reg.asCtrl n) 23 16
  if !h.intervalDue (h.link n).as_.lastAnnounce log then h
  else h.asMaster n fun h =>
    let seq := (h.link n).as_.announceSeq
    let now := h.elapsed
    let gm := h.reg (Reg.asGm n)
    let id := leBytes 8 (h.reg64 (Reg.asClockid n))
    let source := [0xA0, 0x20, 0x40, 0x90].getD (h.regFld Reg.timeSource 1 0) 0xA0
    let h := h.updLink n fun l => { l with as_ := { l.as_ with announceSeq := (seq + 1) % 2 ^ 16, lastAnnounce := some now } }
    h.asSend n asOther (h.ptpHead n 11 76 0 0 seq log ++ List.replicate 13 0 ++ leBytes 1 (fld gm 7 0) ++ leBytes 1 (fld gm 23 16) ++
      leBytes 1 (fld gm 31 24) ++ beBytes 2 0x436A ++ leBytes 1 (fld gm 15 8) ++ id ++ beBytes 2 0 ++ leBytes 1 source ++
      beBytes 2 8 ++ beBytes 2 8 ++ id)

/-- AS_PDELAY_SEND. -/
def Hw.asPdelaySend (h : Hw) (n : Nat) : Hw :=
  let log := h.regFld (Reg.asCtrl n) 15 8
  if h.regFld (Reg.lnkCtrl n) 6 5 != 2 || !h.linkUp n || !h.intervalDue (h.link n).as_.lastPdelay log then h
  else
    let seq := (h.link n).as_.pdelaySeq
    let now := h.elapsed
    let h := h.updLink n fun l =>
      { l with as_ := { l.as_ with pdelaySeq := (seq + 1) % 2 ^ 16, lastPdelay := some now, t1 := none, resp := none, lost := l.as_.lost + 1 } }
    let h := if 9 < (h.link n).as_.lost - 1 then h.setRegBit (Reg.asStatus n) 2 false else h
    h.asSend n asPdelayReq (h.ptpHead n 2 54 0 0 seq log ++ List.replicate 20 0)

/-- The offset of a Sync is taken: the AS registers are written together (R452). -/
def Hw.asOffsetTaken (h : Hw) (n : Nat) (rx : Nat) (origin : Int) (seq : Nat) : Hw :=
  let a := (h.link n).as_
  let off := (rx : Int) - (origin + a.delay)
  let h := h.setReg64 (Reg.asOffset n) (wrap 64 off)
  let h := (h.setReg (Reg.asLinkdelay n) (BitVec.ofNat 32 a.delay)).setReg (Reg.asRatio n) (BitVec.ofInt 32 a.ratio)
  (h.setRegFld (Reg.asStatus n) 31 16 seq).setRegBit (Reg.asStatus n) 3 true

/-- The correctionField in 2^-8 ns. -/
def ptpCorr (m : List Byte) : Int := signed 64 (beField m 8 8) / 256

/-- A Pdelay exchange is whole: ratio and meanLinkDelay follow. -/
def Hw.asExchange (h : Hw) (n t1 t2 t3 t4 : Nat) : Hw :=
  let a := (h.link n).as_
  let ratio : Int := match a.before with
    | some (t3', t4') => if t4 ≤ t4' then a.ratio else (((t3 : Int) - t3') * 2 ^ 40) / ((t4 : Int) - t4') - 2 ^ 40
    | none => a.ratio
  let turn := (((t4 : Int) - t1) * (2 ^ 40 + ratio)) / 2 ^ 40
  let delay := ((turn - ((t3 : Int) - t2)) / 2).toNat
  let h := h.updLink n fun l => { l with as_ := { l.as_ with ratio, delay, before := some (t3, t4), t1 := none, resp := none, lost := 0 } }
  h.setRegBit (Reg.asStatus n) 2 (decide (delay ≤ 800 * 256))

/-- AS_MESSAGE_RECEIVE: the oldest message for the agent. -/
def Hw.asMessage (h : Hw) (n : Nat) : Hw :=
  match (h.link n).asIn with
  | [] => h
  | (m, ts) :: rest =>
    let h := h.updLink n fun l => { l with asIn := rest }
    let type := beField m 0 1 % 16
    let seq := beField m 30 2
    let rx := h.asRx n ts
    let a := (h.link n).as_
    let slave := h.regFld (Reg.lnkCtrl n) 6 5 == 2
    let mine := sliceBytes m 44 8 == leBytes 8 (h.reg64 (Reg.asClockid n))
    if type = 2 then
      h.asSend n asPdelayResp (h.ptpHead n 3 54 0x0200 (rx % 256 * 256) seq 0x7F ++ ptpTime rx ++ sliceBytes m 20 10)
    else if !slave then h
    else if type = 3 then
      if mine && (seq + 1) % 2 ^ 16 == a.pdelaySeq then
        h.updLink n fun l => { l with as_ := { l.as_ with resp := some (seq, (ptpTimeOf m 34 + ptpCorr m).toNat, rx) } }
      else h
    else if type = 10 then
      match a.resp, a.t1 with
      | some (s, t2, t4), some t1 => if mine && s == seq then h.asExchange n t1 t2 (ptpTimeOf m 34 + ptpCorr m).toNat t4 else h
      | _, _ => h
    else if type = 0 then
      if (beField m 6 2).testBit 9 then
        h.updLink n fun l => { l with as_ := { l.as_ with sync := some (seq, rx, wrap 64 (ptpCorr m)) } }
      else h.asOffsetTaken n rx (ptpTimeOf m 34 + ptpCorr m) seq
    else if type = 8 then
      match a.sync with
      | some (s, r, c) =>
        if s = seq then
          (h.updLink n fun l => { l with as_ := { l.as_ with sync := none } }).asOffsetTaken n r
            (ptpTimeOf m 34 + ptpCorr m + signed 64 c) seq
        else h
      | none => h
    else h

/-! ### TX_FRAME (R442, R446) -/

/-- TX_FRAME: transmission selection starts a frame; `ts` is its timestamp in 2^-8 ns. -/
def Hw.txFrame (h : Hw) (n : Nat) (ts : BitVec 72) : Hw :=
  let h := ((h.htpCollect).settle n).injRevoke n
  if !h.linkUp n || (h.link n).sending.isSome then h
  else match h.txClass n with
    | none => h
    | some (c, f) =>
      let now := h.dealer.elapsed
      let dur := h.lineTime n f.data.length
      let padded := f.data ++ List.replicate (60 - f.data.length) 0
      let h := h.updLink n fun l =>
        { l with queues := Tbl.upd (fun _ => []) l.queues c fun q => q.drop 1, sending := some c, freeAt := now + dur }
      let h := (h.linkCount n 7 1).linkCount n 8 padded.length
      let kind := match f.src with
        | .as_ _ => 0
        | .htp => 1
        | .host .. => 3
      let considered := h.injTakes n 0 kind
      let (act, h) := h.inject n 0 kind
      let (out, h) := if considered then h.heldPass n 0 else ([], h)
      let bit := h.injBitOf n (padded.length + 4)
      let flipped := if bit / 8 < padded.length then flipBit padded bit else padded
      let h := match act with
        | none => h.out (.frame n c padded false)
        | some 0 => h
        | some 1 => h.out (.frame n c flipped true)
        | some 2 => h.out (.frame n c flipped false)
        | some _ => h.holdFrame n 0 ⟨padded, h.regFld (Reg.injCtrl n) 31 28, h.elapsed, 0, true⟩
      let h := (out.foldl (fun h x => h.out (.frame n c x.data false)) h).driveLanes n
      match f.src with
      | .as_ k => h.asSent n k ts.toNat f.data
      | .htp => h
      | .host va t irq => h.hostSent n c va t irq ts

/-- REORDER_HOLD_EXPIRY: a frame held for 100 µs is released. -/
def Eff.reorderExpiry (e : Eff) (n dir : Nat) (desc : MemAnswer) : Eff :=
  match Tbl.get (fun _ => []) (e.hw.link n).held dir with
  | [] => e
  | f :: rest =>
    if e.hw.elapsed < f.since + 100000 then e
    else
      let e := e.up fun h => h.updLink n fun l => { l with held := Tbl.put (fun _ => []) l.held dir rest }
      if dir = 1 then e.dispatch n f.data (BitVec.ofNat 72 f.time) desc else e.up fun h => (h.out (.frame n 0 f.data false)).driveLanes n

/-! ### Ring tails (R438, R439) -/

/-- A write of a ring's TAIL: one more than 2^LOG2 ahead of HEAD is ignored. -/
def Hw.ringTail (h : Hw) (ctrl tail head : Nat) (v : Word) : Hw :=
  if 2 ^ h.regFld ctrl 7 4 < (v - h.reg head).toNat then h else h.setReg tail v

end Sys2Proof.Machine
end

