-- ==== Sys2Proof/Machine/Power.lean ====
section
/-!
DEFINITION. The Power Manager: operating points and the regulator, alert and temperature, droop, ageing, domains,
estimation, bubbles, the frequency lock (14_power_management.md R550 to R571).
-/
namespace Sys2Proof.Machine

open Sys2Proof

/-! ### Points and requests (R550 to R554) -/

/-- CUR_OP. -/
def Hw.curOp (h : Hw) : Nat := h.regFld Reg.pwrStatus 2 0

/-- VID(n) = NOM(n) + TRIM(n). -/
def Hw.vidOf (h : Hw) (n : Nat) : Nat := h.regFld (Reg.pwrVid n) 7 0 + h.regFld (Reg.pwrVid n) 15 8

/-- PWR_OP_REQ.OP as committed. -/
def Hw.opReq (h : Hw) : Nat := h.regFld Reg.pwrOpReq 2 0

def Hw.regFault (h : Hw) : Bool := h.regBit Reg.pwrStatus 11
def Hw.opLimit (h : Hw) : Nat := h.regFld Reg.pwrStatus 10 8

/-- The thermal point: it starts equal to PWR_OP_REQ.OP (R556). -/
def Hw.thermalPoint (h : Hw) : Nat := if h.power.thermalOn then h.power.thermal else h.opReq

/-- D (R554, R555, R571). -/
def Hw.desired (h : Hw) : Nat :=
  if h.regBit Reg.pwrStatus 12 || h.power.heldByPartner then 0
  else min (min h.opReq h.thermalPoint) (min h.opLimit (if h.regFault then h.curOp else 7))

/-- The agreed point, where a session is up and the Partner has reported its D (R569). -/
def Hw.agreed (h : Hw) : Option Nat := if h.session then h.power.partner.map fun d => min h.desired d else none

/-- The domain of physical core `p` is on. -/
def Hw.coreUp (h : Hw) (p : Nat) : Bool := h.regBit (Reg.pwrCoreUp (p / 32)) (p % 32)

/-- Cores with power. -/
def Hw.coresUp (h : Hw) : List Nat := (List.range 68).filter h.coreUp

/-- `n` hold cycles of a core: MX_HOLD counts them, and so does the clock of a core that issues (03 R135, 05 R171). They
are counted together as the hold begins (log entry 98). -/
def Hw.holdCycles (h : Hw) (p n : Nat) : Hw :=
  h.updBody p fun b =>
    let m := { b with mx := { b.mx with hold := b.mx.hold + BitVec.ofNat 64 n } }
    if b.canIssue then { m with held := m.held + n }.atRelease b.clock else m

/-- CCLK switches: a hold group of 8 cycles in every core. -/
def Hw.switchTo (h : Hw) (op : Nat) : Hw := h.coresUp.foldl (fun h p => h.holdCycles p 8) (h.setRegFld Reg.pwrStatus 2 0 op)

/-- SWITCHING. -/
def Hw.switching (h : Hw) (b : Bool) : Hw := h.setRegBit Reg.pwrStatus 14 b

/-- A voltage request: it starts when the handshake is idle, and else follows the one at work. After REG_FAULT there are
none. -/
def Hw.askVoltage (h : Hw) (code op : Nat) (goal : VoltGoal) : Hw :=
  if h.regFault then h.switching false
  else
    let now := h.elapsed
    h.updPower fun w =>
      if w.hand = .idle then { w with vid := code, vidOp := op, hand := .asked, goal, since := now }
      else { w with next := some (code, op, goal) }

/-- No voltage request is at work or waits. -/
def Power.quiet (w : Power) : Bool := w.hand == .idle && w.next.isNone

/-- A change to a lower point: CCLK first, then the voltage. -/
def Hw.lowerTo (h : Hw) (op : Nat) : Hw := ((h.switchTo op).switching true).askVoltage (h.vidOf op) op .lower

/-- A change to a higher point: the voltage first. -/
def Hw.raiseTo (h : Hw) (op : Nat) : Hw := (h.switching true).askVoltage (h.vidOf op) op (.raise op)

/-- OP0 at once: what is in progress is abandoned, and VID(0) is requested (R555). -/
def Hw.dropToZero (h : Hw) : Hw :=
  let h := if h.curOp = 0 then h else h.switchTo 0
  let h := h.updPower fun w => { w with goal := .abandoned, next := none, proposal := none }
  (h.switching true).askVoltage (h.vidOf 0) 0 .lower

/-! ### OP_EXCHANGE (R570) -/

/-- Send an OP_EXCHANGE frame. -/
def Hw.opSend (h : Hw) (kind op n tsw : Nat) : Hw :=
  h.htpSend HtpType.opExchange 0 (leBytes 1 kind ++ leBytes 1 op ++ leBytes 2 0 ++ leBytes 4 n ++ leBytes 8 tsw) []

/-- The engine acts as Lead. -/
def Hw.leads (h : Hw) : Bool := h.role == 1 || h.role == 3

/-! ### Reasons and reports (R567, R569) -/

/-- The active reasons of Table "Throttle reasons". -/
def Hw.reasons (h : Hw) : Nat :=
  let req := h.opReq
  let cap := (List.range 16).any fun p => h.regFld (Reg.pwrWork p) 26 24 != 0
  let partner := match h.agreed with
    | some a => decide (a < h.desired)
    | none => false
  cap.toNat + 2 * (decide (h.thermalPoint < req)).toNat + 4 * (h.regBit Reg.pwrStatus 12).toNat +
    8 * (h.regBit Reg.pwrStatus 13).toNat + 16 * partner.toNat + 32 * (decide (h.opLimit < req)).toNat +
    64 * (h.regFault && decide (h.curOp < req)).toNat

/-- DESIRED, LOCKED, the active reasons with the vector at an onset, and DESIRE when D has changed. -/
def Hw.throttle (h : Hw) : Hw :=
  let d := h.desired
  let h := h.setRegFld Reg.pwrStatus 6 4 d
  let h := h.setRegBit Reg.pwrStatus 15 (h.session && h.power.partnerRuns == some h.curOp)
  let old := h.regFld Reg.pwrThrStatus 6 0
  let now := h.reasons
  let h := h.setReg Reg.pwrThrStatus (BitVec.ofNat 32 now)
  let h := (List.range 7).foldl (fun h r =>
    if now.testBit r && !old.testBit r && h.regBit Reg.pwrIrq (16 + r) then h.irqOf Reg.pwrIrq 14 8 else h) h
  if h.session && h.power.reported != some d then
    (h.updPower fun w => { w with reported := some d }).opSend 0 d 0 0
  else h

/-- Each active reason counts one DCLK cycle. -/
def Hw.countReasons (h : Hw) : Hw :=
  let now := h.regFld Reg.pwrThrStatus 6 0
  (List.range 7).foldl (fun h r => if now.testBit r then h.addReg64 (Reg.pwrThrTime r) 1 else h) h

/-! ### Frequency lock (R569, R571) -/

/-- A derived time with CUT_CAL, in ns. -/
def Hw.cutNs (h : Hw) : Int := h.cutTime / (2 ^ 32 : Nat)

/-- The Lead proposes a point: a voltage that must rise is requested. -/
def Hw.propose (h : Hw) (op : Nat) : Hw :=
  let n := (h.power.lastN + 1) % 2 ^ 32
  let tsw := wrap 64 (h.cutNs + (h.regFld Reg.pwrPtnCtrl 15 0 * 1000 : Nat))
  let rise := decide (h.power.inForce < h.vidOf op) && decide (h.curOp < op)
  let h := h.updPower fun w => { w with lastN := n, proposal := some ⟨n, op, tsw, false, !rise, false, false⟩ }
  let h := h.opSend 1 op n tsw
  if rise then (h.switching true).askVoltage (h.vidOf op) op (.propose n) else h

/-- The Lead confirms a proposal once it holds READY and its own voltage in time, and else starts again. -/
def Hw.tryConfirm (h : Hw) : Hw :=
  match h.power.proposal with
  | none => h
  | some p =>
    if !h.leads || p.confirmed || !p.ready || !p.volt then h
    else if h.cutNs + 20000 ≤ p.tsw then
      ((h.updPower fun w => { w with proposal := some { p with confirmed := true } }).opSend 3 0 p.n 0).setRegFld
        Reg.pwrPtnStatus 15 0 (h.regFld Reg.pwrPtnStatus 15 0 + 1)
    else match h.agreed with
      | some a => if a = h.curOp then h.updPower fun w => { w with proposal := none } else h.propose a
      | none => h

/-- The own voltage of a proposal is there. -/
def Hw.proposalVolt (h : Hw) (n : Nat) : Hw :=
  match h.power.proposal with
  | none => h
  | some p =>
    if p.n ≠ n then h
    else
      let h := h.updPower fun w => { w with proposal := some { p with volt := true } }
      if h.leads then h.tryConfirm else h.opSend 2 0 n 0

/-- T_sw has come: the switch of an agreed proposal; one that is not confirmed leaves the frequency. -/
def Hw.proposalTime (h : Hw) (p : Proposal) : Hw :=
  let ok := p.confirmed && (!h.leads || p.acked)
  let h := (h.updPower fun w => { w with proposal := none, partnerRuns := if ok then some p.op else w.partnerRuns }).switching
    (!h.power.quiet)
  if !ok || p.op = h.curOp then h else if p.op < h.curOp then h.lowerTo p.op else h.switchTo p.op

/-- A change of point that is due is decided. -/
def Hw.decide_ (h : Hw) : Hw :=
  if h.session then
    match h.power.proposal with
    | some p =>
      if (p.tsw : Int) ≤ h.cutNs then h.proposalTime p
      else if h.leads && !p.confirmed && h.power.quiet && decide (p.tsw < h.cutNs + 20000) then
        match h.agreed with
        | some a => if a = h.curOp then h.updPower fun w => { w with proposal := none } else h.propose a
        | none => h
      else h
    | none =>
      match h.agreed with
      | some a => if h.leads && h.power.quiet && a ≠ h.curOp then h.propose a else h
      | none => h
  else if !h.power.quiet then h
  else
    let d := h.desired
    if d < h.curOp then h.lowerTo d
    else if h.curOp < d && !h.regFault then h.raiseTo d
    else h

/-- OP_CHANGE. -/
def Hw.opChange (h : Hw) : Hw := if h.boot.good then h.throttle.decide_.throttle else h

/-- Process the oldest accepted frame when it is OP_EXCHANGE of a kind. -/
def Eff.opTake (e : Eff) (kind : Nat) (f : Hw → List Byte → Hw) : Eff :=
  match e.hw.partner.inbox with
  | b :: _ =>
    if leField b 16 1 = kind then e.htpTake HtpType.opExchange fun e b => e.up fun h => (f h b).throttle.htpPump else e
  | [] => e

/-- OP_DESIRE: the Partner's D; it ends the hold of an ALERT. -/
def Eff.opDesire (e : Eff) : Eff :=
  e.opTake 0 fun h b => h.updPower fun w => { w with partner := some (leField b 17 1), heldByPartner := false }

/-- OP_PROPOSE. -/
def Eff.opPropose (e : Eff) : Eff :=
  e.opTake 1 fun h b =>
    let op := leField b 17 1
    let n := leField b 20 4
    let rise := decide (h.power.inForce < h.vidOf op) && decide (h.curOp < op)
    let h := h.updPower fun w => { w with proposal := some ⟨n, op, leField b 24 8, false, !rise, false, false⟩ }
    if rise then (h.switching true).askVoltage (h.vidOf op) op (.propose n) else h.opSend 2 0 n 0

/-- OP_READY. -/
def Eff.opReady (e : Eff) : Eff :=
  e.opTake 2 fun h b =>
    let n := leField b 20 4
    (h.updPower fun w => { w with proposal := w.proposal.map fun p => if p.n = n then { p with ready := true } else p }).tryConfirm

/-- OP_CONFIRM: accepted before T_sw. -/
def Eff.opConfirm (e : Eff) : Eff :=
  e.opTake 3 fun h b =>
    match h.power.proposal with
    | some p =>
      if p.n = leField b 20 4 && decide (h.cutNs < p.tsw) && !p.confirmed then
        (h.updPower fun w => { w with proposal := some { p with confirmed := true } }).setRegFld Reg.pwrPtnStatus 15 0
          (h.regFld Reg.pwrPtnStatus 15 0 + 1)
      else h
    | none => h

/-- OP_ALERT: the Partner has dropped to OP0 (R571). -/
def Eff.opAlert (e : Eff) : Eff :=
  e.opTake 4 fun h _ => (h.updPower fun w => { w with heldByPartner := true }).dropToZero

/-- A heartbeat shows the Partner's running point: two points with no proposal outstanding go to the lower (R571). -/
def Hw.partnerPoint (h : Hw) (op : Nat) : Hw :=
  let h := h.updPower fun w => { w with partnerRuns := some op }
  if op = h.curOp || h.power.proposal.isSome then h
  else
    let h := h.satRegFld Reg.pwrPtnStatus 31 16 1
    if op < h.curOp then (h.lowerTo op) else h.updPower fun w => { w with partnerRuns := some h.curOp }

/-! ### The regulator (R551 to R555) -/

/-- PWR_ACK changes: at its rise the rail has settled and PWR_REQ falls; at its fall the next request may start. -/
def Hw.pwrAck (h : Hw) (level : Bool) : Hw :=
  let w := h.power
  if level then
    if w.hand ≠ .asked then h
    else
      let h := h.updPower fun w => { w with hand := .acked, inForce := w.vid }
      let h := match w.goal with
        | .raise op => (h.switchTo op).switching w.next.isSome
        | .lower => h.switching w.next.isSome
        | .propose n => h.proposalVolt n
        | _ => h
      h.throttle
  else if w.hand ≠ .acked then h
  else
    let h := h.updPower fun w => { w with hand := .idle, next := none }
    match w.next with
    | some (code, op, goal) => h.askVoltage code op goal
    | none => h

/-- PWR_ACK_TIMEOUT: no acknowledgement within 1 ms. -/
def Hw.pwrAckTimeout (h : Hw) : Hw :=
  if h.power.hand = .asked && decide (h.power.since + 1000000 ≤ h.elapsed) then
    ((h.updPower fun w => { w with hand := .idle, next := none, goal := .abandoned }).setRegBit Reg.pwrStatus 11 true).switching
      false |>.throttle
  else h

/-- PWR_ALERT_N is low: OP0, and D counts as OP0. -/
def Hw.alertDrop (h : Hw) : Hw :=
  let h := (h.setRegBit Reg.pwrStatus 12 true).dropToZero
  (if h.session then h.opSend 4 0 0 0 else h).throttle

/-- PWR_ALERT. -/
def Hw.pwrAlert (h : Hw) : Hw := if h.boot.good then h.alertDrop else h

/-- ALERT_RELEASE: PWR_ALERT_N has been high for 1 ms. -/
def Hw.alertRelease (h : Hw) : Hw := if h.boot.good then (h.setRegBit Reg.pwrStatus 12 false).throttle else h

/-! ### Temperature (R556) -/

/-- The sensor of a physical core; a Kitty core uses that of the nearest core stop (06 Table "Edge stops"). -/
def sensorOf (p : Nat) : Nat := if p < 64 then p / 8 / 2 * 4 + p % 8 / 2 else [2, 11, 13, 4].getD (p - 64) 0

/-- PWR_TEMPs of a sensor in 1/16 °C. -/
def Hw.temp (h : Hw) (s : Nat) : Int := signed 16 (h.reg (Reg.pwrTemp s)).toNat

/-- Sensors whose reading is at least a number of °C. -/
def Hw.sensorsAt (h : Hw) (c : Int) : List Nat := (List.range 17).filter fun s => decide (16 * c ≤ h.temp s)

/-- The hottest sensor, the lowest-numbered among equals. -/
def Hw.hottest (h : Hw) : Nat := (List.range 17).foldl (fun m s => if h.temp m < h.temp s then s else m) 0

/-- The thermal point moves. -/
def Hw.thermalMove (h : Hw) : Hw :=
  let now := h.elapsed
  let hot := !(h.sensorsAt (h.regFld Reg.pwrTherm 7 0)).isEmpty
  let cool := (h.sensorsAt ((h.regFld Reg.pwrTherm 7 0 : Int) - h.regFld Reg.pwrTherm 15 8)).isEmpty
  let point := h.thermalPoint
  let req := h.opReq
  let fall := hot && (match h.power.fell with | some t => decide (t + 1000000 ≤ now) | none => true)
  let rise := cool && (match h.power.rose with | some t => decide (t + 10000000 ≤ now) | none => false)
  h.updPower fun w =>
    { w with
      thermalOn := true
      thermal := if fall then point - 1 else if rise then max point (min req (point + 1)) else point
      fell := if !hot then none else if fall then some now else w.fell
      rose := if !cool then none else if rise || w.rose.isNone then some now else w.rose }

/-- THERMAL_SAMPLE: the sensors read `temps`, to which the offsets of kind 2 are added. -/
def Hw.thermalSample (h : Hw) (temps : List (BitVec 16)) : Hw :=
  if !h.boot.good then h
  else
    let trip : Int := h.regFld Reg.pwrTherm 23 16
    let before := !(h.sensorsAt trip).isEmpty
    let h := (List.range 17).foldl (fun h s =>
      match temps[s]? with
      | some t => h.setReg (Reg.pwrTemp s) (BitVec.ofNat 32 ((t.toNat + h.power.offsets.getD s 0) % 2 ^ 16))
      | none => h) h
    let m := h.hottest
    let h := h.setReg Reg.pwrTempMax (BitVec.ofNat 32 (m * 2 ^ 16 + (h.reg (Reg.pwrTemp m)).toNat))
    let h := h.thermalMove.throttle
    match h.sensorsAt trip with
    | s :: _ => if before then h else h.alertDrop.checkerA 0x09 s
    | [] => h

/-! ### Droop and ageing (R557, R559) -/

/-- DROOP_DETECT: CCLK stretches; no count changes. -/
def Hw.droopDetect (h : Hw) : Hw := if h.boot.good then (h.setRegBit Reg.pwrStatus 13 true).throttle else h

/-- DROOP_STRETCH_END. -/
def Hw.droopEnd (h : Hw) : Hw := (h.setRegBit Reg.pwrStatus 13 false).throttle

/-- AGEING_CHECK: `low` when a monitor's margin at the running point is below the part's threshold. -/
def Hw.ageingCheck (h : Hw) (low : Bool) : Hw :=
  if !low || !h.boot.good then h
  else
    let n := h.curOp
    let trim (m : Nat) : Nat := h.regFld (Reg.pwrVid m) 15 8
    let h' := if trim n < 10 then
        let h := (List.range 8).foldl (fun h m =>
          if n ≤ m && decide (trim m < 10) then h.setRegFld (Reg.pwrVid m) 15 8 (trim m + 1) else h) h
        h.askVoltage (h.vidOf n) n .voltage
      else h.setRegFld Reg.pwrStatus 10 8 (n - 1)
    (h'.updCoffer fun c => { c with due := if c.due.contains 2 then c.due else c.due ++ [2] }).throttle

/-! ### Domains (R560, R561) -/

/-- The domain of a core goes off: the core loses what it holds, and every granule is off. -/
def Hw.coreOff (h : Hw) (p : Nat) : Hw :=
  let h := (h.setRegBit (Reg.pwrCoreUp (p / 32)) (p % 32) false).setReg (Reg.pantryGranuleState p) 0
  let h := h.setCore p { body := { CoreBody.reset with mx := (h.body p).mx.cleared }, bundle := none }
  let h := h.updCaller fun c => { c with codes := Tbl.put (fun _ => none) c.codes p none }
  let h := h.updLoft fun l => { l with granules := l.granules.filter fun g => g / 16 != p }
  h.updSafety fun s => { s with passed := s.passed.filter (· != p) }

/-- Another domain goes off. -/
def Eff.unitOff (e : Eff) (b : Nat) : Eff :=
  let e := e.up fun h => h.setRegBit Reg.pwrUnitUp b false
  if b < 16 then e.up fun h => h.updLoft fun l => { l with lines := l.lines.filter fun x => x.slice != b }
  else if b = 22 ∨ b = 23 then
    let n := b - 22
    (e.portDown n).up fun h =>
      ((h.setRegFld (Reg.lnkStatus n) 3 0 0).updLink n fun l => { l with queues := [], sending := none, held := [] }).driveLanes n
  else if 16 ≤ b ∧ b < 22 then e.up fun h => h.setOffer (b - 16) 0
  else e

/-- Domains that were to go off at a boundary of their own do so there. -/
def Eff.settleDomains (e : Eff) : Eff :=
  let h := e.hw
  let ready (d : Nat) : Bool := if d < 100 then !(h.body d).loaded else decide (124 ≤ d) && (h.gatherQ (d - 124)).isEmpty
  let go := h.power.falling.filter ready
  let e := e.up fun h => h.updPower fun w => { w with falling := w.falling.filter fun d => !go.contains d }
  e.each go fun e d => if d < 100 then e.up fun h => h.coreOff d else e.unitOff (d - 100)

/-- One domain follows its enable bit. -/
def Eff.domainTo (e : Eff) (d : Nat) (want up : Bool) : Eff :=
  let now := decide (100 ≤ d) && decide (d < 124)
  if want then
    e.up fun h => h.updPower fun w =>
      { w with falling := w.falling.filter (· != d), rising := if up || w.rising.contains d then w.rising else w.rising ++ [d] }
  else
    let e := e.up fun h => h.updPower fun w =>
      { w with rising := w.rising.filter (· != d),
               falling := if up && !now && !w.falling.contains d then w.falling ++ [d] else w.falling }
    if up && now then e.unitOff (d - 100) else e

/-- The domains follow the committed PWR_CORE_EN and PWR_UNIT_EN. -/
def Eff.domainsCommit (e : Eff) : Eff :=
  let e := e.each (List.range e.hw.inService) fun e l =>
    let p := e.hw.phys l
    e.domainTo p ((e.hw.reg64 Reg.pwrCoreEn).testBit l) (e.hw.coreUp p)
  (e.each (List.range 28) fun e b => e.domainTo (100 + b) (e.hw.regBit Reg.pwrUnitEn b && !e.hw.loft.slicesOff.contains b) (e.hw.unitUp b)).settleDomains

/-- A core's domain is on and cleared. -/
def Eff.coreOn (e : Eff) (p : Nat) : Eff :=
  (e.write (.clear (pantryAddr p 0) (pantryAddr p (2 ^ 22)))).up fun h =>
    let h := h.setCore p { body := { CoreBody.reset with run := .idle, mx := (h.body p).mx.cleared }, bundle := none }
    let h := h.updCaller fun c => { c with codes := Tbl.put (fun _ => none) c.codes p none }
    let h := h.updSafety fun s => { s with passed := s.passed.filter (· != p) }
    (h.setRegBit (Reg.pwrCoreUp (p / 32)) (p % 32) true).setReg (Reg.pantryGranuleState p)
      (BitVec.ofNat 32 (h.regFld (Reg.pantryGranuleEn p) 15 0))

/-- Another domain is on, in the state of Table "Domain changes". -/
def Eff.unitOn (e : Eff) (b : Nat) : Eff :=
  let e := e.up fun h => h.setRegBit Reg.pwrUnitUp b true
  if b < 16 then
    (e.write (.clear (loftAddr (b * 2 ^ 17)) (loftAddr ((b + 1) * 2 ^ 17)))).up fun h =>
      h.updLoft fun l => { l with lines := l.lines.filter fun x => x.slice != b }
  else e

/-- DOMAIN_POWER_UP_DONE. -/
def Eff.domainUp (e : Eff) (d : Nat) : Eff :=
  if e.hw.power.rising.contains d then
    let e := e.up fun h => h.updPower fun w => { w with rising := w.rising.filter (· != d) }
    if d < 100 then e.coreOn d else e.unitOn (d - 100)
  else e

/-! ### Estimation (R562 to R568) -/

/-- The largest r with r at most a × 2^(k/16). -/
def scaleSixteenth (a : Nat) (k : Int) : Nat :=
  let ok (r : Nat) : Bool :=
    if 0 ≤ k then decide (r ^ 16 ≤ a ^ 16 * 2 ^ k.toNat) else decide (r ^ 16 * 2 ^ (-k).toNat ≤ a ^ 16)
  (List.range 40).reverse.foldl (fun r b => if ok (r + 2 ^ b) then r + 2 ^ b else r) 0

/-- V in mV. -/
def Hw.milliVolt (h : Hw) : Nat := 400 + 5 * h.power.inForce

/-- Static power of a domain of a class at a temperature in 1/16 °C. -/
def Hw.static (h : Hw) (cls : Nat) (t : Int) : Nat :=
  scaleSixteenth (h.regFld (Reg.pwrLeak cls) 17 0 * h.milliVolt / 950) (t / 16 - 85)

/-- Dynamic power of event counts. -/
def Hw.dynamic (h : Hw) (n : List Nat) : Nat :=
  let energy := ((List.range 12).map fun e => h.regFld (Reg.pwrWeight e) 19 0 * n.getD e 0).sum
  energy * h.milliVolt * h.milliVolt / (950 * 950) / 256 / 2048

/-- Static power of a partition: its powered cores. -/
def Hw.staticOf (h : Hw) (part : Option Nat) : Nat :=
  ((h.coresUp.filter fun p => (h.logicalOf p).bind h.partOf == part).map fun p => h.static 0 (h.temp (sensorOf p))).sum

/-- Static power of the uncore. -/
def Hw.staticUncore (h : Hw) : Nat :=
  let hot := h.temp h.hottest
  let units (lo n cls : Nat) : Nat := ((List.range n).filter fun k => h.unitUp (lo + k)).length * h.static cls hot
  h.staticOf none + units 0 16 1 + units 16 6 2 + units 22 2 3 + units 24 4 4 + h.static 5 hot

/-- The demand of a partition (R564). -/
def Hw.demand (h : Hw) (p before : Nat) : Nat :=
  let alloc := h.regFld (Reg.pwrAlloc p) 17 0
  if !h.regBit Reg.pwrCtrl 1 then before
  else match h.kernel? p with
    | none => alloc
    | some k =>
      let cores := (h.partCores p).length
      match h.power.learn.find? fun x => x.1 == k.job.kernelId && x.2.1 == cores with
      | some x => x.2.2
      | none => alloc

/-- B_p of the next interval (R565). -/
def bubblesNext (b static dynamic work : Nat) : Nat :=
  if dynamic = 0 then 0
  else
    let num : Int := (((static : Int) - work) * (8 - b : Int))
    (clampInt 0 7 (8 + -((-num) / (dynamic : Int)))).toNat

/-- POWER_ESTIMATE: `events` are the counts of the interval, of partitions 0 to 15 and then of the uncore. -/
def Hw.powerEstimate (h : Hw) (events : List (List Nat)) : Hw :=
  if !h.boot.good then h
  else
    let en := (List.range 16).filter h.partEn
    let est := en.map fun p => (p, h.staticOf (some p), h.dynamic ((events.getD p []).take 6))
    let unc := h.staticUncore + h.dynamic (events.getD 16 [])
    let total := unc + (est.map fun x => x.2.1 + x.2.2).sum
    let alloc (p : Nat) : Nat := h.regFld (Reg.pwrAlloc p) 17 0
    let spare := h.regFld Reg.pwrCap 17 0 - max unc (h.regFld Reg.pwrUncoreRes 17 0) - (en.map alloc).sum
    let wish (p : Nat) : Nat := h.demand p (h.regFld (Reg.pwrPest p) 17 0) - alloc p
    let wishes := ((en.filter fun p => !h.partSafety p).map wish).sum
    let work (p : Nat) : Nat :=
      if h.partSafety p || wishes = 0 then alloc p else alloc p + spare * wish p / wishes
    let works := en.map fun p => (p, work p)
    let h' := est.foldl (fun (h' : Hw) x =>
      let p := x.1
      let w := (works.find? fun y => y.1 == p).elim 0 Prod.snd
      let b := h.regFld (Reg.pwrWork p) 26 24
      let next := if h.regBit Reg.pwrCtrl 0 then bubblesNext b x.2.1 x.2.2 w else 0
      let h' := (h'.setReg (Reg.pwrPest p) (BitVec.ofNat 32 (min (2 ^ 18 - 1) (x.2.1 + x.2.2)))).setRegFld (Reg.pwrWork p) 17 0
        (min (2 ^ 18 - 1) w)
      let runs := ((h.kernel? p).map fun k => k.phase == 2).getD false
      h'.updPower fun v =>
        { v with bubbles := Tbl.put (fun _ => 0) v.bubbles p next
                 sums := if runs then Tbl.upd (fun _ => (0, 0)) v.sums p fun y => (y.1 + x.2.1 + x.2.2, y.2 + 1) else v.sums }) h
    let h' := ((List.range 16).filter fun p => !en.contains p).foldl (fun (h' : Hw) p =>
      ((h'.setReg (Reg.pwrPest p) 0).setRegFld (Reg.pwrWork p) 17 0 0).updPower fun v =>
        { v with bubbles := Tbl.put (fun _ => 0) v.bubbles p 0 }) h'
    let h' := (h'.setReg Reg.pwrEst (BitVec.ofNat 32 (min (2 ^ 18 - 1) total))).setReg Reg.pwrEstUncore
      (BitVec.ofNat 32 (min (2 ^ 18 - 1) unc))
    let pj := h'.power.energyRem + total * 2048
    ((h'.addReg64 Reg.pwrEnergy (pj / 10 ^ 6)).updPower fun w => { w with energyRem := pj % 10 ^ 6 }).throttle

/-- BUBBLE_FRAME_START of a partition: the count that waits takes effect, and the held groups of the frame are hold
cycles of its cores (R565, R566). -/
def Hw.bubbleFrame (h : Hw) (p : Nat) : Hw :=
  let b := if h.regBit Reg.pwrCtrl 0 then Tbl.get (fun _ => 0) h.power.bubbles p else 0
  let h := h.setRegFld (Reg.pwrWork p) 26 24 b
  let h := if h.partEn p then (h.partPhys p).foldl (fun h c => h.holdCycles c (8 * b)) h else h
  (h.addReg64 (Reg.pwrBubble p) (8 * b)).throttle

/-- LEARN_CLEAR. -/
def Hw.learnClear (h : Hw) : Hw := h.updPower fun w => { w with learn := [] }

/-- What the Power Manager does in each DCLK cycle. -/
def Eff.powerTick (e : Eff) : Eff := if e.hw.boot.good then e.settleDomains.up fun h => h.throttle.countReasons else e

end Sys2Proof.Machine
end

