-- ==== Sys2Proof/Machine/CommitCheck.lean ====
section
/-!
DEFINITION. The checks of a COMMIT: every rejection rule of every chapter (15_coffer_boot_configuration.md R597). `o` is the
engine at the effect point, `n` the same engine with the captured values committed. Each check that fails answers the
offsets of the registers of the set that take part in it.
-/
namespace Sys2Proof.Machine

open Sys2Proof

/-- The registers of a check that fails. -/
def fails (bad : Bool) (regs : List Nat) : List Nat := if bad then regs else []

/-- An RWS register whose committed value the set changes. -/
def changes (o n : Hw) (r : Nat) : Bool := o.reg r &&& BitVec.ofNat 32 (rwsMask r) != n.reg r &&& BitVec.ofNat 32 (rwsMask r)

/-- The registers of a list that the set changes. -/
def changed (o n : Hw) (rs : List Nat) : List Nat := rs.filter (changes o n)

/-- A number outside [lo, hi]. -/
def outside (lo hi v : Nat) : Bool := decide (v < lo) || decide (hi < v)

/-- FW_CTRL.LOCK. -/
def Hw.locked (h : Hw) : Bool := h.regBit Reg.fwCtrl 1

/-! ### Partitions (08 R336) -/

def checkParts (o n : Hw) : List Nat :=
  ((List.range 16).map fun p =>
    let core := Reg.partCore p
    let moved := changed o n [core, core + 4]
    ((List.range 16).map fun q =>
      fails (decide (p < q) && n.partEn p && n.partEn q && n.partMask p &&& n.partMask q != 0) [core]).flatten ++
    fails (n.partEn p && decide (2 ^ n.inService ≤ n.partMask p)) [core] ++
    (if o.partPlan p then moved ++ changed o n [Reg.partCtrl p] else []) ++
    fails (o.partEn p && !moved.isEmpty && !(o.regBit (Reg.partRun p) 31 && o.regBit (Reg.partRun p) 30)) [core]).flatten

/-! ### Loft and Gather Units (06 R246, R270) -/

/-- The ways that `words` Loft words from `base` touch. -/
def waysOf (base words : Nat) : List Nat :=
  if words = 0 then [] else
    (List.range ((base + words - 1) / wayWords + 1 - base / wayWords)).map fun k => (base / wayWords + k) % 16

/-- Words of a stream's ring and of its status ring: first word and length. -/
def Hw.ringsOf (h : Hw) (s : Nat) : List (Nat × Nat) :=
  [(h.regFld (Reg.scRingBase s) 20 0, h.scRing s * h.regFld (Reg.scRing s) 28 12), (h.regFld (Reg.scStatusBase s) 20 0, h.scRing s)]

/-- Enabled streams that have a ring in a way, and whether a way holds an open Loft Hatch. -/
def Hw.ringWays (h : Hw) (way : Nat) : List Nat :=
  (List.range 96).filter fun s => h.scEn s && h.scLoft s && (h.ringsOf s).any fun r => (waysOf r.1 r.2).contains way
def Hw.hatchWays (h : Hw) (way : Nat) : Bool :=
  (List.range 64).any fun k => let x := h.loftHatch k; x.isOpen && (waysOf x.base x.words).contains way

def wayMode (h : Hw) (w : Nat) : Nat := h.regFld (Reg.loftWay w) 9 8
def wayOwner (h : Hw) (w : Nat) : Nat := h.regFld (Reg.loftWay w) 3 0

def checkLoft (o n : Hw) : List Nat :=
  ((List.range 16).map fun w =>
    let moves := wayMode o w != wayMode n w || wayOwner o w != wayOwner n w
    fails (decide (2 ≤ wayMode n w) || (moves && o.hatchWays w)) [Reg.loftWay w] ++
    (if moves then (n.ringWays w).map Reg.scCtrl else [])).flatten ++
  ((List.range 4).map fun u =>
    fails (decide (2048 < ((List.range 16).map fun p => n.regFld (Reg.guReserve u p) 11 0).sum)) [Reg.guReserve u 0]).flatten

/-! ### Streams (07 R273, R278, R304) -/

/-- The registers of a stream context, its SC_CTRL first. -/
def streamRegs (s : Nat) : List Nat := (List.range 11).map fun k => Reg.scCtrl s + 4 * k

/-- The other fields of a stream change while EN stays 1. -/
def streamMoves (o n : Hw) (s : Nat) : List Nat :=
  let ctrl := Reg.scCtrl s
  if o.scEn s && n.scEn s then
    fails (o.regFld ctrl 31 1 != n.regFld ctrl 31 1) [ctrl] ++ changed o n ((streamRegs s).drop 1)
  else []

/-- The format and the width of a line stream agree, and an entry holds a line. -/
def lineFits (n : Hw) (s : Nat) : Bool :=
  let f := n.scFmt s
  let w := n.scWidth s
  (if f = 0x11 then w % 4 == 0 else if f = 0x12 ∨ f = 0x20 then w % 2 == 0 else true) && decide (w * storedPixel f ≤ n.scEntry s)

/-- Reserved zeros of an enabled stream. -/
def streamZeros (n : Hw) (s : Nat) : List Nat :=
  fails (n.scPositions s == 0) [Reg.scGeom s] ++
  fails (n.scEntry s == 0 || n.scRing s == 0) [Reg.scRing s] ++
  fails (n.regFld (Reg.scStripeLines s) 15 0 == 0) [Reg.scStripeLines s] ++
  fails (n.scKind s == 1 && n.reg (Reg.scAzRange s) == 0) [Reg.scAzRange s]

/-- Where an enabled stream's rings may lie. -/
def streamPlaces (n : Hw) (s : Nat) : List Nat :=
  let part := n.scPart s
  let stripe := n.reg (Reg.scStripe s)
  let first := fld stripe 5 0
  let last := first + fld stripe 13 8
  if n.scLoft s then
    fails ((n.ringsOf s).any fun r => decide (2 ^ 21 < r.1 + r.2) ||
      (waysOf r.1 r.2).any fun w => wayMode n w != 0 || wayOwner n w != part) [Reg.scCtrl s]
  else
    fails ((n.ringsOf s).any fun r => decide (2 ^ 17 < r.1 % 2 ^ 17 + r.2)) [Reg.scRing s] ++
    fails (decide (2 ^ 17 ≤ n.regFld (Reg.scRingBase s) 20 0)) [Reg.scRingBase s] ++
    fails (decide (2 ^ 17 ≤ n.regFld (Reg.scStatusBase s) 20 0)) [Reg.scStatusBase s] ++
    fails (decide (63 < last)) [Reg.scStripe s] ++
    fails (!n.partEn part || (List.range (last - first + 1)).any fun k => !(n.partMask part).testBit (first + k)) [Reg.partCore part]

/-- The port's domain and, for a link source, the link port's domain are on. -/
def streamPowered (o n : Hw) (s : Nat) : Bool :=
  let on (b : Nat) : Bool := o.unitUp b && n.regBit Reg.pwrUnitEn b
  on (16 + s / 16) && (n.scSrc s == 0 || on (21 + n.scSrc s))

def checkStreams (o n : Hw) : List Nat :=
  ((List.range 96).map fun s =>
    let ctrl := Reg.scCtrl s
    let kind := n.scKind s
    let src := n.scSrc s
    fails (kind == 3 || src == 3 || (kind == 0 && src != 0) || (kind == 1 && src == 0)) [ctrl] ++
    if !n.scEn s then []
    else
      streamMoves o n s ++ streamZeros n s ++ streamPlaces n s ++
      fails ((wireBytes (n.scFmt s) 0).isNone || (kind != 0 && n.scFmt s != 0)) [ctrl] ++
      fails (kind == 0 && !lineFits n s) [ctrl] ++
      fails (!streamPowered o n s) [Reg.pwrUnitEn]).flatten ++
  ((List.range 64).map fun k =>
    let l := k / 32
    let r := k % 32
    let c := n.reg (Reg.frCtrl l r)
    let s := fld c 6 0
    fails (bitOf c 8 && decide (95 < s)) [Reg.frCtrl l r] ++
    fails (bitOf c 8 && decide (s ≤ 95) && (n.scSrc s != 1 + l || n.scKind s == 0)) [Reg.scCtrl s]).flatten

/-! ### The firewall (09 R383) -/

def checkFirewall (o n : Hw) : List Nat :=
  ((List.range 64).map fun r =>
    let base := Reg.fwBase r
    fails (n.regBit (Reg.fwPerm r) 31 && decide (n.reg64 (Reg.fwLimit r) % 2 ^ 48 < n.reg64 base % 2 ^ 48)) [base] ++
    if o.locked then changed o n [base, base + 4, base + 8, base + 12, Reg.fwPerm r, Reg.fwMasks r] else []).flatten ++
  (if o.locked then changed o n [Reg.fwCtrl] else [])

/-! ### The Dealer (10 R416, R417) -/

def checkDealer (o n : Hw) : List Nat :=
  ((List.range 8).map fun g =>
    let (p, _, _) := genSettingsOf n.reg g
    fails (outside (100000 * unitNs) ((2 ^ 32 - 1) * unitNs) p) [Reg.egPeriodNs g]).flatten ++
  fails (o.regBit (Reg.egCtrl 0) 0 && !n.regBit (Reg.egCtrl 0) 0) [Reg.egCtrl 0] ++
  ((List.range 16).map fun k =>
    let c := n.reg (Reg.fsCtrl k)
    let g := fld c 2 0
    let p := (genSettingsOf n.reg g).1
    let phase := (n.reg (Reg.fsPhase k)).toNat * unitNs
    let width := (n.reg (Reg.fsWidth k)).toNat * unitNs
    fails (bitOf c 4 && (decide (p ≤ phase) || decide (p ≤ width))) [Reg.egPeriodNs g] ++
    fails (bitOf c 4 && width == 0) [Reg.fsCtrl k]).flatten

/-! ### Links and the Partnership (11 R443, R445, R480, R481) -/

/-- A signed byte outside [lo, 4]. -/
def expOutside (lo : Int) (v : Nat) : Bool := decide (signed 8 v < lo) || decide (4 < signed 8 v)

def checkLink (n : Hw) (l : Nat) : List Nat :=
  let ctrl := Reg.lnkCtrl l
  let gcl := n.reg (Reg.gclCtrl l)
  let as_ := n.reg (Reg.asCtrl l)
  let idle := ((List.range 8).map fun c => if n.regBit (Reg.cbsIdle l c) 31 then n.regFld (Reg.cbsIdle l c) 26 0 else 0).sum
  fails (fld (n.reg ctrl) 1 0 == 3 || fld (n.reg ctrl) 6 5 == 3) [ctrl] ++
  fails (fld (n.reg ctrl) 6 5 != 0 && n.reg64 (Reg.asClockid l) == 0) [ctrl] ++
  fails (decide (n.linkRate l < idle)) [ctrl] ++
  fails (outside 1518 9600 (n.regFld (Reg.lnkMaxframe l) 13 0)) [Reg.lnkMaxframe l] ++
  fails (outside 1 256 (fld gcl 8 0)) [Reg.gclCtrl l] ++
  fails (decide ((n.reg (Reg.gclCycle l)).toNat < 1000)) [Reg.gclCycle l] ++
  fails (bitOf gcl 31 && (List.range (fld gcl 8 0)).any fun e => n.reg (Reg.gclInterval l e) == 0) [Reg.gclCtrl l] ++
  fails (expOutside (-3) (fld as_ 23 16) || expOutside (-7) (fld as_ 15 8) || expOutside (-7) (fld as_ 7 0)) [Reg.asCtrl l]

def checkPartner (n : Hw) : List Nat :=
  fails (n.regFld Reg.ptnCtrl 11 8 == 0) [Reg.ptnCtrl] ++
  fails (decide (64 < n.regFld Reg.mirrorCount 6 0)) [Reg.mirrorCount] ++
  fails (outside 1 16 (n.regFld Reg.htpCfg 20 16)) [Reg.htpCfg] ++
  fails (outside 1 1024 (n.regFld Reg.htpWin 10 0)) [Reg.htpWin] ++
  fails (n.regFld Reg.htpRto 15 0 == 0) [Reg.htpRto] ++
  fails (n.regFld Reg.htpRetry 7 0 == 0) [Reg.htpRetry] ++
  fails (outside 1000 1000000 (n.regFld Reg.cutLead 19 0)) [Reg.cutLead] ++
  ((List.range 4).map fun k =>
    fails (n.regBit (Reg.peerCtrl k) 0 && n.reg64 (Reg.peerMac k) % 2 ^ 48 == 0) [Reg.peerCtrl k]).flatten

/-! ### Safety (12 R489, R496, R520) -/

/-- The partitions that the enabled pairs name. -/
def Hw.pairParts (h : Hw) : List Nat := ((List.range 16).map fun p => match h.copyOf p with | some c => [p, c] | none => []).flatten

def checkSafety (o n : Hw) : List Nat :=
  fails (decide ((n.reg (Reg.egPeriodNs 0)).toNat < (n.reg Reg.jkOffset).toNat + 7 * (n.reg Reg.jkSpacing).toNat +
    63 * (n.reg Reg.jkStagger).toNat + 100000)) [Reg.jkOffset] ++
  ((List.range 16).map fun p =>
    match n.copyOf p with
    | none => []
    | some c =>
      let ok (q : Nat) : Bool := n.partEn q && n.partSafety q
      fails (!(ok p && ok c)) [Reg.partCtrl (min p c)] ++
      fails ((n.partCores p).length != (n.partCores c).length) [Reg.partCore (min p c)] ++
      fails (p == c || decide (1 < n.pairParts.count p) || decide (1 < n.pairParts.count c)) [Reg.redealPair p]).flatten ++
  ((List.range 32).map fun k =>
    let a := n.reg (Reg.ageSlot k)
    fails (bitOf a 31 && (o.queue? (fld a 9 0)).isNone) [Reg.ageSlot k]).flatten ++
  if o.locked && !o.regBit Reg.smMode 0 then
    changed o n ([Reg.jkOffset, Reg.jkSpacing, Reg.jkStagger] ++ (List.range 16).map Reg.redealPair ++ (List.range 32).map Reg.ageSlot)
  else []

/-! ### Power (14 R560, R563, R572) -/

/-- What a unit that PWR_UNIT_EN powers off still serves: the registers of it. -/
def unitServes (n : Hw) (b : Nat) : List Nat :=
  if b < 16 then (((List.range 16).filter fun w => wayMode n w == 0 && n.partEn (wayOwner n w)).map (wayOwner n)).map Reg.partCtrl
  else if b < 22 then if (List.range 16).any fun k => n.scEn (16 * (b - 16) + k) then [Reg.pwrUnitEn] else []
  else if b < 24 then
    fails (n.regBit (Reg.lnkCtrl (b - 22)) 3 || (List.range 4).any fun k => n.regBit (Reg.peerCtrl k) 0 && n.peerPort k == b - 22)
      [Reg.pwrUnitEn]
  else ((List.range 16).filter fun p => n.partEn p && n.regFld (Reg.guReserve (b - 24) p) 11 0 != 0).map Reg.partCtrl

def checkPower (o n : Hw) : List Nat :=
  let cap := n.regFld Reg.pwrCap 17 0
  let res := n.regFld Reg.pwrUncoreRes 17 0
  let therm := n.reg Reg.pwrTherm
  let parts := (List.range 16).filter n.partEn
  let alloc := (parts.map fun p => n.regFld (Reg.pwrAlloc p) 17 0).sum
  ((List.range 64).map fun l =>
    fails ((o.reg64 Reg.pwrCoreEn).testBit l && !(n.reg64 Reg.pwrCoreEn).testBit l && (n.partOf l).isSome)
      [Reg.partCore ((n.partOf l).getD 0)]).flatten ++
  ((List.range 28).map fun b =>
    if o.regBit Reg.pwrUnitEn b && !n.regBit Reg.pwrUnitEn b then unitServes n b else []).flatten ++
  fails (outside 15000 260000 cap || decide (cap < res)) [Reg.pwrCap] ++
  fails (decide (cap < alloc + res)) ((parts.map Reg.partCtrl) ++ [Reg.pwrCap]) ++
  fails (decide (135 < fld therm 23 16) || decide (fld therm 23 16 ≤ fld therm 7 0)) [Reg.pwrTherm] ++
  fails (outside 20 100 (n.regFld Reg.pwrDroop 7 0) || n.regFld Reg.pwrDroop 15 8 == 0) [Reg.pwrDroop] ++
  fails (outside 50 10000 (n.regFld Reg.pwrPtnCtrl 15 0)) [Reg.pwrPtnCtrl] ++
  if o.locked then changed o n (Reg.pwrTherm :: ((List.range 16).filter o.partPlan).map Reg.pwrAlloc) else []

/-- Every check: the offsets of the registers that take part in one that fails. -/
def conflicts (o n : Hw) : List Nat :=
  checkParts o n ++ checkLoft o n ++ checkStreams o n ++ checkFirewall o n ++ checkDealer o n ++
  checkLink n 0 ++ checkLink n 1 ++ checkPartner n ++ checkSafety o n ++ checkPower o n

end Sys2Proof.Machine
end

