-- ==== Sys2Proof/Machine/Joker.lean ====
section
/-!
DEFINITION. The content of the Joker's segments and the golden signatures (12_functional_safety.md R491 to R493).
-/
namespace Sys2Proof

/-- A class of Table "Joker classes": formats of activation and weight, steps, E_acc. -/
structure JokerClass where
  act : Nat
  wt : Nat
  steps : Nat
  eacc : Int

/-- Table "Joker classes". -/
def jokerClass : Nat → JokerClass
  | 0 => ⟨0, 0, 440, 0⟩
  | 1 => ⟨4, 4, 440, -18⟩
  | 2 => ⟨5, 4, 440, -25⟩
  | 3 => ⟨9, 11, 440, -12⟩
  | 4 => ⟨10, 10, 440, -6⟩
  | 5 => ⟨1, 2, 440, 0⟩
  | 6 => ⟨12, 12, 110, -22⟩
  | _ => ⟨13, 13, 110, -28⟩

/-- The value u of R492. -/
def jokerU (k step t i : Nat) : Nat :=
  (shuffle (BitVec.ofNat 64 (0x4A4B455200000000 + k)) (BitVec.ofNat 64 step) (BitVec.ofNat 32 t) (BitVec.ofNat 32 i)).toNat

/-- The exponent field of a 16-bit element is replaced by bias - 4 plus its value mod 8. -/
def jokerExponent (fmt raw : Nat) : Nat :=
  if fmt = 12 then raw / 2 ^ 15 * 2 ^ 15 + (123 + raw / 2 ^ 7 % 8) * 2 ^ 7 + raw % 2 ^ 7
  else if fmt = 13 then raw / 2 ^ 15 * 2 ^ 15 + (11 + raw / 2 ^ 10 % 8) * 2 ^ 10 + raw % 2 ^ 10
  else raw

/-- An operand element: a special value becomes the encoding 0, and the exponents of 16-bit elements are replaced. -/
def jokerElem (k fmt step t i : Nat) : Elem :=
  let raw := jokerU k step t i % 2 ^ fmtBits fmt
  let raw := if (decodeElem fmt raw).special then 0 else raw
  decodeElem fmt (jokerExponent fmt raw)

/-- The scale byte of a block: 127 where the format has none. -/
def jokerScale (k fmt block t i : Nat) : Nat := if fmtIsMx fmt then 0x7E + jokerU k block t i % 4 else 127

/-- Products per cell in a step, and the block of a step. -/
def JokerClass.products (c : JokerClass) : Nat := if fmtClass c.act = 1 ∧ fmtClass c.wt = 1 then 2 else 1

/-- A cell of the Joker accumulator of array `a` after a segment. -/
def jokerCell (k a r n : Nat) : Acc :=
  let c := jokerClass k
  let two := c.products
  (List.range c.steps).foldl (fun (acc : Acc) j =>
    let block := j * two / 32
    (List.range two).foldl (fun (acc : Acc) e =>
      (mac acc (jokerElem k c.act j 0 (r + 64 * e)) (jokerElem k c.wt j (1 + a) (n + 32 * e))
        (jokerScale k c.act block 5 0) (jokerScale k c.wt block 6 a) c.eacc).1) acc) Acc.zero

/-- The signature of class k: the CRC-32 over the drained bytes. -/
def jokerGolden (k : Nat) : Word :=
  crc32 (((List.range 4).map fun a => ((List.range 64).map fun r => ((List.range 32).map fun n =>
    leBytes 8 (drainI64 (jokerCell k a r n)).1.toNat).flatten).flatten).flatten)

end Sys2Proof
end

