-- ==== Sys2Proof/Machine/Safe.lean ====
section
/-!
DEFINITION. The Safety Monitor: Joker segments, Redeal comparison, suspects, verdicts, rings, SAFE_ERR, the Latent Fault
Check and validation injection (12_functional_safety.md R485 to R518).
-/
namespace Sys2Proof.Machine

open Sys2Proof

/-! ### Suspects (R503) -/

/-- SUSPECT_CNT of a core follows the events within the window of 16 epochs. -/
def Hw.suspectCount (h : Hw) (p : Nat) : Nat := (h.safety.suspects.filter fun x => x.1 == p).length

/-- Events that have left the window go, and every count follows. -/
def Hw.suspectWindow (h : Hw) : Hw :=
  let now := h.epoch
  let h := h.updSafety fun s => { s with suspects := s.suspects.filter fun x => decide (now < x.2 + 16) }
  (List.range 68).foldl (fun h p => h.setRegFld (Reg.suspectCnt p) 3 0 (min 15 (h.suspectCount p))) h

/-- An event names a core; two within the window retire it at the next boundary. -/
def Hw.suspect (h : Hw) (p : Nat) : Hw :=
  let now := h.epoch
  let h := (h.updSafety fun s => { s with suspects := s.suspects ++ [(p, now)] }).suspectWindow
  let h := h.setRegFld (Reg.suspectCnt p) 19 4 (now % 2 ^ 16)
  if 2 ≤ h.suspectCount p && !h.safety.retire.contains p then h.updSafety fun s => { s with retire := s.retire ++ [p] } else h

/-! ### Joker (R488 to R495) -/

/-- Cause codes of JK_FAIL. -/
def jkSignature : Nat := 0
def jkMissed : Nat := 1
def jkInjected : Nat := 2

/-- JOKER_FAIL of segment k on physical core p, which serves logical index l (R493, R494). -/
def Eff.jokerFail (e : Eff) (l p k cause : Nat) : Eff :=
  let now := e.hw.epoch
  let e := e.up fun h =>
    let h := if h.safety.jkFailed then h else
      h.setReg Reg.jkFail (BitVec.ofNat 32 (2 ^ 31 + cause * 2 ^ 29 + k * 2 ^ 26 + now % 2 ^ 16 * 2 ^ 10 + p))
    let h := (h.updSafety fun s => { s with jkFailed := true }).satReg Reg.jkFailCnt
    h.suspect p
  match e.hw.partOf l with
  | none => e
  | some part =>
    let rank := (e.hw.partCores part).idxOf l
    e.classB part Status.jokerFail VCause.joker (p + rank * 256) false (now - 1) (some p)

/-- The Joker runs: the engine is up, and an epoch has begun since its start. -/
def Hw.jokerTime (h : Hw) (l k : Nat) : Bool :=
  match h.safety.jkBase with
  | none => false
  | some b => decide (b + h.safety.jkOffset + k * h.safety.jkSpacing + l * h.safety.jkStagger ≤ h.elapsed)

/-- JOKER_SEGMENT_START of the core with logical index l, at wheel position 0 of a core that issues. -/
def Hw.jokerStart (h : Hw) (l : Nat) : Hw :=
  let j := h.joker l
  let p := h.phys l
  if l < h.inService && h.coreUp p && j.running.isNone && decide (j.begun < 8) && h.jokerTime l j.begun &&
      (!(h.body p).canIssue || (h.body p).clock % 8 == 0) then
    (h.holdCycles p 512).setJoker l { j with begun := j.begun + 1, running := some (j.begun, p) }
  else h

/-- Every core in service that has power has passed all segments of this epoch. -/
def Hw.jokersPassed (h : Hw) : Bool := (List.range h.inService).all fun l => !h.coreUp (h.phys l) || (h.joker l).matched == 8

/-- JOKER_SEGMENT_END: 512 Joker cycles have passed. `flip` is by how much a fault of the arrays changes the signature
(log entry 11). -/
def Eff.jokerEnd (e : Eff) (l : Nat) (flip : Word) : Eff :=
  let j := e.hw.joker l
  match j.running with
  | none => e
  | some (k, p) =>
    let now := e.hw.epoch
    let injected := e.hw.safety.injJoker.contains (p, k, now)
    let sig := jokerGolden k ^^^ flip ^^^ (if injected then 1 else 0)
    let match_ := sig == jokerGolden k
    let e := e.up fun h =>
      let h := h.setJoker l { j with running := none, matched := j.matched + match_.toNat }
      let h := if injected then
          (h.updSafety fun s => { s with injJoker := s.injJoker.erase (p, k, now) }).setRegBit Reg.smInjStatus 0 true
        else h
      let h := if (h.joker l).matched = 8 && !h.safety.passed.contains p then
          h.updSafety fun s => { s with passed := s.passed ++ [p] } else h
      if h.jokersPassed then h.setReg Reg.jkStatus (BitVec.ofNat 32 now) else h
    if match_ then e else e.jokerFail l p k (if injected then jkInjected else jkSignature)

/-- The epoch ends: segments that have not ended are missed, and the next epoch begins on the schedule as committed (R488
to R490). `next` is the elapsed time of the boundary, none while the engine is not up. -/
def Eff.jokerEpoch (e : Eff) (next : Option Nat) : Eff :=
  let late := (e.hw.safety.jkCores.filter fun l => l < e.hw.inService && e.hw.coreUp (e.hw.phys l)).filter fun l =>
    (e.hw.joker l).begun < 8 || (e.hw.joker l).running.isSome
  let e := if e.hw.safety.jkBase.isNone then e else
    e.each late fun e l =>
      let j := e.hw.joker l
      let done := j.begun - j.running.isSome.toNat
      e.each ((List.range 8).drop done) fun e k => e.jokerFail l (e.hw.phys l) k jkMissed
  e.up fun h =>
    let up := (List.range h.inService).filter fun l => h.coreUp (h.phys l)
    h.updSafety fun s =>
      { s with jkBase := next, jkCores := up, joker := [], jkFailed := false, jkOffset := (h.reg Reg.jkOffset).toNat
               jkSpacing := (h.reg Reg.jkSpacing).toNat, jkStagger := (h.reg Reg.jkStagger).toNat }

/-! ### Redeal (R500 to R502) -/

/-- Ranks at which a primary and its copy differ. -/
def Primary.mismatches (x : Primary) (inverted : Bool) : List Nat :=
  match x.copyTrapped, x.copy with
  | some r, _ => [r]
  | none, some c =>
    (List.range x.windows.length).filter fun r => !(x.windows.getD r [] == c.getD r []) || (inverted && r == 0)
  | none, none => []

/-- REDEAL_COMPARE: the earliest primary of a partition whose copy has run. An injection names either partition of the
pair (R518). -/
def Eff.redealCompare (e : Eff) (part : Nat) : Eff :=
  match e.hw.caller.primaries.find? fun x => x.part == part && x.ended && x.copy.isSome with
  | none => e
  | some x =>
    let hit := e.hw.safety.injRedeal.find? fun t => (e.hw.pairSet part).contains t
    let inverted := hit.isSome
    let bad := x.mismatches inverted
    let now := e.hw.epoch
    let e := e.up fun h =>
      let h := (h.updCaller fun c => { c with primaries := c.primaries.filter fun y => y.id != x.id }).pendingCount
      if inverted then (h.updSafety fun s => { s with injRedeal := s.injRedeal.erase (hit.getD part) }).setRegBit Reg.smInjStatus 0 true
      else h
    match bad with
    | [] => e
    | r :: _ =>
      let e := e.up fun h => bad.foldl (fun h r =>
        let h := h.setReg Reg.rdLast (BitVec.ofNat 32 (2 ^ 31 + part * 2 ^ 24 + r * 2 ^ 16 + now % 2 ^ 16))
        ((h.satReg Reg.rdMismatchCnt).suspect (x.phys.getD r 0)).suspect (x.copyPhys.getD r 0)) h
      e.classB part Status.redealMismatch VCause.redeal (x.phys.getD r 0 + r * 256) false x.doneEpoch (some (x.phys.getD r 0))

/-! ### Verdicts (R510, R511) -/

/-- PASS, FLAGGED, FAIL. -/
def VerdictRun.result (v : VerdictRun) : Nat := if v.fail then 2 else if v.causes = 0 then 0 else 1

/-- A Verdict Record. -/
def Hw.verdictBytes (h : Hw) (v : VerdictRun) : List Byte :=
  let body := leBytes 8 v.epoch ++ leBytes 1 v.part ++ leBytes 1 v.result ++ leBytes 2 v.causes ++ leBytes 4 (v.detail.getD 0) ++
    leBytes 8 h.now.toNat ++ leBytes 2 (h.regFld Reg.ptnStatus 31 16) ++ leBytes 1 (h.validation.toNat + 2 * v.tally.toNat) ++ [0]
  body ++ leBytes 4 (crc32 body).toNat

/-- A verdict is given: its record waits for the ring, and VERDICTp mirrors it. -/
def Hw.giveVerdict (h : Hw) (v : VerdictRun) : Hw :=
  let bs := h.verdictBytes v
  (h.updSafety fun s =>
    { s with verdicts := s.verdicts.filter fun x => !(x.part == v.part && x.epoch == v.epoch), verdictWait := s.verdictWait ++ [bs] }).setReg
    (Reg.verdict v.part) (BitVec.ofNat 32 (v.result * 2 ^ 30 + v.epoch % 2 ^ 16))

/-- The three conditions of R510. A class B reaction completes its first step in the step that detects it. -/
def Hw.verdictReady (h : Hw) (v : VerdictRun) : Bool :=
  h.classAHeld ||
  (h.epoch == v.epoch + 1 &&
    ((h.pairSet v.part).map h.partCores).flatten.all (fun l =>
      !h.safety.jkCores.contains l || ((h.joker l).begun == 8 && (h.joker l).running.isNone)) &&
    !h.caller.primaries.any fun x => x.part == v.part && x.doneEpoch == v.epoch)

/-- VERDICT_WRITE: the verdict of the earliest epoch of a partition. -/
def Hw.verdictWrite (h : Hw) (part : Nat) : Hw :=
  match h.safety.verdicts.find? fun v => v.part == part with
  | some v => if h.verdictReady v then h.giveVerdict v else h
  | none => h

/-- As the boundary comes, verdicts whose conditions hold are given. -/
def Hw.verdictsReady (h : Hw) : Hw := (List.range 16).foldl Hw.verdictWrite h

/-- At a boundary: verdicts whose deadline it is are given with OVERRUN, and those of the epoch that begins are opened. -/
def Hw.verdictEpoch (h : Hw) : Hw :=
  let now := h.epoch
  let h := (h.safety.verdicts.filter fun v => decide (v.epoch + 2 ≤ now)).foldl (fun h v =>
    h.giveVerdict { v with causes := v.causes ||| 2 ^ VCause.overrun, fail := true, detail := v.detail <|> some 0 }) h
  let engine := h.classAHeld
  let new := ((List.range 16).filter fun p => h.partEn p && h.partSafety p).map fun p =>
    ({ part := p, epoch := now, causes := if engine then 2 ^ VCause.engine else 0, fail := engine,
       detail := if engine then some 0 else none, tally := false } : VerdictRun)
  h.updSafety fun s => { s with verdicts := s.verdicts ++ new }

/-! ### Age: missing publications (R508) -/

/-- At a boundary: a whole run of PERIOD_EPOCHS epochs without a publication. -/
def Hw.ageEpoch (h : Hw) (ended : Nat) : Hw :=
  (List.range 32).foldl (fun h n =>
    let o := h.reg (Reg.ageSlot n)
    let period := fld o 23 16
    if !bitOf o 31 || period = 0 then h
    else
      let run := Tbl.get (fun _ => 0) h.safety.ageIdle n + 1
      if run < period then h.updSafety fun s => { s with ageIdle := Tbl.put (fun _ => 0) s.ageIdle n run }
      else
        let tag := ageTag 0 0 0 n (4 + 8 * h.validation.toNat) ended
        let h := h.updSafety fun s =>
          { s with ageIdle := Tbl.put (fun _ => 0) s.ageIdle n 0, ageWait := s.ageWait ++ [tag] }
        match h.queue? (fld o 9 0) with
        | some q => h.blame q.part ended VCause.missing false n
        | none => h) h

/-! ### Rings (R509) -/

/-- The registers of the Age Ring or of the Verdict Ring: base, CTRL, HEAD, TAIL. -/
def safetyRing (verdict : Bool) : Nat × Nat × Nat × Nat :=
  if verdict then (Reg.verdictRingBase, Reg.verdictRingCtrl, Reg.verdictHead, Reg.verdictTail)
  else (Reg.ageRingBase, Reg.ageRingCtrl, Reg.ageHead, Reg.ageTail)

/-- SAFETY_RING_WRITE: the oldest record that waits is sent when there is room, one at a time. A record whose write the
firewall denies waits (log entry 101). -/
def Hw.safetyRingWrite (h : Hw) (verdict : Bool) : Hw :=
  let (base, ctrl, head, tail) := safetyRing verdict
  let c := h.reg ctrl
  let t := h.reg tail
  let pa := h.ringBase base + 32 * (t.toNat % 2 ^ ringLog c)
  match (if verdict then h.safety.verdictWait else h.safety.ageWait) with
  | [] => h
  | r :: _ =>
    if !bitOf c 0 || !ringRoom t (h.reg head) (ringLog c) || !h.admitted pa 0 true true ||
        h.underWay fun g => g == .safetyRing verdict then h
    else h.sysWrite pa r (.safetyRing verdict)

/-- The record has its response: it is in memory, TAIL advances, and the vector may be sent. DESIGN CHOICE (log 101): one
that memory answered with an error waits and is sent again. -/
def Hw.safetyRingDone (h : Hw) (verdict err : Bool) : Hw :=
  let (_, ctrl, head, tail) := safetyRing verdict
  let t := h.reg tail
  if err then h
  else
    let h := h.updSafety fun s =>
      if verdict then { s with verdictWait := s.verdictWait.drop 1 } else { s with ageWait := s.ageWait.drop 1 }
    let h := h.setReg tail (t + 1)
    if t = h.reg head then h.irqOf ctrl 14 8 else h

/-- SAFETY_RING_HEAD_WRITE. -/
def Hw.safetyHeadWrite (h : Hw) (verdict : Bool) (v : Word) : Hw :=
  let (_, ctrl, head, tail) := safetyRing verdict
  h.headWrite head tail ctrl v ctrl 15

/-! ### SAFE_ERR and class A (R485, R512 to R514) -/

/-- CLASS_A_REACTION: a cause of Table "Class A causes" that a checker reports. -/
def Hw.classAReaction (h : Hw) (code : BitVec 8) (detail : Half) : Hw :=
  if h.boot.good && decide (1 ≤ code.toNat) && decide (code.toNat ≤ 12) then h.checkerA code.toNat detail.toNat else h

/-- SAFE_ERR_TOGGLE: 600 FCLK have passed. -/
def Hw.safeToggle (h : Hw) : Hw :=
  if h.regBit Reg.smStatus 30 then h.updSafety fun s => { s with safe0 := !s.safe0, safe1 := s.safe0 } else h

/-- SAFE_ERR_READBACK_FAIL. -/
def Hw.safeReadback (h : Hw) : Hw := if h.boot.good then h.checkerA 0x0A 0 else h

/-! ### Validation injection (R517, R518) -/

/-- A GO of SM_INJ_CTRL: with PERMIT it does `f`, and else it is denied. -/
def Hw.smInject (h : Hw) (f : Hw → Hw) : Hw :=
  if h.regBit Reg.smInjCtrl 31 then f h else h.setRegBit Reg.smInjStatus 1 true

def Hw.injectJoker (h : Hw) (target segment : Nat) : Hw :=
  h.smInject fun h => h.updSafety fun s => { s with injJoker := s.injJoker ++ [(target, segment, h.epoch + 1)] }
def Hw.injectRedeal (h : Hw) (target : Nat) : Hw :=
  h.smInject fun h => h.updSafety fun s => { s with injRedeal := s.injRedeal ++ [target] }
def Hw.injectAge (h : Hw) (target : Nat) : Hw :=
  h.smInject fun h => h.updSafety fun s => { s with injAge := s.injAge ++ [target] }
def Hw.injectClassA (h : Hw) : Hw := h.smInject fun h => (h.classA 0x0C 0).setRegBit Reg.smInjStatus 0 true

end Sys2Proof.Machine
end

