-- ==== Sys2Proof/Machine/Epoch.lean ====
section
/-!
DEFINITION. What happens at the boundaries of the Epoch Generators: hang detection (13_faults_reset_recovery.md R522 to
R525), roles, heartbeats and mirroring (11_links_and_partnership.md R468 to R476), the Tally's comparison
(15_coffer_boot_configuration.md R603) and the boundary itself (10_dealer_time_base.md R413).
-/
namespace Sys2Proof.Machine

open Sys2Proof

/-- The engine runs: it has power, and neither a reset nor a boot phase before Configure is in progress. -/
def Hw.engineRuns (h : Hw) : Bool :=
  h.boot.good &&
  (match h.boot.rstPhase with | some n => n == 6 | none => true) &&
  match h.boot.phase with | some n => decide (3 ≤ n) | none => true

/-! ### Hang detection (13 R522 to R525) -/

/-- A snapshot of a core, as `Hw.snap` takes it. -/
abbrev Snap := DWord × DWord × Word × Word × Word

/-- A core waits on the same counter or gate as at the last snapshot, which has not changed. -/
def snapWaits (old new : Snap) : Bool :=
  let kind := fld new.2.2.1 2 0
  let same := if kind = 1 then fld old.2.2.1 7 3 == fld new.2.2.1 7 3 else fld old.2.2.1 15 8 == fld new.2.2.1 15 8
  (kind == 1 || kind == 2) && fld old.2.2.1 2 0 == kind && same && old.2.2.2.1 == new.2.2.2.1 && old.2.2.2.2 == new.2.2.2.2

/-- No TRICKS and no RETIRED has changed. -/
def snapStill (old new : Snap) : Bool := old.1 == new.1 && old.2.1 == new.2.1

/-- The kernel of a partition is hung: it ends by a reset of its context. -/
def Eff.hungKernel (e : Eff) (part ctx l kind : Nat) : Eff :=
  let e := e.up fun h =>
    let h := h.setReg Reg.hangStatus (BitVec.ofNat 32 (2 ^ 31 + part * 2 ^ 24 + l * 2 ^ 16 + ctx))
    h.log { kind := LogKind.hangKernel, status := Status.hangReset, ctx, gen := h.genOf ctx, part := some part,
            phys := some (h.phys l), detail := l * 256 + kind }
  e.killKernel part Status.hangReset true l 0 0

/-- The detector looks at the kernel of a partition. -/
def Eff.hangKernelAt (e : Eff) (part : Nat) : Eff :=
  let h := e.hw
  match h.kernel? part with
  | none => e
  | some k =>
    if k.phase ≠ 2 then e
    else
      let cores := h.partCores part
      let new := cores.map fun l => h.snap (h.phys l)
      let pairs := k.snaps.zip new
      let waits := (cores.zip pairs).filter fun x => snapWaits x.2.1 x.2.2
      let stalled := pairs.all (fun x => snapStill x.1 x.2) || !waits.isEmpty
      let exempt := h.paused k.job.ctx || h.classAHeld
      let n := if exempt then k.stalled else if stalled then k.stalled + 1 else 0
      let e := e.up fun h => h.updKernel part fun k => { k with snaps := new, stalled := n }
      let limit := h.regFld Reg.hangCtrl 7 0
      if exempt || !h.regBit Reg.hangCtrl 31 || limit = 0 || n < limit then e
      else
        let l := (waits.head?).elim (cores.headD 0) Prod.fst
        e.hungKernel part k.job.ctx l (fld (h.body (h.phys l)).waitInfo 2 0)

/-- The queue of a context whose front end has waited longest. Where no front end of the context holds a command, the
context's first queue is named (DEDUCED, log 44). -/
def Hw.longestHeld (h : Hw) (c : Nat) : Option (Nat × Queue) :=
  ((h.queuesOf c).foldl (fun (m : Option (Nat × Queue)) q =>
    match h.queue? q, m with
    | some x, none => if x.hold.isSome then some (q, x) else none
    | some x, some (r, y) => if x.hold.isSome && x.heldSince < y.heldSince then some (q, x) else some (r, y)
    | none, m => m) none) <|>
  ((h.queuesOf c).head?.bind fun q => (h.queue? q).map fun x => (q, x))

/-- A resident context is hung at queue level. -/
def Eff.hungQueue (e : Eff) (c : Nat) : Eff :=
  match e.hw.longestHeld c with
  | none => e
  | some (q, x) =>
    let e := e.up fun h =>
      let h := h.log { kind := LogKind.hangQueue, status := Status.hangReset, ctx := c, gen := h.genOf c, part := some x.part, detail := q }
      let h := h.setReg Reg.hangStatus (BitVec.ofNat 32 (2 ^ 31 + 2 ^ 30 + q / 256 * 2 ^ 28 + x.part * 2 ^ 24 + q % 256 * 2 ^ 16 + c))
      h.irqOf Reg.callerIrq 6 0
    if e.hw.regBit Reg.hangCtrl 24 then
      e.reset { ctx := c, status := Status.hangReset, counted := true, part := some x.part,
                own := x.holdItem.toList.map fun i => (i, Status.hangReset, 0) }
    else e

/-- The detector looks at a context. -/
def Eff.hangQueueAt (e : Eff) (c : Nat) : Eff :=
  let h := e.hw
  match h.ctx? c with
  | none => e
  | some x =>
    if x.slot.isNone || !x.pause.isEmpty || x.evicting then e
    else
      let idle := !(h.ctxItems c).isEmpty && !x.completed && (h.kernelsOf c).isEmpty
      let limit := h.regFld Reg.hangCtrl 15 8
      let n := if idle then x.idleEpochs + 1 else 0
      let hung := h.regBit Reg.hangCtrl 31 && limit != 0 && decide (limit ≤ n)
      let e := e.up fun h => h.updCtx c fun x => { x with completed := false, idleEpochs := if hung then 0 else n }
      if hung then e.hungQueue c else e

/-- The hang detector at a generator-0 boundary. -/
def Eff.hangs (e : Eff) : Eff :=
  let e := e.each (List.range 16) Eff.hangKernelAt
  e.each (e.hw.caller.ctxs.map Prod.fst) Eff.hangQueueAt

/-! ### Roles (11 R468 to R473) -/

/-- TAKEOVER_GEN. -/
def Hw.takeoverGen (h : Hw) : Nat := h.regFld Reg.ptnStatus 31 16

/-- A write of the mirror, in the context of MIRROR_CTX (R476). -/
def Hw.mirrorWrite (h : Hw) (va : Nat) (bs : List Byte) (goal : OwnGoal) : Hw :=
  h.addOwn (ownWrite 1 49 (h.regFld Reg.mirrorCtx 11 0) (h.regFld Reg.mirrorCtx 19 16) va bs 0 goal)

/-- The Mirror State word is written (11 R474 to R476). -/
def Hw.mirrorState (h : Hw) : Hw :=
  let bs := leBytes 4 (h.reg Reg.ptnMirror).toNat ++ leBytes 1 (h.regBit Reg.ptnMirrorInfo 0).toNat ++ [0] ++
    leBytes 2 h.takeoverGen ++ leBytes 8 h.now.toNat
  h.mirrorWrite (h.reg64 Reg.mirrorStateVa % 2 ^ 48) bs .nothing

/-- Takeover (R472). -/
def Hw.takeover (h : Hw) : Hw :=
  let h := (h.setRegFld Reg.ptnStatus 2 0 3).setRegFld Reg.ptnStatus 31 16 (h.takeoverGen + 1)
  (h.mirrorState.setRegBit Reg.ptnCtrl 31 false).ptnIrq

/-- Roles at a generator-0 boundary (R471, R473). -/
def Hw.roleEpoch (h : Hw) : Hw :=
  let p := h.partner
  let silent := if p.beat then 0 else p.silent + 1
  let h := h.updPartner fun p => { p with silent, beat := false, failedBeat := false, followNext := false }
  let asked := h.regBit Reg.ptnCtrl 31
  if h.role = 2 then
    if p.failedBeat || asked then h.takeover
    else if h.regFld Reg.ptnCtrl 11 8 ≤ silent then
      if h.regBit Reg.ptnCtrl 0 then h.takeover else (h.setRegFld Reg.ptnStatus 2 0 4).ptnIrq
    else h
  else if h.role = 4 then if asked then h.takeover else h
  else if (h.role = 1 ∨ h.role = 3) ∧ p.followNext then (h.setRegFld Reg.ptnStatus 2 0 2).ptnIrq
  else h

/-- A HEARTBEAT goes to the Partner (R469). -/
def Hw.heartbeat (h : Hw) : Hw :=
  if !h.partnered || !h.session then h
  else
    let bs := leBytes 4 (h.epoch % 2 ^ 32) ++ leBytes 1 h.role ++ leBytes 1 (!h.regBit Reg.smStatus 30).toNat ++ leBytes 2 0 ++
      leBytes 2 h.takeoverGen ++ leBytes 1 h.curOp ++ [0] ++ leBytes 4 (h.reg Reg.ptnMirror).toNat ++ leBytes 8 (h.reg64 Reg.tally) ++
      leBytes 8 0
    (h.htpSend HtpType.heartbeat 0 [] bs).htpPump

/-- An epoch number of the Partner in this engine's numbering (R470). -/
def Hw.ownEpoch (h : Hw) (e : Nat) : Nat := ((BitVec.ofNat 32 e : Word) - h.reg Reg.ptnEpochOffset).toNat

/-- HEARTBEAT: a heartbeat of the Partner (R469 to R473). -/
def Eff.heartbeatIn (e : Eff) : Eff :=
  e.htpTake HtpType.heartbeat fun e b => e.up fun h =>
    let f (o n : Nat) : Nat := leField b (32 + o) n
    let own : Word := BitVec.ofNat 32 h.epoch
    let first := !h.partner.beaten
    let h := if first then h.setReg Reg.ptnEpochOffset (BitVec.ofNat 32 (f 0 4) - own) else h
    let slip := h.ownEpoch (f 0 4) != own.toNat
    let h := if slip then (h.satReg (Reg.ptnCnt 8)).setReg Reg.ptnEpochOffset (BitVec.ofNat 32 (f 0 4) - own) else h
    let acts (r : Nat) : Bool := r == 1 || r == 3
    let yields := acts h.role && acts (f 4 1) &&
      (decide (h.takeoverGen < f 8 2) || (h.takeoverGen == f 8 2 && h.regBit Reg.ptnCfg 16))
    let h := h.updPartner fun p =>
      { p with beaten := true, beat := true, failedBeat := p.failedBeat || f 5 1 == 1, followNext := p.followNext || yields
               slipped := p.slipped || slip, tally := some (own.toNat, BitVec.ofNat 64 (f 16 8)) }
    (h.partnerPoint (f 10 1)).throttle

/-- TAKEOVER_WRITE: a safety-class write of PTN_CTRL.TAKEOVER. -/
def Hw.takeoverWrite (h : Hw) : Hw := h.setRegBit Reg.ptnCtrl 31 true

/-- CUT_ARRIVE: the Partner's arrival at a Partnership Cut (R477). -/
def Eff.cutArrive (e : Eff) : Eff :=
  e.htpTake HtpType.cutArrive fun e b => e.up fun h =>
    h.cutOther (leField b 16 1) (leField b 17 1) (leField b 18 2)
      ((signed 64 (leField b 24 8)) * (2 ^ 32 : Nat) + leField b 20 4)

/-! ### Mirroring (11 R474 to R476) -/

/-- A mirror entry: kind, size, source, destinations. -/
structure MirrorEntry where
  kind : Nat
  size : Nat
  src : Nat
  dstA : Nat
  dstB : Nat
deriving DecidableEq, Repr

/-- Bytes that an entry mirrors, and their place in frames, which carry multiples of 32 bytes (log entry 31). -/
def MirrorEntry.bytes (m : MirrorEntry) : Nat := if m.kind = 0 then m.size else if m.kind = 1 then 8 else 16
def MirrorEntry.framed (m : MirrorEntry) : Nat := ceilDiv m.bytes 32 * 32

/-- The entry that 32 bytes spell, if it is valid (R475). -/
def Hw.mirrorEntry (h : Hw) (b : List Byte) : Option MirrorEntry :=
  let kind := leField b 0 1
  let size := leField b 4 4
  let src := leField b 8 8
  let al := if kind = 0 then 32 else 8
  let va (x : Nat) : Bool := decide (x < 2 ^ 48) && x % al == 0
  let ok := decide (kind ≤ 2) && zeroAt b 1 3 && va (leField b 16 8) && va (leField b 24 8) &&
    (if kind = 0 then size % 32 == 0 && decide (size ≤ 2 ^ 24) else size == 0) &&
    if kind = 2 then decide (src < 1024) && (h.queue? src).isSome else va src
  if ok then some ⟨kind, size, src, leField b 16 8, leField b 24 8⟩ else none

/-- MIRROR_COUNT. -/
def Hw.mirrorCount (h : Hw) : Nat := h.regFld Reg.mirrorCount 6 0

/-- The mirrored bytes of an entry of the sender: those of a queue come from its doorbell page. -/
def Hw.mirrorBytes (h : Hw) (m : MirrorEntry) (data : List Byte) : List Byte :=
  let bs := if m.kind = 2 then
      ([0x4, 0x0, 0x8, 0xC].map fun o => leBytes 4 (h.doorbell m.src o).toNat).flatten
    else sliceBytes data 0 m.bytes
  bs ++ List.replicate (m.framed - bs.length) 0

/-- PTN_MIRROR_SENT: the epoch's data has been read, or it was abandoned (R476). -/
def Hw.mirrorSent (h : Hw) (ep : Nat) : Hw :=
  (h.setReg Reg.ptnMirrorSent (BitVec.ofNat 32 ep)).setRegFld Reg.ptnMirrorInfo 31 2 (ep % 2 ^ 30)

/-- The frames of one entry. -/
def mirrorFrames (ep entry : Nat) (bs : List Byte) : List (List Byte × List Byte) :=
  (List.range (ceilDiv bs.length 4096)).map fun i =>
    (leBytes 4 ep ++ leBytes 2 entry ++ leBytes 2 0 ++ leBytes 8 (4096 * i), (bs.drop (4096 * i)).take 4096)

/-- At the boundary that ends epoch `ep` the acting Lead mirrors: `table` is its table with the data of each entry as
read, none when the reads do not finish before the next boundary. -/
def Hw.mirrorEpoch (h : Hw) (ep : Nat) (table : Option (List (List Byte × List Byte))) : Hw :=
  let h := if h.partner.mirrorOut then
      let mine (f : HtpFrame) : Bool := f.typ == HtpType.mirror || f.typ == HtpType.mirrorCommit
      ((h.updPartner fun p => { p with mirrorOut := false, waiting := p.waiting.filter fun f => !mine f }).satReg (Reg.ptnCnt 4)).mirrorSent
        (ep - 1)
    else h
  if !h.leads then h
  else if !h.session then h.mirrorSent ep
  else match table with
    | none => h.updPartner fun p => { p with mirrorOut := true }
    | some t =>
      let es := (List.range h.mirrorCount).map fun i => h.mirrorEntry ((t.getD i ([], [])).1)
      if es.any Option.isNone then (h.mirrorSent ep).satReg (Reg.ptnCnt 5)
      else
        let data := es.zipIdx.map fun x => (x.1.map fun m => h.mirrorBytes m ((t.getD x.2 ([], [])).2)).getD []
        let h := data.zipIdx.foldl (fun h x =>
          (mirrorFrames ep x.2 x.1).foldl (fun (h : Hw) f => h.htpSend HtpType.mirror 0 f.1 f.2) h) h
        let all := data.flatten
        let h := h.htpSend HtpType.mirrorCommit 0
          (leBytes 4 ep ++ leBytes 4 es.length ++ leBytes 4 all.length ++ leBytes 4 (crc32 all).toNat) []
        (h.updPartner fun p => { p with mirrorOut := true }).htpPump

/-- The bank that the last committed epoch does not use. -/
def Hw.mirrorBank (h : Hw) : Bool := h.regBit Reg.ptnMirrorInfo 1 && !h.regBit Reg.ptnMirrorInfo 0

/-- The epoch being received, whose own number is `ep`: a new one begins where the number differs. -/
def Hw.mirrorRun (h : Hw) (ep : Nat) : Nat × List (Nat × Nat) × List Byte × Bool :=
  match h.partner.mirrorIn with
  | some r => if r.1 = ep then r else (ep, [], [], false)
  | none => (ep, [], [], false)

/-- Bytes of an entry received so far. -/
def mirrorGot (seen : List (Nat × Nat)) (i : Nat) : Nat := (seen.find? fun x => x.1 == i).elim 0 Prod.snd

/-- MIRROR: data of an entry goes to the unused bank at the destination of the own entry, which comes as `entry`. -/
def Eff.mirrorIn (e : Eff) (entry : List Byte) : Eff :=
  e.htpTake HtpType.mirror fun e b => e.up fun h =>
    if h.role ≠ 2 then h
    else
      let (ep, seen, bytes, bad) := h.mirrorRun (h.ownEpoch (leField b 16 4))
      let i := leField b 20 2
      let off := leField b 24 8
      let data := sliceBytes b 32 (leField b 12 2)
      let got := mirrorGot seen i
      let fits := match h.mirrorEntry entry with
        | some m => decide (i < h.mirrorCount) && off == got && decide (off + data.length ≤ m.framed)
        | none => false
      let keep (h : Hw) (bad : Bool) : Hw := h.updPartner fun p =>
        { p with mirrorIn := some (ep, (seen.filter fun x => x.1 != i) ++ [(i, got + data.length)], bytes ++ data, bad) }
      if bad then keep h true
      else match h.mirrorEntry entry, fits with
        | some m, true =>
          let dst := if h.mirrorBank then m.dstB else m.dstA
          let n := min data.length (m.bytes - off)
          keep (if n = 0 then h else h.mirrorWrite (dst + off) (data.take n) .mirror) false
        | _, _ => keep (h.satReg (Reg.ptnCnt 5)) true

/-- MIRROR_COMMIT: once every write has been acknowledged, the epoch is committed when counts and CRC match; `table` is the
own table. -/
def Eff.mirrorCommitIn (e : Eff) (table : List (List Byte)) : Eff :=
  if e.hw.underWay fun g => g == .mirror then e
  else e.htpTake HtpType.mirrorCommit fun e b => e.up fun h =>
    if h.role ≠ 2 then h
    else
      let (ep, seen, bytes, bad) := h.mirrorRun (h.ownEpoch (leField b 16 4))
      let n := h.mirrorCount
      let sizes := (List.range n).all fun i =>
        match h.mirrorEntry (table.getD i []) with
        | some m => m.framed == mirrorGot seen i
        | none => false
      let counts := leField b 20 4 == n && leField b 24 4 == bytes.length && leField b 28 4 == (crc32 bytes).toNat
      let h := h.updPartner fun p => { p with mirrorIn := none }
      if bad then h
      else if !sizes then h.satReg (Reg.ptnCnt 5)
      else if !counts then h
      else
        let bank := h.mirrorBank
        let h := h.setReg Reg.ptnMirror (BitVec.ofNat 32 ep)
        let h := (h.setRegBit Reg.ptnMirrorInfo 0 bank).setRegBit Reg.ptnMirrorInfo 1 true
        h.mirrorState.ptnIrq

/-! ### Tally comparison (15 R603) -/

/-- At the boundary that ends epoch `ep`, T(ep) is compared with the Partner's. -/
def Hw.tallyCompare (h : Hw) (ep : Nat) : Hw :=
  let p := h.partner
  let skip := p.slipped
  let h := h.updPartner fun p => { p with slipped := false }
  match p.tallyOwn, p.tally with
  | some (e, own), some (e', other) =>
    if !h.partnered || skip || e ≠ ep || e' ≠ ep % 2 ^ 32 then h
    else
      let h := h.setRegBit Reg.tallyStatus 30 true
      if own = other then h.setRegBit Reg.tallyStatus 31 false
      else
        let onset := !h.regBit Reg.tallyStatus 31
        let h := ((h.setRegBit Reg.tallyStatus 31 true).setReg64 Reg.tallyPartner other.toNat).satReg Reg.tallyMismatchCnt
        let h := h.updSafety fun s =>
          { s with verdicts := s.verdicts.map fun v => if v.epoch = ep then { v with tally := true } else v }
        if onset then
          (h.log { kind := LogKind.tally, cls := 3, status := Status.tallyMismatch, detail := other.toNat % 2 ^ 32 }).irqOf
            Reg.tallyStatus 14 8
        else h
  | _, _ => h

/-! ### The boundary (10 R413) -/

/-- The effect point of a captured set comes with this boundary (15 R596). -/
def Hw.commitDue (h : Hw) : Hw :=
  match h.captured with
  | none => h
  | some c =>
    let here := match c.target with
      | some t => t == BitVec.ofNat 32 h.epoch
      | none => decide (c.since + 10000 ≤ h.elapsed)
    { h with captured := some { c with due := c.due || here } }

/-- What follows once a COMMIT of the boundary has taken effect: T(E) stands, and the heartbeat goes out. -/
def Hw.afterCommit (h : Hw) : Hw :=
  let now := h.epoch
  (h.updPartner fun p => { p with tallyOwn := some (now, BitVec.ofNat 64 (h.reg64 Reg.tally)) }).heartbeat

/-- Plan queues that answer to a boundary of a generator (08 R351). -/
def Hw.plansDue (h : Hw) (g : Nat) : Hw :=
  let qs := (h.caller.queues.filter fun x => (x.2.bind fun q => q.plan.map fun p => p.2.2 == g).getD false).map Prod.fst
  h.updCaller fun c => { c with planDue := c.planDue ++ qs.filter fun q => !c.planDue.contains q }

/-- The boundary of a generator in the Dealer: count, schedule, time bus, FSYNC (10 R413 to R419). -/
def Hw.genBoundary (h : Hw) (g : Nat) : Hw :=
  let s := h.genSettings g
  let h := h.updDealer fun d => d.setGen g ((d.gen g).passed s d.time d.elapsed)
  (h.updDealer fun d => { d with dtbEpoch := d.dtbEpoch ||| BitVec.ofNat 8 (2 ^ g) }).pulsesOf g

/-- What the engine does at a generator-0 boundary, before and behind the count. -/
def Eff.epochEnds (e : Eff) (ended : Nat) (mirror : Option (List (List Byte × List Byte))) : Eff :=
  let e := (e.up Hw.verdictsReady).jokerEpoch (some e.hw.elapsed)
  (e.up fun h => ((h.ageEpoch ended).tallyCompare ended).roleEpoch).up fun h => h.mirrorEpoch ended mirror

def Eff.epochBegins (e : Eff) : Eff :=
  let e := e.up fun h =>
    let h := h.suspectWindow
    let h := h.updBoot fun b => { b with retiring := b.retiring ++
      (h.safety.retire.filter fun p => !b.retiring.any fun x => x.1 == p).map fun p => (p, 1) }
    let h := h.updSafety fun s => { s with retire := [] }
    h.verdictEpoch
  e.hangs

/-- EPOCH_BOUNDARY: a boundary of generator g that is due. `mirror` is the mirror table with its data as read (R474). -/
def Eff.epochBoundary (e : Eff) (g : Nat) (mirror : Option (List (List Byte × List Byte))) : Eff :=
  if !e.hw.dealer.genDue g then e
  else if g ≠ 0 then
    e.up fun h => let h := h.genBoundary g; if h.engineRuns then h.plansDue g else h
  else
    let ended := e.hw.epoch
    let runs := e.hw.engineRuns
    let e := if runs then e.epochEnds ended mirror else e
    let e := e.up fun h => (h.genBoundary 0).stampInto Reg.epochStamp 2 h.dealer.time
    if !runs then e
    else
      let e := e.epochBegins.up fun h => (h.plansDue 0).commitDue
      if (e.hw.captured.map Captured.due).getD false then e else e.up Hw.afterCommit

end Sys2Proof.Machine
end

