-- ==== Sys2Proof/Machine/Commit.lean ====
section
/-!
DEFINITION. COMMIT: capture, effect point, revert (15_coffer_boot_configuration.md R595 to R602) and what the committed
fields do as they change.
-/
namespace Sys2Proof.Machine

open Sys2Proof

/-! ### What a change does -/

/-- A bit of a register rises, or falls, with the set. -/
def rises (o n : Hw) (r b : Nat) : Bool := !o.regBit r b && n.regBit r b
def falls (o n : Hw) (r b : Nat) : Bool := o.regBit r b && !n.regBit r b

/-- A change of a core's granules (06 R232, R233): a granule whose bit falls waits for its kernel boundary, and one whose
bit rises is cleared. -/
def Eff.granuleChange (o : Hw) (e : Eff) (x : Nat × Nat) : Eff :=
  let (p, k) := x
  let en := Reg.pantryGranuleEn p
  let st := Reg.pantryGranuleState p
  if !e.hw.coreUp p then e
  else if falls o e.hw en k then
    let e := e.up fun h => h.updLoft fun l => { l with granules := l.granules.erase (16 * p + k) }
    if e.hw.regBit st k then
      let e := e.up fun h => h.setRegBit st (16 + k) true
      if ((e.hw.logicalOf p).bind e.hw.partOf).bind e.hw.kernel? = none then e.granulePowerDown p k else e
    else e
  else if rises o e.hw en k then
    e.up fun h =>
      let h := h.setRegBit st (16 + k) false
      if h.regBit st k then h else h.updLoft fun l => { l with granules := l.granules ++ [16 * p + k] }
  else e

/-- A change of a way (06 R246). -/
def Eff.wayChange (o : Hw) (e : Eff) (w : Nat) : Eff :=
  let n := e.hw
  let entered := wayMode o w != wayMode n w
  let owner := wayOwner o w != wayOwner n w
  e.up fun h => h.updLoft fun l =>
    { l with
      lines := if entered then l.lines.filter fun x => x.way != w else l.lines
      clearing := if wayMode n w = 0 && (entered || owner) && !l.clearing.contains w then l.clearing ++ [w]
        else if wayMode n w = 0 then l.clearing else l.clearing.filter fun x => x != w }

/-- A change of an Epoch Generator's or an FSYNC output's enable (10 R413, R414, R417): the Dealer takes the committed values
of its RWS registers into use. -/
def Hw.dealerChange (h : Hw) : Hw :=
  let was (r b : Nat) : Bool := bitOf (h.inForce r) b
  let on := (List.range 8).filter fun g => !was (Reg.egCtrl g) 0 && h.regBit (Reg.egCtrl g) 0
  let off := (List.range 8).filter fun g => was (Reg.egCtrl g) 0 && !h.regBit (Reg.egCtrl g) 0
  let quiet := (List.range 16).filter fun k => was (Reg.fsCtrl k) 4 && !h.regBit (Reg.fsCtrl k) 4
  let h := h.updDealer fun d => { d with set := h.regs.filter fun x => dealerOffset x.1 && rwsMask x.1 != 0 }
  let h := off.foldl Hw.genOff (on.foldl Hw.genOn h)
  quiet.foldl (fun h k =>
    h.updDealer fun d => { d with pulses := Tbl.put (fun _ => []) d.pulses k [], fsync := Tbl.put (fun _ => none) d.fsync k none }) h

/-- The registers of a gate control list. -/
def gclRegs (l : Nat) : List Nat :=
  [Reg.gclCtrl l, Reg.gclCycle l, Reg.gclBase l, Reg.gclBase l + 4] ++
    ((List.range 256).map fun k => [Reg.gclInterval l k, Reg.gclGates l k]).flatten

/-- A change of a port's LNK_CTRL and of its gate list (11 R435, R444, R445). -/
def Eff.linkChange (o : Hw) (e : Eff) (l : Nat) : Eff :=
  let ctrl := Reg.lnkCtrl l
  let trains := o.regFld ctrl 3 0 != e.hw.regFld ctrl 3 0
  let e := if trains then
      (e.portDown l).up fun h => ((h.setRegFld (Reg.lnkStatus l) 3 1 0).updLink l fun p => { p with sending := none, held := [] }).driveLanes l
    else e
  e.up fun h =>
    if (changed o h (gclRegs l)).isEmpty then h
    else if h.regBit (Reg.gclCtrl l) 31 then
      (h.updLink l fun p => { p with gclNext := some (h.gclOf l h.dealer.time) }).gclShow l
    else (h.updLink l fun p => { p with gcl := none, gclNext := none }).gclShow l

/-- A change of a partition's EN: a host partition that is enabled again has its retirement and its window cleared (13
R532). -/
def Hw.partChange (o h : Hw) (p : Nat) : Hw :=
  if rises o h (Reg.partCtrl p) 0 && !h.partPlan p then
    let h := (h.setRegBit Reg.escStatus p false).setReg (Reg.escPart p) 0
    h.updKeep p fun k => { k with retired := false, resets := [] }
  else h

/-- An Age slot that is enabled, or that watches another queue: its accumulator holds none (12 R505). -/
def Hw.ageChange (o h : Hw) (k : Nat) : Hw :=
  let r := Reg.ageSlot k
  if h.regBit r 31 && (!o.regBit r 31 || o.regFld r 9 0 != h.regFld r 9 0) then
    (h.setAge (h.regFld r 9 0) ageNone).updSafety fun s => { s with ageIdle := Tbl.put (fun _ => 0) s.ageIdle k 0 }
  else h

/-! ### The effect point (R597, R598, R602) -/

/-- Offsets that a set may change: those of which the committed or the captured value is not the reset value. -/
def touched (regs set : Tbl Word) : List Nat :=
  (regs.map Prod.fst) ++ (set.map Prod.fst).filter fun r => (Tbl.find regs r).isNone

/-- The engine with a set of values committed. -/
def Hw.withSet (h : Hw) (set : Tbl Word) : Hw :=
  (touched h.regs set).foldl (fun h r =>
    let m := rwsMask r
    if m = 0 then h else h.setReg r (mixMask m (h.reg r) (Tbl.get regReset set r))) h

/-- The committed values changed from those of `o`: what follows from it. -/
def Eff.committed (o : Hw) (e : Eff) : Eff :=
  let e := e.each ((List.range 68).map fun p => (List.range 16).map fun k => (p, k)).flatten (Eff.granuleChange o)
  let e := e.each (List.range 16) (Eff.wayChange o)
  let e := e.each (List.range 96) fun e s => if rises o e.hw (Reg.scCtrl s) 0 then e.up fun h => h.streamOn s else e
  let e := e.up fun h =>
    let h := h.dealerChange
    let h := (List.range 16).foldl (Hw.partChange o) h
    (List.range 32).foldl (Hw.ageChange o) h
  let e := e.each (List.range 2) (Eff.linkChange o)
  e.domainsCommit.up Hw.publishTally

/-- Commit a set that has passed: the streams that it disables close first, by the values before. -/
def Eff.applySet (e : Eff) (set : Tbl Word) (mark : Hw → Hw) : Eff :=
  let next := e.hw.withSet set
  let e := e.each (List.range 96) fun e s => if falls e.hw next (Reg.scCtrl s) 0 then e.streamOff s else e
  let e := e.up fun h => (h.settle 0).settle 1
  let o := e.hw
  ((e.up fun h => mark (h.withSet set)).committed o).up fun h =>
    (h.setReg Reg.commitCount (h.reg Reg.commitCount + 1)).setReg Reg.commitDoneEpoch (BitVec.ofNat 32 h.epoch)

/-- COMMIT_STATUS of a COMMIT that ends: PENDING clears and REFUSED stays. -/
def Hw.commitEnds (h : Hw) (late boot : Bool) (result : Status) : Hw :=
  h.setReg Reg.commitStatus (BitVec.ofNat 32 ((h.regBit Reg.commitStatus 30).toNat * 2 ^ 30 + late.toNat * 2 ^ 29 + boot.toNat * 2 ^ 28 +
    result))

/-- The lowest of a list of offsets. -/
def lowest (rs : List Nat) : Nat := rs.foldl min (rs.headD 0)

/-- Check a set as one, and commit it or reject it (R597). `mark` sets what comes with the set and is no RWS field: the
PLAN and SAFETY bits of a plan's partitions. -/
def Eff.commitSet (e : Eff) (set : Tbl Word) (boot : Bool) (mark : Hw → Hw := id) : Eff × Bool :=
  let bad := conflicts e.hw (mark (e.hw.withSet set))
  if bad.isEmpty then ((e.applySet set mark).up fun h => h.commitEnds false boot Status.ok, true)
  else (e.up fun h => (h.commitEnds false boot Status.conflict).setReg Reg.commitConflict
    (BitVec.ofNat 32 (2 ^ 31 + lowest bad % 2 ^ 23)), false)

/-- COMMIT_EFFECT: the captured set takes effect at its boundary; T(E) and the heartbeat follow (11 R469, 15 R602). -/
def Eff.commitEffect (e : Eff) : Eff :=
  match e.hw.captured with
  | none => e
  | some c =>
    if !c.due then e
    else ((e.up fun h => { h with captured := none }).commitSet c.regs false).1.up Hw.afterCommit

/-! ### GO and REVERT (R595, R596, R600) -/

/-- ENG_STATUS0.BOOT_DONE. -/
def Hw.bootDone (h : Hw) : Bool := h.regBit Reg.engStatus0 13

def Hw.commitRefused (h : Hw) : Hw := h.setRegBit Reg.commitStatus 30 true

/-- Time until the next boundary of generator 0, in whole ticks. -/
def Hw.toBoundary (h : Hw) : Nat :=
  let d := h.dealer
  let x := d.gen 0
  let left := x.next - (if x.align then d.time else d.elapsed)
  if d.incr = 0 then left else ceilDiv left d.incr * d.incr

/-- COMMIT_EPOCH names no boundary that a set captured now can take. -/
def Hw.commitLate (h : Hw) : Bool :=
  let ahead := (h.reg Reg.commitEpoch - BitVec.ofNat 32 h.epoch).toNat
  ahead == 0 || decide (2 ^ 31 ≤ ahead) || (ahead == 1 && decide (h.toBoundary < 10000 * unitNs))

/-- COMMIT_GO: capture every shadow value. -/
def Hw.commitGo (h : Hw) (at_ : Bool) : Hw :=
  if h.captured.isSome || !h.bootDone then h.commitRefused
  else if at_ && h.commitLate then (h.commitEnds true false Status.conflict).setReg Reg.commitConflict 0
  else
    { h with captured := some { regs := h.shadow, target := if at_ then some (h.reg Reg.commitEpoch) else none, since := h.elapsed,
                                due := false } }.setRegBit Reg.commitStatus 31 true

/-- Every shadow takes its committed value. -/
def Hw.revertShadows (h : Hw) : Hw :=
  (touched h.shadow h.regs).foldl (fun h r => if rwsMask r = 0 then h else h.setShadow r (mixMask (rwsMask r) (regReset r) (h.reg r))) h

/-- COMMIT_REVERT. -/
def Hw.commitRevert (h : Hw) : Hw := if h.captured.isSome then h.commitRefused else h.revertShadows

/-- A write of COMMIT_CTRL. -/
def Hw.commitWrite (h : Hw) (v : Word) : Hw :=
  if bitOf v 0 && bitOf v 1 then h.commitRefused
  else if bitOf v 0 then h.commitGo (bitOf v 2)
  else if bitOf v 1 then h.commitRevert
  else h

end Sys2Proof.Machine
end

