-- ==== Sys2Proof/Machine/Coffer.lean ====
section
/-!
DEFINITION. The Coffer: copies, wear, STORE sessions, the engine's own stores; and the windows of the error log and the
crash dump (15_coffer_boot_configuration.md R573 to R585; 13_faults_reset_recovery.md R539, R540).
-/
namespace Sys2Proof.Machine

open Sys2Proof

/-- A row of Table "Coffer sectors": first sectors of the copies, sectors of a copy, content bytes at most. -/
structure CofferKind where
  firstA : Nat
  firstB : Nat
  sectors : Nat
  limit : Nat

/-- Table "Coffer sectors". -/
def cofferKind : Nat → CofferKind
  | 0 => ⟨0, 2, 2, 8128⟩
  | 1 => ⟨4, 5, 1, 4032⟩
  | 2 => ⟨6, 7, 1, 4032⟩
  | 3 => ⟨8, 9, 1, 4032⟩
  | 4 => ⟨10, 11, 1, 4032⟩
  | 5 => ⟨12, 17, 5, 20416⟩
  | 6 => ⟨22, 39, 17, 69568⟩
  | _ => ⟨56, 120, 64, 262080⟩

/-- First sector of a copy. -/
def CofferKind.first (k : CofferKind) (copyB : Bool) : Nat := if copyB then k.firstB else k.firstA

/-! ### Bytes and ECC words (R574) -/

/-- `n` bytes from a Coffer address; erased bytes read 0xFF. -/
def Coffer.read (c : Coffer) (a n : Nat) : List Byte := (List.range n).map fun i => Tbl.get (fun _ => 0xFF) c.bytes (a + i)

/-- Program bytes; the words that they cover carry valid check bits. -/
def Coffer.program (c : Coffer) (a : Nat) (bs : List Byte) : Coffer :=
  { c with bytes := Tbl.putAll (fun _ => 0xFF) c.bytes a bs, errs := Tbl.clear c.errs (a / 32) ((a + bs.length) / 32) }

/-- Erase a sector's bytes. -/
def Coffer.wipe (c : Coffer) (sector : Nat) : Coffer :=
  { c with bytes := Tbl.clear c.bytes (4096 * sector) (4096 * sector + 4096)
           errs := Tbl.clear c.errs (128 * sector) (128 * sector + 128) }

/-- Words of [a, a + n) in an ECC state. -/
def Coffer.count (c : Coffer) (a n st : Nat) : Nat :=
  (c.errs.filter fun x => decide (a / 32 ≤ x.1) && decide (32 * x.1 < a + n) && x.2 == st).length

/-- Some word of [a, a + n) reads as uncorrectable. -/
def Coffer.bad (c : Coffer) (a n : Nat) : Bool := c.count a n 2 != 0

/-- A read of [a, a + n) counts the corrected and the uncorrectable words. -/
def Hw.cofferRead (h : Hw) (a n : Nat) : Hw :=
  (h.satRegFld Reg.cofCorrCnt 31 0 (h.coffer.count a n 1)).satRegFld Reg.cofUncCnt 31 0 (h.coffer.count a n 2)

/-- Erase a sector: its count rises before the erase begins (R577). -/
def Hw.eraseSector (h : Hw) (sector : Nat) : Hw := (h.wear sector).updCoffer fun c => c.wipe sector

/-! ### Copies (R574, R575) -/

/-- The copy of a kind, when it is valid. -/
def Coffer.copy (c : Coffer) (kind : Nat) (copyB : Bool) : Option CofferCopy :=
  let k := cofferKind kind
  let base := 4096 * k.first copyB
  let hd := c.read base 64
  let len := leField hd 12 4
  let headOk := !c.bad base 64 && leField hd 0 4 == 0x5043434B && leField hd 4 1 == kind && leField hd 5 1 == 1 &&
    leField hd 60 4 == (crc32 (hd.take 60)).toNat && decide (1 ≤ len) && decide (len ≤ k.limit)
  if headOk then
    let content := c.read (base + 64) len
    if !c.bad (base + 64) len && leField hd 16 4 == (crc32 content).toNat then
      some { kind, copyB, seq := leField hd 8 4, crc := BitVec.ofNat 32 (leField hd 16 4), content }
    else none
  else none

/-- A copy as the COF_KIND registers show it: SEQ and LENGTH. -/
abbrev CopyShown := Option (Nat × Nat)

def CofferCopy.shown (c : CofferCopy) : Nat × Nat := (c.seq, c.content.length)

/-- Copy B is active (R575). -/
def activeIsB (a b : CopyShown) : Bool :=
  match a, b with
  | some x, some y => decide (x.1 < y.1)
  | none, some _ => true
  | _, none => false

/-- The COF_KIND registers of a kind. -/
def Hw.showKind (h : Hw) (kind : Nat) (a b : CopyShown) : Hw :=
  let isB := activeIsB a b
  let seq (x : CopyShown) : Word := BitVec.ofNat 32 ((x.map Prod.fst).getD 0)
  let len := (((if isB then b else a).map Prod.snd).getD 0)
  (((h.setReg (Reg.cofKindState kind) (BitVec.ofNat 32 (a.isSome.toNat + 2 * b.isSome.toNat + 4 * isB.toNat))).setReg
    (Reg.cofKindSeqA kind) (seq a)).setReg (Reg.cofKindSeqB kind) (seq b)).setReg (Reg.cofKindLen kind) (BitVec.ofNat 32 len)

/-- What the registers say of the two copies; the length of a copy that is not active is not shown and does not matter. -/
def Hw.shownKind (h : Hw) (kind : Nat) : CopyShown × CopyShown :=
  let s := h.reg (Reg.cofKindState kind)
  let len := (h.reg (Reg.cofKindLen kind)).toNat
  (if bitOf s 0 then some ((h.reg (Reg.cofKindSeqA kind)).toNat, len) else none,
   if bitOf s 1 then some ((h.reg (Reg.cofKindSeqB kind)).toNat, len) else none)

/-! ### Sessions (R579 to R583) -/

def Hw.cofResult (h : Hw) (st : Status) : Hw := h.setRegFld Reg.cofStatus 15 0 st

/-- SESSION and KIND follow the session. -/
def Hw.setSession (h : Hw) (s : Option StoreSession) : Hw :=
  let h := h.updCoffer fun c => { c with session := s }
  (h.setRegBit Reg.cofStatus 30 s.isSome).setRegFld Reg.cofStatus 19 16 ((s.map StoreSession.kind).getD 0)

/-- An operation of the host: refused while one runs or an engine store is due (R579, R584). -/
def Hw.storeOp (h : Hw) (busy : Bool) (f : Hw → Hw) : Hw :=
  if busy || !h.coffer.due.isEmpty then h.setRegBit Reg.cofStatus 29 true else f h

/-- The target copy of a kind, with its SEQ: the copy that is not active, or copy A (R580). -/
def Hw.storeTarget (h : Hw) (kind : Nat) : Bool × Nat :=
  let (a, b) := h.shownKind kind
  let isB := activeIsB a b
  match (if isB then b else a) with
  | some x => (!isB, (x.1 + 1) % 2 ^ 32)
  | none => (false, 1)

/-- Sectors of a copy. -/
def copySectors (kind : Nat) (copyB : Bool) : List Nat :=
  (List.range (cofferKind kind).sectors).map fun i => (cofferKind kind).first copyB + i

/-- A sector of a copy can no longer be erased (R578). -/
def Hw.wornCopy (h : Hw) (kind : Nat) (copyB : Bool) : Bool :=
  (copySectors kind copyB).any fun s => decide (100000 ≤ h.coffer.wearOf s)

/-- Erase a target copy: it is valid no longer. -/
def Hw.eraseCopy (h : Hw) (kind : Nat) (copyB : Bool) : Hw :=
  let h := (copySectors kind copyB).foldl Hw.eraseSector h
  let (a, b) := h.shownKind kind
  if copyB then h.showKind kind a none else h.showKind kind none b

/-- STORE_OPEN. -/
def Hw.storeOpen (h : Hw) (kind : Nat) : Hw :=
  let len := h.regFld Reg.cofStoreLen 17 0
  if 8 ≤ kind || (cofferKind kind).limit < len then h.cofResult Status.invalidPacket
  else if len = 0 then h.cofResult Status.invalidZero
  else if !([0, 3, 4, 7].contains kind) || !h.bootDone || h.coffer.session.isSome then h.cofResult Status.conflict
  else
    let (copyB, seq) := h.storeTarget kind
    if h.wornCopy kind copyB then (h.cofResult Status.conflict).setRegBit Reg.cofStatus 27 true
    else ((h.eraseCopy kind copyB).setSession (some ⟨kind, copyB, seq, len, []⟩)).cofResult Status.ok

/-- The staging buffer. -/
def Hw.staging (h : Hw) : List Byte := ((List.range 1024).map fun w => leBytes 4 (h.reg (Reg.cofStage w)).toNat).flatten

/-- Sectors that a content of a session reaches. -/
def StoreSession.reach (s : StoreSession) : Nat := ceilDiv (s.length + 64) 4096

/-- First byte of a session's target copy. -/
def StoreSession.base (s : StoreSession) : Nat := 4096 * (cofferKind s.kind).first s.copyB

/-- STORE_CHUNK; `verify` says whether the sector reads back as staged. -/
def Hw.storeChunk (h : Hw) (i : Nat) (verify : Bool) : Hw :=
  match h.coffer.session with
  | none => h.cofResult Status.conflict
  | some s =>
    if s.reach ≤ i then h.cofResult Status.invalidPacket
    else if !h.bootDone || s.chunks.contains i then h.cofResult Status.conflict
    else
      let skip := if i = 0 then 64 else 0
      let h := h.updCoffer fun c => c.program (s.base + 4096 * i + skip) (h.staging.drop skip)
      if verify then (h.setSession (some { s with chunks := i :: s.chunks })).cofResult Status.ok
      else (h.setSession none).cofResult Status.ecc

/-- A copy header over a content (Table "Copy header"). -/
def Hw.copyHeader (h : Hw) (kind seq : Nat) (content : List Byte) : List Byte :=
  let body := leBytes 4 0x5043434B ++ leBytes 1 kind ++ leBytes 1 1 ++ leBytes 2 0 ++ leBytes 4 seq ++ leBytes 4 content.length ++
    leBytes 4 (crc32 content).toNat ++ leBytes 8 h.now.toNat ++ List.replicate 32 0
  body ++ leBytes 4 (crc32 body).toNat

/-- Program the header of a copy whose content is in place; when it verifies, the copy is the active one. -/
def Hw.closeCopy (h : Hw) (s : StoreSession) (verify : Bool) : Hw × Bool :=
  let h := h.cofferRead (s.base + 64) s.length
  let ok := verify && !h.coffer.bad (s.base + 64) s.length
  let hd := h.copyHeader s.kind s.seq (h.coffer.read (s.base + 64) s.length)
  if ok then
    let h := h.updCoffer fun c => c.program s.base hd
    let (a, b) := h.shownKind s.kind
    let mine : CopyShown := some (s.seq, s.length)
    (if s.copyB then h.showKind s.kind a mine else h.showKind s.kind mine b, true)
  else (h, false)

/-- STORE_CLOSE; `verify` says whether the header verifies. -/
def Hw.storeClose (h : Hw) (verify : Bool) : Hw :=
  match h.coffer.session with
  | none => h.cofResult Status.conflict
  | some s =>
    if !h.bootDone || !((List.range s.reach).all s.chunks.contains) then h.cofResult Status.conflict
    else
      let (h, ok) := h.closeCopy s verify
      (h.setSession none).cofResult (if ok then Status.ok else Status.ecc)

/-- STORE_ABORT. -/
def Hw.storeAbort (h : Hw) : Hw :=
  if h.coffer.session.isNone || !h.bootDone then h.cofResult Status.conflict else (h.setSession none).cofResult Status.ok

/-- STAGE_WRITE: a staging word; `running` while a CHUNK runs. -/
def Hw.stageWrite (h : Hw) (word : Nat) (v : Word) (running : Bool) : Hw :=
  if running then h.setRegBit Reg.cofStatus 28 true else h.setReg (Reg.cofStage word) v

/-! ### The engine's stores (R584, R585) -/

/-- Kind 2: trims, limit, weights, leakages, sensor offsets. -/
def Hw.trimBytes (h : Hw) : List Byte :=
  ((List.range 8).map fun n => leBytes 1 (h.regFld (Reg.pwrVid n) 15 8)).flatten ++ leBytes 1 h.opLimit ++ leBytes 7 0 ++
    ((List.range 12).map fun k => leBytes 4 (h.reg (Reg.pwrWeight k)).toNat).flatten ++
    ((List.range 6).map fun k => leBytes 4 (h.reg (Reg.pwrLeak k)).toNat).flatten ++ leBytes 8 0 ++
    ((List.range 17).map fun s => leBytes 2 (h.power.offsets.getD s 0)).flatten

/-- The 64 KiB of the crash dump. -/
def Hw.dumpBytes (h : Hw) : List Byte := (List.range 65536).map fun i => Tbl.get (fun _ => 0) h.caller.dump i

/-- The content of a kind that the engine writes. -/
def Hw.ownContent (h : Hw) (kind : Nat) : List Byte :=
  if kind = 1 then leBytes 4 h.boot.repair.length ++ h.boot.repair.flatten
  else if kind = 2 then h.trimBytes
  else if kind = 5 then h.caller.elog.reverse.flatten
  else h.dumpBytes

/-- A store of the engine that is due. -/
def Hw.storeDue (h : Hw) (kind : Nat) : Hw :=
  h.updCoffer fun c => { c with due := if c.due.contains kind then c.due else c.due ++ [kind] }

/-- A store of the engine that cannot complete. -/
def Hw.storeFails (h : Hw) : Hw := h.setRegBit Reg.cofStatus 26 true

/-- ENGINE_STORE of a kind that is due; `verify` says whether the copy verifies. -/
def Hw.engineStore (h : Hw) (kind : Nat) (verify : Bool) : Hw :=
  if !h.coffer.due.contains kind then h
  else
    let h := h.updCoffer fun c => { c with due := c.due.erase kind }
    let content := h.ownContent kind
    let (copyB, seq) := h.storeTarget kind
    if content.isEmpty || (cofferKind kind).limit < content.length then h.storeFails
    else if h.wornCopy kind copyB then h.storeFails.setRegBit Reg.cofStatus 27 true
    else
      let s : StoreSession := ⟨kind, copyB, seq, content.length, []⟩
      let h := (h.eraseCopy kind copyB).updCoffer fun c => c.program (s.base + 64) content
      let (h, ok) := h.closeCopy s verify
      if ok then h else h.storeFails

/-! ### The error log and the crash dump (13 R539, R540) -/

/-- ELOG_SAVE. -/
def Hw.elogSave (h : Hw) : Hw := h.storeDue 5

/-- ELOG_DATA_READ: a read of ELOG_DATA0 captures the entry that ELOG_IDX names; one that is not held reads as zeros. -/
def Hw.elogDataRead (h : Hw) : Hw :=
  let e := (h.caller.elog.find? fun x => leField x 0 4 == (h.reg Reg.elogIdx).toNat).getD []
  ((List.range 8).foldl (fun h k => h.setReg (Reg.elogData k) (BitVec.ofNat 32 (leField e (4 * k) 4))) h).answer (Reg.elogData 0)

/-- The word of the crash dump at DUMP_IDX. -/
def Hw.dumpWord (h : Hw) : Word :=
  let i := h.regFld Reg.dumpIdx 13 0
  BitVec.ofNat 32 (leNat ((List.range 4).map fun k => Tbl.get (fun _ => 0) h.caller.dump (4 * i + k)))

/-- DUMP_DATA_READ. -/
def Hw.dumpDataRead (h : Hw) : Hw :=
  { h with rdata := h.dumpWord }.setReg Reg.dumpIdx (BitVec.ofNat 32 ((h.regFld Reg.dumpIdx 13 0 + 1) % 16384))

/-- DUMP_REARM: FULL and MISSED clear. -/
def Hw.dumpRearm (h : Hw) : Hw := h.setReg Reg.dumpStatus 0

end Sys2Proof.Machine
end

