-- ==== Sys2Proof/Machine/Recovery.lean ====
section
/-!
DEFINITION. The end of a context reset, and core retirement (13_faults_reset_recovery.md R526 to R530, R542 to R546).
-/
namespace Sys2Proof.Machine

open Sys2Proof

/-! ### CTX_RST and the end of a context reset (R526, R527) -/

/-- CTX_RST by the driver: refused while a reset is in progress. -/
def Eff.ctxRst (e : Eff) (c : Nat) : Eff :=
  let result (e : Eff) (st : Status) : Eff := e.up fun h => h.setRegFld Reg.rstStatus 15 0 st
  if e.hw.regBit Reg.rstStatus 31 then e.up fun h => h.setRegBit Reg.rstStatus 30 true
  else if (e.hw.ctx? c).isNone then result e Status.conflict
  else result (e.reset { ctx := c, status := Status.contextReset, counted := false, part := none }) Status.ok

/-- Words of a core's range in granules that have power. -/
def Hw.poweredRanges (h : Hw) (p lo hi : Nat) : List (Nat × Nat) :=
  ((List.range 16).filter fun k => (h.up p).testBit k).filterMap fun k =>
    let a := max lo (8192 * k)
    let b := min hi (8192 * k + 8192)
    if a < b then some (a, b) else none

/-- Step 5 of R527 on one core: rings of streams that the context does not own keep their words. -/
def Eff.resetClear (e : Eff) (ctx : Nat) (x : Nat × Nat × Nat) : Eff :=
  let (p, lo, hi) := x
  let part := ((e.hw.logicalOf p).bind e.hw.partOf).getD 16
  e.each (e.hw.poweredRanges p lo hi) fun e r => e.clearWords p r.1 r.2 fun s => !e.hw.assigned s ctx part

/-- A reset that has ended and whose generation has gone up is no longer held; BUSY shows the others that have not ended. -/
def Hw.resetsShown (h : Hw) : Hw :=
  let h := h.updCaller fun c => { c with resets := c.resets.filter fun r => !(r.ended && r.genDone) }
  h.setRegBit Reg.rstStatus 31 (h.caller.resets.any fun r => !r.ended)

/-- Change the reset of a context. -/
def Hw.updReset (h : Hw) (c : Nat) (f : CtxReset → CtxReset) : Hw :=
  h.updCaller fun k => { k with resets := k.resets.map fun r => if r.ctx = c then f r else r }

/-- Records of a context that are neither written nor held. -/
def Hw.recordsDue (h : Hw) (c : Nat) : Bool := (h.ctxItems c).any fun i => i.state == .done && !i.held

/-- CONTEXT_RESET_END: the clear is done, and every record has been written or is held. -/
def Eff.resetEnd (e : Eff) (c : Nat) : Eff :=
  match e.hw.caller.resets.find? fun r => r.ctx == c && !r.ended with
  | none => e
  | some r =>
    if e.hw.recordsDue c then e
    else (e.each r.clears fun e x => e.resetClear c x).up fun h =>
      ((h.updReset c fun r => { r with ended := true, clears := [] }).resetsShown).evictDone c

/-- A generation that an orphaned tag of the context still holds (09 R399). -/
def Hw.orphanHolds (h : Hw) (c gen : Nat) : Bool :=
  (List.range 8).any fun n => (h.port n).reqs.any fun r => r.orphan && r.ctx == c && r.gen == gen

/-- GENERATION_INCREMENT of a context in reset. -/
def Hw.genIncrement (h : Hw) (c : Nat) : Hw :=
  match h.caller.resets.find? fun r => r.ctx == c && !r.genDone with
  | none => h
  | some _ =>
    let gen := (h.genOf c + 1) % 16
    if h.orphanHolds c gen then h
    else (((h.updCtx c fun x => { x with gen }).updReset c fun r => { r with genDone := true }).resetsShown).evictDone c

/-! ### Core retirement (R542 to R546) -/

/-- Position of a core's stop as column + 1 and row + 1 (06 Table "Edge stops"). -/
def stopOf (p : Nat) : Nat × Nat :=
  if p < 64 then (p % 8 + 1, p / 8 + 1) else [(5, 0), (9, 5), (4, 9), (0, 4)].getD (p - 64) (0, 0)

/-- Hops between two cores (06 R238). -/
def hops (a b : Nat) : Nat :=
  let gap (m n : Nat) : Nat := max m n - min m n
  gap (stopOf a).1 (stopOf b).1 + gap (stopOf a).2 (stopOf b).2

/-- The free Kitty core with the fewest hops, the lower index on a tie. -/
def Hw.nearestKitty (h : Hw) (p : Nat) : Option Nat :=
  ((List.range 4).map fun k => 64 + k).foldl (fun (m : Option Nat) k =>
    if !h.boot.kittyFree.contains k then m
    else match m with
      | some b => if hops p k < hops p b then some k else m
      | none => some k) none

/-- ENG_STATUS0.CORES_IN_SERVICE and KITTY_FREE, in one cycle (00 R6). -/
def Hw.countCores (h : Hw) (inService : Nat) : Hw :=
  (h.setRegFld Reg.engStatus0 7 0 inService).setRegFld Reg.engStatus0 11 8 h.boot.kittyFree.length

/-- The logical index in service that a core serves. -/
def Hw.servedBy (h : Hw) (p : Nat) : Option Nat := (List.range h.inService).find? fun l => h.phys l == p

/-- A core is marked retired: RETIRED_MAP, and the suspect's mark. -/
def Hw.markRetired (h : Hw) (p trigger : Nat) : Hw :=
  let h := h.setRegBit (Reg.retiredMap (p / 32)) (p % 32) true
  if trigger = 1 then h.setRegBit (Reg.suspectCnt p) 31 true else h

/-- The domain of a retired core is off. -/
def Hw.retiredOff (h : Hw) (p : Nat) : Hw := (h.coreOff p).updBody p fun b => { b with run := .retired }

/-- An entry of the repair map for a retirement (15 R585), stored at once. -/
def retirementEntry (p l trigger : Nat) : List Byte := ([3, p, 0, 0, l, trigger, 0, 0] : List Nat).map (BitVec.ofNat 8)
def Hw.recordRepair (h : Hw) (entry : List Byte) : Hw :=
  (h.updBoot fun b => { b with repair := b.repair ++ [entry] }).storeDue 1

/-- A retirement is complete: its core goes, and it is recorded. -/
def Hw.retired (h : Hw) (p l trigger : Nat) : Hw :=
  let h := h.updBoot fun b => { b with leaving := b.leaving.filter fun x => x.1 != p }
  (((h.retiredOff p).markRetired p trigger).recordRepair (retirementEntry p l trigger)).log
    { kind := LogKind.coreRetired, phys := some p, detail := trigger }

/-- The highest logical index in service leaves: the partition that held it loses it, and a plan partition is retired
(R544). `l` is the index of the retired core. -/
def Hw.leaveIndex (h : Hw) (l : Nat) : Hw :=
  let t := h.inService - 1
  let part := h.partOf t
  let h := match part with
    | some q => h.forceFld (Reg.partCore q + 4 * (t / 32)) (t % 32) (t % 32) 0
    | none => h
  let h := (((h.countCores t).service 0).log { kind := LogKind.donor, detail := l + t * 256 }).publishTally
  match part with
  | some q => if h.partPlan q then h.retirePart q 0 else h
  | none => h

/-- The core's partition is at a kernel boundary, or the core is in none (R542). -/
def Hw.atBoundary (h : Hw) (l : Nat) : Bool := ((h.partOf l).bind h.kernel?).isNone

/-- CORE_RETIRE: a retirement whose trigger has come takes effect; one that needs no replacement completes. -/
def Hw.coreRetire (h : Hw) (p : Nat) : Hw :=
  match h.boot.retiring.find? fun x => x.1 == p with
  | none => h
  | some (_, trigger) =>
    let drop (h : Hw) : Hw := h.updBoot fun b => { b with retiring := b.retiring.filter fun x => x.1 != p }
    match h.servedBy p with
    | none =>
      -- A core that serves no index: a free Kitty core is free no more.
      let h := ((drop h).updBoot fun b => { b with kittyFree := b.kittyFree.filter (· != p) }).retired p 0 trigger
      h.countCores h.inService
    | some l =>
      if !h.atBoundary l then h
      else if h.boot.kittyFree.isEmpty && l + 1 == h.inService then ((drop h).retired p l trigger).leaveIndex l
      else (drop h).updBoot fun b => { b with leaving := b.leaving ++ [(p, trigger)] }

/-- Copy a Pantry range between cores; a word that reads bad arrives poisoned (R543). -/
def Eff.copyWords (e : Eff) (src dst : Nat) (r : Nat × Nat) : Eff :=
  e.each ((List.range (r.2 - r.1)).map (r.1 + ·)) fun e w =>
    let a := pantryAddr src (32 * w)
    e.write (.bytes (pantryAddr dst (32 * w)) (e.mem.bytes a 32) (e.mem.anyBad a 32))

/-- The words that a replacement receives: the region of the partition's last context, and the stream rings. -/
def Hw.copyRanges (h : Hw) (l : Nat) : List (Nat × Nat) :=
  let region := match h.partOf l with
    | some q => if (h.keep q).lastCtx.isSome then [((h.keep q).lo, (h.keep q).hi)] else []
    | none => []
  region ++ h.ringsOn l fun _ => true

/-- Step 3 of R543, charged to the partition's last context. -/
def Eff.replaceCopy (e : Eff) (src dst l cycles : Nat) : Eff :=
  (e.each (e.hw.copyRanges l) fun e r => e.copyWords src dst r).up fun h =>
    match h.partOf l with
    | some q => match (h.keep q).lastCtx with
      | some c => h.chargeCarry q c cycles
      | none => h
    | none => h

/-- L becomes served by another core. -/
def Hw.serve (h : Hw) (l p : Nat) : Hw := { h with serves := Tbl.put (fun k => k) h.serves l p }

/-- KITTY_SUBSTITUTED: a Kitty core has taken the place of retired core `p`; the copy took `cycles`. -/
def Eff.kittySubstitute (e : Eff) (p cycles : Nat) : Eff :=
  match e.hw.boot.leaving.find? (fun x => x.1 == p), e.hw.servedBy p, e.hw.nearestKitty p with
  | some (_, trigger), some l, some k =>
    ((e.coreOn k).replaceCopy p k l cycles).up fun h =>
      let h := (h.serve l k).updBoot fun b => { b with kittyFree := b.kittyFree.filter (· != k) }
      let h := (h.countCores h.inService).retired p l trigger
      (h.log { kind := LogKind.kitty, phys := some p, detail := k + l * 256 }).publishTally
  | _, _, _ => e

/-- Clears of a reset that fall on a core are made at once: what the core receives next must stay. -/
def Eff.clearNow (e : Eff) (c p : Nat) : Eff :=
  match e.hw.caller.resets.find? fun r => r.ctx == c with
  | none => e
  | some r => (e.each (r.clears.filter fun x => x.1 == p) fun e x => e.resetClear c x).up fun h =>
      h.updReset c fun r => { r with clears := r.clears.filter fun x => x.1 != p }

/-- DONOR_MOVE: with no Kitty core left, the core of the highest index takes the place of retired core `p`. -/
def Eff.donorMove (e : Eff) (p cycles : Nat) : Eff :=
  match e.hw.boot.leaving.find? (fun x => x.1 == p), e.hw.servedBy p with
  | some (_, trigger), some l =>
    let t := e.hw.inService - 1
    let d := e.hw.phys t
    let last := (e.hw.partOf t).bind fun q => (e.hw.keep q).lastCtx
    if !e.hw.boot.kittyFree.isEmpty || !e.hw.atBoundary t then e
    else if l = t then e.up fun h => (h.retired p l trigger).leaveIndex l
    else
      let e := match last with
        | some c => (e.reset { ctx := c, status := Status.contextReset, counted := false, part := e.hw.partOf t }).clearNow c d
        | none => e
      (e.replaceCopy p d l cycles).up fun h => ((h.serve l d).retired p l trigger).leaveIndex l
  | _, _ => e

end Sys2Proof.Machine
end

