-- ==== Sys2Proof/Machine/RegWrite.lean ====
section
/-!
DEFINITION. What a write of a register does under Table "Access codes", for the registers that a write sets: pairs,
coerced fields, fields that a class writes, and the RW registers that act as they are written (00_scope.md R11 to R13,
R18 to R25; 15_coffer_boot_configuration.md R586, R587). Offsets are from BB.
-/
namespace Sys2Proof.Machine

open Sys2Proof

/-- A size field [7:4]: a value below `lo` or above `hi` is written as 4. -/
def sizeField (lo hi : Nat) (v : Word) : Word :=
  if fld v 7 4 < lo ∨ hi < fld v 7 4 then setFld v 7 4 4 else v

/-- An offset among the registers of a family. -/
def isOne (o : Nat) (rs : List Nat) : Bool := rs.contains o

/-- Every TXR_CTRL and RXR_CTRL. -/
def linkRingCtrls : List Nat :=
  ((List.range 2).map fun l => Reg.rxrCtrl l :: (List.range 8).map (Reg.txrCtrl l)).flatten

/-- The value that a write leaves, or none where the write is ignored. -/
def Hw.coerced (h : Hw) (o : Nat) (v : Word) : Option Word :=
  if isOne o [Reg.faultRingCtrl, Reg.ageRingCtrl, Reg.verdictRingCtrl] then some (sizeField 4 12 v)
  else if isOne o linkRingCtrls then some (sizeField 4 15 v)
  else if o = Reg.waitPoll ∨ o = Reg.corrLimit then if fld v 15 0 = 0 then none else some v
  else if (List.range 16).any fun p => h.partPlan p && isOne o [Reg.partCtrl p, Reg.partRun p, Reg.partCore p, Reg.partCore p + 4]
  then none
  else if o = Reg.smInjCtrl then some (setBit v 31 (bitOf v 31 && h.regBit Reg.smMode 0))
  else some v

/-- A word by its access codes: RW sets, W1C clears, W1S sets, RWS goes to the shadow (R23). -/
def Hw.writeCodes (h : Hw) (o : Nat) (b : RegBits) (v : Word) : Hw :=
  let new := mixMask b.rw (h.reg o) v
  let new := new &&& ~~~(v &&& BitVec.ofNat 32 b.w1c)
  let h := h.setReg o (new ||| (v &&& BitVec.ofNat 32 b.w1s))
  if b.rws = 0 then h else h.setShadow o (mixMask b.rws (h.shadowReg o) v)

/-- Bits that a write can change. -/
def RegBits.writable (b : Sys2Proof.RegBits) : Bool := b.rw ||| b.rws ||| b.rwk ||| b.wo ||| b.w1c ||| b.w1s != 0

/-- The staged value of a _LO word (R20). -/
def Hw.stagedLo (h : Hw) (o : Nat) : Word := Tbl.get (fun _ => 0) h.staged o
def Hw.stage (h : Hw) (o : Nat) (v : Word) : Hw := { h with staged := Tbl.put (fun _ => 0) h.staged o v }

/-- A write of the register at an offset by its access codes alone (R17, R20, R23, R25). -/
def Hw.plainWrite (h : Hw) (o : Nat) (v : Word) : Hw :=
  match regRow o, h.coerced o v with
  | some r, some v =>
    if !RegBits.writable r.bits then h
    else match r.pair with
      | .none => h.writeCodes o r.bits v
      | .lo => h.stage o v
      | .hi =>
        match regRow (o - 4) with
        | some l => (h.writeCodes (o - 4) l.bits (h.stagedLo (o - 4))).writeCodes o r.bits v
        | none => h.writeCodes o r.bits v
  | _, _ => h

/-! ### ABI negotiation (R11 to R13) -/

/-- The versions on offer, ascending. -/
def abiOffered : List (Nat × Nat) := [(2, 0), (2, 1), (2, 2), (2, 3), (3, 0), (3, 1)]

/-- A host queue is registered. -/
def Hw.hostQueues (h : Hw) : Bool := h.caller.queues.any fun x => (x.2.map fun q => q.plan.isNone).getD false

/-- ABI_ACK for a request. -/
def abiGrant (v : Word) : Word :=
  let max := fld v 15 0
  match (abiOffered.filter fun x => decide (x.1 * 256 + x.2 ≤ max) && decide (fld v 23 16 ≤ x.1)).getLast? with
  | some x => BitVec.ofNat 32 (x.1 * 256 + x.2)
  | none => BitVec.ofNat 32 (2 ^ 16)

/-- A write of ABI_REQ. -/
def Hw.abiWrite (h : Hw) (v : Word) : Hw :=
  if h.hostQueues then h.setRegBit Reg.abiAck 17 true
  else (h.plainWrite Reg.abiReq v).setReg Reg.abiAck (abiGrant v)

/-! ### Injection (12 R517, R518) -/

/-- A write of SM_INJ_CTRL: its fields, the copy of PERMIT, and GO. -/
def Hw.injectWrite (h : Hw) (v : Word) : Hw :=
  let h := h.plainWrite Reg.smInjCtrl v
  let c := h.reg Reg.smInjCtrl
  let h := h.setRegBit Reg.smStatus 28 (bitOf c 31)
  if !bitOf v 0 then h
  else
    let target := fld c 22 16
    match fld c 27 24 with
    | 1 => h.injectJoker target (fld c 10 8)
    | 2 => h.injectRedeal target
    | 3 => h.injectAge target
    | 4 => h.injectClassA
    | _ => h.smInject id

/-! ### RW and RWS registers that act as they are written -/

/-- The offset of each ring TAIL of the link ports with its ring's CTRL and HEAD. -/
def linkTails : List (Nat × Nat × Nat) :=
  ((List.range 2).map fun l => (Reg.rxrTail l, Reg.rxrCtrl l, Reg.rxrHead l) ::
    (List.range 8).map fun c => (Reg.txrTail l c, Reg.txrCtrl l c, Reg.txrHead l c)).flatten

/-- The bits of a register that a class does not write, where its fields belong to different classes (09 R383; 11
R472). -/
def otherClass (o cls : Nat) : Nat :=
  if o = Reg.fwCtrl then (if cls = 3 then 1 else 2)
  else if o = Reg.ptnCtrl then (if cls = 3 then 2 ^ 31 - 1 else 2 ^ 31)
  else 0

/-- A value with the bits of other classes left as they stand: shadow values of RWS bits, zero of W1S bits. -/
def Hw.asClass (h : Hw) (o cls : Nat) (v : Word) : Word :=
  let other := otherClass o cls
  if other = 0 then v
  else
    let keep := mixMask (rwsMask o) (h.reg o &&& BitVec.ofNat 32 ((regRow o).elim 0 fun r => r.bits.rw)) (h.shadowReg o)
    mixMask other v keep

/-- A doorbell page register. -/
def Hw.doorbellWrite (h : Hw) (o : Nat) (v : Word) (cls : Nat) : Hw :=
  let q := (o - 0x200000) / 0x1000
  match o % 0x1000 with
  | 0 => h.tailWrite q v
  | 8 => h.recHeadWrite q v cls
  | 0x10 => h.updQueue q fun x => { x with tailErr := x.tailErr && !bitOf v 8, recHeadErr := x.recHeadErr && !bitOf v 9 }
  | _ => h

/-- An offset of the doorbell pages. -/
def doorbellOffset (o : Nat) : Bool := decide (0x200000 ≤ o) && decide (o < 0x600000)

/-- A class writes the register at an offset, one that a write sets. -/
def Hw.classWrite (h : Hw) (o : Nat) (v : Word) (cls : Nat) : Hw :=
  if doorbellOffset o then h.doorbellWrite o v cls
  else if o = Reg.abiReq then h.abiWrite v
  else if o = Reg.smInjCtrl then h.injectWrite v
  else if o = Reg.faultHead then h.faultHeadWrite v
  else if o = Reg.ageHead then h.safetyHeadWrite false v
  else if o = Reg.verdictHead then h.safetyHeadWrite true v
  else if o = Reg.incr + 4 then
    if h.dealer.running then h.incrWrite (BitVec.ofNat 36 ((h.stagedLo Reg.incr).toNat + 2 ^ 32 * v.toNat)) else h
  else if o = Reg.timeSource then if h.dealer.running then h.sourceWrite (v.setWidth 2) else h
  else if o = Reg.injCtrl 0 then h.injEnable 0 v
  else if o = Reg.injCtrl 1 then h.injEnable 1 v
  else match linkTails.find? fun x => x.1 == o with
    | some x => h.ringTail x.2.1 x.1 x.2.2 v
    | none =>
      let h := h.plainWrite o (h.asClass o cls v)
      if o = Reg.pwrCtrl && bitOf v 2 then h.learnClear else h

end Sys2Proof.Machine
end

