-- ==== Sys2Proof/Machine/Boot.lean ====
section
/-!
DEFINITION. The Boot Sequencer: its phases, the Latent Fault Check, the Boot Configuration Image, the image fetch and the
Standing Plan (15_coffer_boot_configuration.md R586 to R593; 12_functional_safety.md R515, R516;
08_caller_and_queues.md R349, R350).
-/
namespace Sys2Proof.Machine

open Sys2Proof

/-! ### Copies as read -/

/-- Valid copies of a kind, the active one first (R575). -/
def Hw.copiesOf (h : Hw) (kind : Nat) : List CofferCopy :=
  let cs := h.boot.copies.filter fun c => c.kind == kind
  match cs with
  | [a, b] => if a.seq < b.seq then [b, a] else [a, b]
  | _ => cs

/-- The active copy of a kind. -/
def Hw.activeCopy (h : Hw) (kind : Nat) : Option CofferCopy := (h.copiesOf kind).head?

/-- BOOT_DONE, with PHASE 6: the start has ended. -/
def Hw.bootEnds (h : Hw) : Hw :=
  let h := (h.setRegBit Reg.engStatus0 13 true).setRegFld Reg.bootStatus 2 0 6
  h.updBoot fun b => { b with phase := none, rstPhase := none, held := false }

/-- The Boot Sequencer stops with class A cause 0x0B (R593). -/
def Hw.bootStops (h : Hw) (sector : Nat) : Hw := ((h.classA 0x0B sector).bootEnds).updBoot fun b => { b with stopped := true }

/-! ### Phase 0: Read (R574 to R577, R585, R589) -/

/-- The fields of kind 2 in the Power Manager. -/
def Hw.loadTrims (h : Hw) (bs : List Byte) : Hw :=
  let h := (List.range 8).foldl (fun h n => h.setRegFld (Reg.pwrVid n) 15 8 (leField bs n 1)) h
  let h := h.setRegFld Reg.pwrStatus 10 8 (leField bs 8 1)
  let h := (List.range 12).foldl (fun h k => h.setReg (Reg.pwrWeight k) (BitVec.ofNat 32 (leField bs (16 + 4 * k) 4))) h
  let h := (List.range 6).foldl (fun h k => h.setReg (Reg.pwrLeak k) (BitVec.ofNat 32 (leField bs (64 + 4 * k) 4))) h
  h.updPower fun w => { w with offsets := (List.range 17).map fun s => leField bs (96 + 2 * s) 2 }

/-- The entries of a repair map's content. -/
def repairEntries (bs : List Byte) : List (List Byte) := (List.range (leField bs 0 4)).map fun i => sliceBytes bs (4 + 8 * i) 8

/-- Both copies of a kind are read. -/
def Hw.readKind (h : Hw) (kind : Nat) : Hw :=
  let a := h.coffer.copy kind false
  let b := h.coffer.copy kind true
  (h.showKind kind (a.map CofferCopy.shown) (b.map CofferCopy.shown)).updBoot fun x =>
    { x with copies := x.copies ++ a.toList ++ b.toList }

/-- What a start takes from kind 5 and kind 1 at power-good only: the log's SEQ and the repair map; an engine reset keeps
its own (13 R538). -/
def Hw.readKept (h : Hw) : Hw :=
  let entries := match h.activeCopy 1 with | some c => repairEntries c.content | none => []
  let seq : Word := match h.activeCopy 5 with
    | some c => BitVec.ofNat 32 (leField c.content (c.content.length - 32) 4) + 1
    | none => 0
  (h.updBoot fun b => { b with repair := entries }).updCaller fun c => { c with elogSeq := seq }

/-- A sector has reached 90,000 STORE cycles (R577). -/
def Coffer.worn (c : Coffer) : Bool := (List.range 256).any fun s => decide (90000 ≤ c.wearOf s)

/-- Phase 0. -/
def Hw.bootRead (h : Hw) (powerGood : Bool) : Hw :=
  let h := h.updBoot fun b => { b with copies := [], image := 0, again := false, bci := [] }
  let h := ((List.range 8).foldl Hw.readKind h).cofferRead 0 (184 * 4096)
  let h := if powerGood then h.readKept else h
  let h := match h.activeCopy 2 with | some c => h.loadTrims c.content | none => h
  let h := h.updBoot fun b => { b with modelCrc := ((h.activeCopy 4).map CofferCopy.crc).getD 0 }
  let h := if h.coffer.worn then h.service 3 else h
  ([1, 2, 3].filter fun k => (h.activeCopy k).isNone).foldl (fun h k => h.bootStops (cofferKind k).firstA) h

/-! ### Phase 1: Repair (R589; 03 R131 to R133; 13 R545) -/

/-- Failed rows (type 1) or columns (type 2) of an array, ascending: those of the fuses, and those of the repair map. -/
def Boot.failed (b : Boot) (typ p array : Nat) : List Nat :=
  (List.range 66).filter fun n => (b.fuses ++ b.repair).any fun e =>
    leField e 0 1 == typ && leField e 1 1 == p && leField e 2 1 == array && leField e 3 1 == n

/-- An array's spares are exhausted (03 R133). -/
def Boot.exhausted (b : Boot) (p array : Nat) : Bool :=
  decide (2 < (b.failed 1 p array).length) || decide (1 < (b.failed 2 p array).length)

/-- ARRAY_REPAIR of an array. -/
def Boot.repairWord (b : Boot) (p array : Nat) : Word :=
  let rows := b.failed 1 p array
  let cols := b.failed 2 p array
  let field := b.repair.any fun e => leField e 0 1 != 3 && leField e 1 1 == p && leField e 2 1 == array
  BitVec.ofNat 32 (rows.getD 0 0x7F + rows.getD 1 0x7F * 2 ^ 7 + cols.getD 0 0x3F * 2 ^ 14 + (b.exhausted p array).toNat * 2 ^ 20 +
    field.toNat * 2 ^ 21)

/-- A core has a retirement in the repair map. -/
def Boot.isRetired (b : Boot) (p : Nat) : Bool := b.repair.any fun e => leField e 0 1 == 3 && leField e 1 1 == p

/-- A retirement found at a start. -/
def Hw.addRetirement (h : Hw) (p trigger : Nat) : Hw :=
  if h.boot.isRetired p then h else h.recordRepair (retirementEntry p ((h.servedBy p).getD 0) trigger)

/-- The repair maps are applied to the arrays; a core whose spares are exhausted is to be retired. -/
def Hw.applyRepair (h : Hw) : Hw :=
  (List.range 68).foldl (fun h p =>
    let h := (List.range 4).foldl (fun h a => h.setReg (Reg.arrayRepair p a) (h.boot.repairWord p a)) h
    if (List.range 4).any (h.boot.exhausted p) then (h.service 1).addRetirement p 2 else h) h

/-- One retirement of the repair map is replayed, with no copy (13 R545). -/
def Hw.replay (h : Hw) (powerGood : Bool) (e : List Byte) : Hw :=
  let p := leField e 1 1
  let trigger := leField e 5 1
  let known := h.regBit (Reg.retiredMap (p / 32)) (p % 32)
  let h := h.markRetired p trigger
  let h := if known then h else h.log
    { kind := LogKind.coreRetired, phys := some p, detail := if powerGood then 4 else trigger }
  match h.servedBy p with
  | none =>
    let h := h.updBoot fun b => { b with kittyFree := b.kittyFree.filter (· != p) }
    h.countCores h.inService
  | some l =>
    match h.nearestKitty p with
    | some k => let h := (h.serve l k).updBoot fun b => { b with kittyFree := b.kittyFree.filter (· != k) }
                h.countCores h.inService
    | none =>
      let t := h.inService - 1
      ((h.serve l (h.phys t)).countCores t).service 0

/-- The logical map of a part with no retirement, and the retirements in their recorded order. -/
def Hw.replayAll (h : Hw) (powerGood : Bool) : Hw :=
  let h := { h with serves := [] }.updBoot fun b => { b with kittyFree := [64, 65, 66, 67] }
  (h.boot.repair.filter fun e => leField e 0 1 == 3).foldl (fun h e => h.replay powerGood e) (h.countCores 64)

/-- Phase 1. Cores that the Latent Fault Check of an engine reset has passed keep that pass (12 R495, 15 R590). -/
def Eff.bootRepair (e : Eff) (powerGood : Bool) : Eff :=
  let passed := e.hw.safety.passed
  let e := e.up fun h => ((if h.inService = 0 then h.countCores 64 else h).applyRepair).replayAll powerGood
  let units := (List.range 28).filter fun b => (regReset Reg.pwrUnitEn).getLsbD b && !e.hw.loft.slicesOff.contains b
  let e := e.each units Eff.unitOn
  let e := e.each (List.range e.hw.inService) fun e l => e.coreOn (e.hw.phys l)
  e.up fun h =>
    let h := (List.range 68).foldl (fun h p =>
      if h.boot.isRetired p then h.updBody p fun b => { b with run := .retired } else h) h
    h.updSafety fun s => { s with passed }

/-! ### Phase 2: the Latent Fault Check (12 R515, R516) -/

/-- The last check has passed. -/
def Hw.checkPassed (h : Hw) : Bool := h.regFld Reg.lfcStatus 31 30 == 3

/-- LATENT_FAULT_CHECK: bit b of `results` says that check b passed; the check took `us`, and ended `ended` after the
start, which ends with one that fails. -/
def Hw.latentCheck (h : Hw) (results : BitVec 17) (us ended : Word) : Hw :=
  if !h.checking || h.regBit Reg.lfcStatus 31 then h
  else
    let pass := results.toNat == 2 ^ 17 - 1
    let h := (h.setReg Reg.lfcStatus (BitVec.ofNat 32 (2 ^ 31 + pass.toNat * 2 ^ 30 + results.toNat))).setReg Reg.lfcTime us
    if pass then
      let h := (h.setRegBit Reg.smStatus 31 false).setRegBit Reg.smStatus 30 true
      let h := h.setRegBit Reg.escStatus 31 false
      h.updSafety fun s => { s with safe0 := true, safe1 := false, passed := (List.range h.inService).map h.phys }
    else
      let h := (h.classA 0x03 (2 ^ 17 - 1 - results.toNat)).service 4
      let h := (if h.boot.phase = some 2 then h.setReg (Reg.bootPhaseEnd 2) ended else h).setReg Reg.bootTime ended
      ((h.setRegFld Reg.planStatus 1 0 2).bootEnds).updBoot fun b => { b with stopped := true }

/-! ### Phase 3: Configure (R586, R587, R591) -/

/-- Register entries: offset and value. -/
def regEntries (bs : List Byte) (off n : Nat) : List (Nat × Word) :=
  (List.range n).map fun j => (leField bs (off + 8 * j) 4, BitVec.ofNat 32 (leField bs (off + 8 * j + 4) 4))

/-- An entry names a register that is RW or RWS and that a class writes. -/
def entryOk (cls : Nat) (x : Nat × Word) : Bool :=
  match regRow x.1 with
  | some r => (r.bits.rw ||| r.bits.rws) != 0 && r.writers.testBit cls
  | none => false

/-- Write entries in order as a class would. -/
def Hw.writeEntries (h : Hw) (cls : Nat) (es : List (Nat × Word)) : Hw := es.foldl (fun h x => h.classWrite x.1 x.2 cls) h

/-- A BCI passes R586. -/
def bciOk (bs : List Byte) : Bool :=
  let flags := leField bs 0 2
  let n := leField bs 24 4
  let partnered := flags.testBit 0
  decide (flags < 16) && zeroAt bs 2 2 && (partnered || zeroAt bs 6 2) && zeroAt bs 14 2 && zeroAt bs 28 36 &&
    decide (n ≤ 1008) && decide (64 + 8 * n ≤ bs.length) && !(partnered && leField bs 4 2 == leField bs 6 2) &&
    (regEntries bs 64 n).all (entryOk 2)

/-- The safety parameters pass R587. -/
def safetyOk (bs : List Byte) : Bool :=
  let n := leField bs 4 4
  decide (leField bs 0 4 < 4) && decide (n ≤ 503) && decide (8 + 8 * n ≤ bs.length) && (regEntries bs 8 n).all (entryOk 3)

/-- The active safety parameters. -/
def Hw.safetyParams (h : Hw) : List Byte := ((h.activeCopy 3).map CofferCopy.content).getD []

/-- The entries of a BCI, which may be none, and the safety parameters. -/
def Hw.writeConfig (h : Hw) (bci : List Byte) : Hw :=
  let h := h.writeEntries 2 (regEntries bci 64 (leField bci 24 4))
  h.writeEntries 3 (regEntries h.safetyParams 8 (leField h.safetyParams 4 4))

/-- PTN_CFG, PTN_PARTNER, SM_MODE.VALIDATION and the role, from a BCI or zero. -/
def Hw.setIdentity (h : Hw) (bci : List Byte) : Hw :=
  let flags := leField bci 0 2
  let partnered := flags.testBit 0
  let follow := flags.testBit 1
  let valid := flags.testBit 2
  let h := h.setReg Reg.ptnCfg (BitVec.ofNat 32 (leField bci 4 2 + follow.toNat * 2 ^ 16 + partnered.toNat * 2 ^ 17))
  let h := h.setReg Reg.ptnPartner (BitVec.ofNat 32 (leField bci 6 2))
  let h := (h.setRegBit Reg.smMode 0 valid).setRegBit Reg.smStatus 29 valid
  let h := if valid then h else (h.setRegBit Reg.smInjCtrl 31 false).setRegBit Reg.smStatus 28 false
  h.setRegFld Reg.ptnStatus 2 0 (if !partnered then 0 else if follow then 2 else 1)

/-- Every shadow returns to its reset value, but those of the values that R464 keeps, which follow the committed ones. -/
def Hw.shadowsReset (h : Hw) (kept : Nat → Bool) : Hw :=
  (h.regs.filter fun x => kept x.1).foldl (fun h x => h.setShadow x.1 (mixMask (rwsMask x.1) (regReset x.1) x.2)) { h with shadow := [] }

/-- The registers of R464, which survive every reset short of power loss. -/
def linkKept (o : Nat) : Bool :=
  isOne o [Reg.htpCfg] || (decide (0xA7060 ≤ o) && decide (o < 0xA7090)) ||
    (List.range 2).any fun l =>
      isOne o [Reg.lnkCtrl l, Reg.lnkMac l, Reg.lnkMac l + 4, Reg.lnkMaxframe l, Reg.extTxDelay l, Reg.extRxDelay l] ||
        (decide (0xA6000 + 0x8000 * l ≤ o) && decide (o < 0xA6800 + 0x8000 * l))

/-- One try of phase 3. -/
def Eff.tryConfig (e : Eff) (bci : List Byte) : Eff × Bool :=
  let h := (e.hw.writeConfig bci).setIdentity bci
  let (e, ok) := { e with hw := h }.commitSet h.shadow true
  if ok then (e.up fun h => h.updBoot fun b => { b with bci }, true) else (e.up fun h => h.shadowsReset linkKept, false)

/-- Phase 3: the active BCI, the other valid copy, the safety entries alone. -/
def Eff.bootConfigure (e : Eff) : Eff × Bool :=
  if !safetyOk e.hw.safetyParams then (e.up fun h => h.bootStops 8, false)
  else
    let try1 (x : Eff × Bool) (c : CofferCopy × Bool) : Eff × Bool :=
      if x.2 || !bciOk c.1.content then x
      else
        let (e, ok) := x.1.tryConfig c.1.content
        (if ok && c.2 then e.up fun h => h.setRegBit Reg.bootStatus 7 true else e, ok)
    let (e, ok) := ((e.hw.copiesOf 0).zip [false, true]).foldl try1 (e, false)
    if ok then (e, true)
    else
      let (e, ok) := (e.up fun h => h.setRegBit Reg.bootStatus 8 true).tryConfig []
      if ok then (e, true) else (e.up fun h => h.bootStops 8, false)

/-! ### Phase 4: Fetch (R588) -/

/-- The model table. -/
def Hw.modelTable (h : Hw) : List Byte := ((h.activeCopy 4).map CofferCopy.content).getD []

/-- Images to fetch: none without FETCH_EN. -/
def Hw.imageCount (h : Hw) : Nat := if (leField h.boot.bci 0 2).testBit 3 then leField h.modelTable 0 4 else 0

/-- Image m lies in the flash window and its entry is well formed. -/
def Hw.imageOk (h : Hw) (m : Nat) : Bool :=
  let t := h.modelTable
  let o := 64 + 64 * m
  let len := leField t (o + 16) 8
  leField t o 8 % 64 == 0 && leField t (o + 8) 8 % 64 == 0 && decide (leField t (o + 8) 8 < 2 ^ 48) && len % 64 == 0 && len != 0 &&
    zeroAt t (o + 24) 8 && decide (leField t o 8 + len ≤ leField h.boot.bci 16 8)

/-- The table as a whole: its first failing image, if any. -/
def Hw.badImage (h : Hw) : Option Nat :=
  let t := h.modelTable
  if h.imageCount = 0 then none
  else if 62 < h.imageCount || !zeroAt t 4 60 || t.length < 64 + 64 * h.imageCount then some 0
  else (List.range h.imageCount).find? fun m => !h.imageOk m

/-- The fetch has failed at an image. -/
def Hw.fetchFails (h : Hw) (m : Nat) : Hw := (h.setRegBit Reg.bootStatus 12 true).setRegFld Reg.bootStatus 21 16 m

/-- Every request of a range passes the firewall as a system request. -/
def Hw.rangeAdmitted (h : Hw) (pa len : Nat) (write : Bool) : Bool :=
  (List.range (ceilDiv (pa % 4096 + len) 4096)).all fun i => h.admitted (pa / 4096 * 4096 + 4096 * i) 0 true write

/-- IMAGE_FETCH_DONE: the image at work has been read as `image` and written; `wrote` is whether every write was
performed. -/
def Hw.imageDone (h : Hw) (image : MemAnswer) (wrote : Bool) : Hw :=
  let m := h.boot.image
  if h.boot.phase ≠ some 4 || h.regBit Reg.bootStatus 12 || h.imageCount ≤ m then h
  else
    let t := h.modelTable
    let o := 64 + 64 * m
    let dest := leField t (o + 8) 8
    let len := leField t (o + 16) 8
    let src := leField h.boot.bci 8 8 + leField t o 8
    let passes := h.rangeAdmitted src len false && h.rangeAdmitted dest len true
    let bytes := match image with | .data bs => bs | _ => []
    let ok := wrote && passes && bytes.length == len && sha256 bytes == sliceBytes t (o + 32) 32
    let h := if h.rangeAdmitted src len false then h.sysNow src len false [] else h
    let h := if h.rangeAdmitted dest len true && !bytes.isEmpty then h.sysNow dest bytes.length true bytes else h
    if ok then h.updBoot fun b => { b with image := m + 1, again := false }
    else if h.boot.again then h.fetchFails m
    else (h.setRegBit Reg.bootStatus 11 true).updBoot fun b => { b with again := true }

/-- Phase 4 has nothing left to do. -/
def Hw.fetchOver (h : Hw) : Bool := h.regBit Reg.bootStatus 12 || decide (h.imageCount ≤ h.boot.image)

/-! ### Phase 5: Plan (08 R349, R350; R592) -/

/-- The entries of a plan's sections of a type. -/
def planEntries (bs : List Byte) (typ size : Nat) : List (List Byte) :=
  ((List.range (leField bs 6 2)).map fun d =>
    let o := 64 + 16 * d
    if leField bs o 2 = typ then (List.range (leField bs (o + 2) 2)).map fun i => sliceBytes bs (leField bs (o + 4) 4 + size * i) size
    else []).flatten

/-- Entry sizes by section type. -/
def planSize : Nat → Nat
  | 1 => 8
  | 2 => 16
  | 3 => 64
  | 4 => 64
  | _ => 0

/-- The header and the directory of a plan. -/
def planHeadOk (bs : List Byte) : Bool :=
  let len := leField bs 8 4
  let n := leField bs 6 2
  leField bs 0 4 == 0x4C50534B && abiOffered.contains (leField bs 5 1, leField bs 4 1) && decide (1 ≤ n) && decide (n ≤ 8) &&
    len % 64 == 0 && decide (64 + 16 * n ≤ len) && decide (len ≤ bs.length) && zeroAt bs 20 44 &&
    leField bs 12 4 == (crc32 (bs.take 12 ++ (bs.take len).drop 16)).toNat &&
    (List.range n).all fun d =>
      let o := 64 + 16 * d
      let typ := leField bs o 2
      let off := leField bs (o + 4) 4
      let size := leField bs (o + 8) 4
      decide (1 ≤ typ) && decide (typ ≤ 4) && off % 64 == 0 && decide (off + size ≤ len) && zeroAt bs (o + 12) 4 &&
        size == leField bs (o + 2) 2 * planSize typ

/-- The minor against which the packets of a plan queue of a major are checked (00 R14 to R16). -/
def planMinor (bs : List Byte) (major : Nat) : Option Nat :=
  let pm := leField bs 5 1
  if major = pm then some (leField bs 4 1) else if major = 2 && pm == 3 then some 3 else none

/-- A PARTITIONS entry. -/
def planPartOk (d : List Byte) : Bool := decide (leField d 0 1 < 16) && decide (leField d 1 1 < 2) && zeroAt d 2 6

/-- A QUEUES entry of a plan. -/
def planQueueOk (bs d : List Byte) : Bool :=
  let recs := leField d 21 1
  let va (o al : Nat) : Bool := decide (leField d o 8 < 2 ^ 48) && leField d o 8 % al == 0
  decide (leField d 0 2 < 1024) && decide (leField d 2 2 < 4096) && decide (leField d 4 1 < 16) && decide (leField d 5 1 < 8) &&
    (planMinor bs (leField d 6 1)).isSome && decide (leField d 7 1 < 128) && va 8 64 && decide (leField d 20 1 < 8) &&
    decide (4 ≤ recs) && decide (recs ≤ 16) && zeroAt d 22 2 && va 24 (32 * 2 ^ recs) && zeroAt d 32 32 &&
    (planEntries bs 3 64).any fun c => leField c 0 2 == leField d 2 2

/-- A plan is valid but for its COMMIT (08 R349). -/
def planOk (bs : List Byte) : Bool :=
  let qs := planEntries bs 4 64
  let ids := qs.map fun d => leField d 0 2
  planHeadOk bs && (planEntries bs 1 8).all (fun d => (regEntries d 0 1).all (entryOk 2)) && (planEntries bs 2 16).all planPartOk &&
    (planEntries bs 3 64).all (fun d => !ctxDescBad d) && decide ((planEntries bs 3 64).length ≤ 64) &&
    qs.all (planQueueOk bs) && ids.all fun i => ids.count i == 1

/-- A plan's partitions go to the shadows. -/
def Hw.planParts (h : Hw) (bs : List Byte) : Hw :=
  (planEntries bs 2 16).foldl (fun h d =>
    let p := leField d 0 1
    let h := h.setShadow (Reg.partCtrl p) (setBit (h.shadowReg (Reg.partCtrl p)) 0 true)
    (h.setShadow (Reg.partCore p) (BitVec.ofNat 32 (leField d 8 4))).setShadow (Reg.partCore p + 4) (BitVec.ofNat 32 (leField d 12 4))) h

/-- What comes with a plan's COMMIT: PLAN and SAFETY, and the plan's CRC in the Tally. -/
def Hw.planMark (bs : List Byte) (crc : Word) (h : Hw) : Hw :=
  let h := (planEntries bs 2 16).foldl (fun (h : Hw) d => h.setRegFld (Reg.partCtrl (leField d 0 1)) 2 1 (1 + 2 * leField d 1 1)) h
  h.updBoot fun b => { b with planCrc := crc }

/-- A plan queue. -/
def planQueue (bs d : List Byte) : Queue :=
  { ctx := leField d 2 2, part := leField d 4 1, prio := leField d 5 1, major := leField d 6 1, irq := leField d 7 1, ringVa := 0,
    ringLog := 0, recLog := leField d 21 1, recVa := leField d 24 8, saveVa := 0, tail := 0, head := 0, recHead := 0,
    recTail := 0, tailErr := false, recHeadErr := false, destroying := none,
    plan := some (leField d 8 8, leField d 16 4, leField d 20 1), frames := [], loops := [], hold := none,
    holdItem := none, heldSince := 0, batch := [], minor := planMinor bs (leField d 6 1) }

/-- The contexts of a plan, each in its own slot, its queues, and its partitions back in service (13 R532). -/
def Hw.planStarts (h : Hw) (bs : List Byte) : Hw :=
  let h := (planEntries bs 3 64).zipIdx.foldl (fun (h : Hw) x =>
    h.setCtx (leField x.1 0 2) (some { ctxOf x.1 0 with plan := true, slot := some x.2 })) h
  let h := (planEntries bs 4 64).foldl (fun (h : Hw) d => h.setQueue (leField d 0 2) (some (planQueue bs d))) h.residentCount
  let h := (planEntries bs 2 16).foldl (fun (h : Hw) d =>
    (h.setRegBit Reg.escStatus (leField d 0 1) false).updKeep (leField d 0 1) fun k => { k with retired := false }) h
  h.setReg Reg.planStatus (BitVec.ofNat 32 (((planEntries bs 4 64).length % 256) * 256 + 1))

/-- One try of a plan copy. It is checked whole before any part takes effect (08 R349): the RWS fields of its REGISTERS
entries are the set, and the RW fields are written as the set passes. -/
def Eff.tryPlan (e : Eff) (c : CofferCopy) : Eff × Bool :=
  let bs := c.content
  if !planOk bs then (e, false)
  else
    let entries := ((planEntries bs 1 8).map fun d => regEntries d 0 1).flatten
    let set := ((e.hw.writeEntries 2 entries).planParts bs).shadow
    let (e, ok) := { e with hw := { e.hw with shadow := set } }.commitSet set true fun h =>
      Hw.planMark bs c.crc (h.writeEntries 2 entries)
    if ok then (e.up fun h => h.planStarts bs, true)
    else (e.up fun h => (h.shadowsReset linkKept).writeConfig h.boot.bci, false)

/-- Phase 5: the active plan copy, else the other one; what follows when none runs. -/
def Eff.bootPlan (e : Eff) : Eff :=
  let flags := leField e.hw.safetyParams 0 4
  let copies := e.hw.copiesOf 7
  let failed := e.hw.regBit Reg.bootStatus 12
  let try1 (x : Eff × Bool) (c : CofferCopy × Bool) : Eff × Bool :=
    if x.2 then x
    else
      let (e, ok) := x.1.tryPlan c.1
      (if ok && c.2 then e.up fun h => h.setRegBit Reg.bootStatus 9 true else e, ok)
  let (e, ok) := if failed then (e, false) else (copies.zip [false, true]).foldl try1 (e, false)
  e.up fun h =>
    let h := if ok || (copies.isEmpty && !failed) then h
      else (h.setRegBit Reg.bootStatus 10 true).setReg Reg.planStatus 2
    let h := if !ok && flags.testBit 0 then h.classA 0x0B 56 else h
    if flags.testBit 1 then h.setRegBit Reg.fwCtrl 1 true else h

/-! ### Ends of phases (R589, R590) -/

/-- A phase ends and another begins. -/
def Hw.bootNext (h : Hw) (n next : Nat) (us : Word) : Hw :=
  ((h.setReg (Reg.bootPhaseEnd n) us).setRegFld Reg.bootStatus 2 0 next).updBoot fun b => { b with phase := some next }

/-- The start has stopped at the end of phase `n`, which is its end (R593). -/
def Hw.bootStopped (h : Hw) (n : Nat) (us : Word) : Hw := (h.setReg (Reg.bootPhaseEnd n) us).setReg Reg.bootTime us

/-- BOOT_PHASE_END: the phase in progress acts and ends, `us` after the start. -/
def Eff.bootPhaseEnd (e : Eff) (us : Word) : Eff :=
  let h := e.hw
  let reset := h.boot.rstPhase.isSome
  match h.boot.phase with
  | some 0 =>
    let e := e.up fun h => h.bootRead true
    e.up fun h => if h.boot.stopped then h.bootStopped 0 us else h.bootNext 0 1 us
  | some 1 =>
    (e.bootRepair (!reset)).up fun h =>
      if reset then h.bootNext 1 3 us else (h.bootNext 1 2 us).setReg Reg.lfcStatus 0
  | some 2 => if h.checkPassed then e.up fun h => h.bootNext 2 3 us else e
  | some 3 =>
    if !h.dealer.running then e
    else
      let (e, ok) := e.bootConfigure
      e.up fun h =>
        if !ok then h.bootStopped 3 us
        else
          let h := h.bootNext 3 4 us
          match h.badImage with
          | some m => h.fetchFails m
          | none => h
  | some 4 => if h.fetchOver then e.up fun h => h.bootNext 4 5 us else e
  | some 5 => e.bootPlan.up fun h => ((h.setReg (Reg.bootPhaseEnd 5) us).setReg Reg.bootTime us).bootEnds
  | _ => e

end Sys2Proof.Machine
end

