-- ==== Sys2Proof/Machine/EngineReset.lean ====
section
/-!
DEFINITION. The engine reset: its begin and its six phases (13_faults_reset_recovery.md R534 to R538;
16_boundary_and_register_map.md R618, R621, R623).
-/
namespace Sys2Proof.Machine

open Sys2Proof

/-! ### Begin (R534, R535 phase 1) -/

/-- Contexts that exist. -/
def Hw.contexts (h : Hw) : List Nat := (h.caller.ctxs.filter fun x => x.2.isSome).map Prod.fst

/-- The engine reset begins: BOOT_DONE clears, SAFE_ERR is held at 0, and every context is reset, not counted, and so is
the saved work of one that is not resident. -/
def Eff.beginReset (e : Eff) (byInput : Bool) : Eff :=
  let e := e.up fun h =>
    let h := (h.setRegBit Reg.engStatus0 13 false).setRegBit Reg.bootStatus 3 true
    let h := (h.setRegBit Reg.smStatus 30 false).log { kind := LogKind.engineReset, detail := if byInput then 2 else 1 }
    let h := h.updSafety fun s => { s with safe0 := false, safe1 := false }
    h.updBoot fun b => { b with phase := none, rstPhase := some 1, held := false, stopped := false }
  e.each e.hw.contexts fun e c =>
    (e.reset { ctx := c, status := Status.contextReset, counted := false, part := none }).up fun h => h.endSaved c

/-- ENG_RST: the key begins a reset; other values, and a write while one is in progress, are ignored (R618). -/
def Eff.engRst (e : Eff) (key : Nat) : Eff :=
  if key = 0x5245 && e.hw.boot.good && e.hw.boot.rstPhase.isNone then e.beginReset false else e

/-! ### End of the fence (R345, R535) -/

/-- Records that are neither written nor held and belong to plan queues. -/
def Hw.planRecordsDue (h : Hw) : Bool :=
  h.caller.items.any fun i => i.state == .done && ((h.queue? i.queue).map fun q => q.plan.isSome).getD false

/-- The fence ends: host records go to the Record Holdback, and the log, and a dump that is held, are to be stored. -/
def Hw.fenceEnds (h : Hw) : Hw :=
  let h := (h.caller.queues.map Prod.fst).foldl Hw.holdRecords h
  let h := (h.updCaller fun c => { c with resets := [] }).setRegBit Reg.rstStatus 31 false
  let h := h.storeDue 5
  let h := if h.regBit Reg.dumpStatus 31 then h.storeDue 6 else h
  h.updBoot fun b => { b with rstPhase := some 2 }

/-! ### Phase 3: the domain reset (R536, R538, R464) -/

/-- Registers of the fabric domain whose counts are kept: cleared by power loss only (14 R572, 15 R604). -/
def countKept (o : Nat) : Bool :=
  isOne o [Reg.pwrEnergy, Reg.pwrEnergy + 4, Reg.cofCorrCnt, Reg.cofUncCnt] ||
    (decide (Reg.pwrBubble 0 ≤ o) && decide (o < Reg.pwrBubble 16)) || (decide (Reg.pwrThrTime 0 ≤ o) && decide (o < Reg.pwrThrTime 7))

/-- What a register holds after the domain reset: one of the fabric domain its reset value, one of the always-on island its
value with the RWS bits reset; R464 and the counts are kept. -/
def afterDomain (o : Nat) (v : Word) : Word :=
  if countKept o then v
  else
    let w := if fabricOffset o then regReset o else v
    if linkKept o then mixMask (rwsMask o) w v else mixMask (rwsMask o) w (regReset o)

/-- Registers after the domain reset, the shadows and the snapshots with them. -/
def Hw.domainRegs (h : Hw) : Hw :=
  let session := h.regFld Reg.ptnStatus 15 8
  let alert := h.regBit Reg.pwrStatus 12
  let h' := { h with regs := [], captured := none
                     snaps := h.snaps.filter (fun x => !fabricOffset x.1), staged := h.staged.filter (fun x => !fabricOffset x.1) }
  let h' := h.regs.foldl (fun (k : Hw) x => k.setReg x.1 (afterDomain x.1 x.2)) h'
  let h' := (h'.shadowsReset linkKept).setRegFld Reg.ptnStatus 15 8 session
  let h' := (h'.setRegBit Reg.pwrStatus 12 alert).setRegBit Reg.bootStatus 3 true
  let h' := (h'.setRegBit Reg.commitStatus 31 false).setReg Reg.hangStatus 0
  let h' := ((h'.setReg64 Reg.callerTricks 0).setReg Reg.planRecOverwrite 0).setReg Reg.planStatus 0
  let h' := (List.range 16).foldl (fun (k : Hw) p => (k.setReg (Reg.partCtrl p) 0).setReg (Reg.partRun p) (regReset (Reg.partRun p))) h'
  (h'.setRegBit Reg.globalStatus 0 false).pendingCount

/-- A host queue is unregistered with a last record; one that a destroy was unregistering keeps its own. -/
def Hw.unregister (h : Hw) (q : Nat) : Hw :=
  match h.queue? q with
  | none => h
  | some x =>
    if x.destroying.isSome then h
    else
      let h := h.updQueue q fun x => { x with destroying := some (0, 0), hold := none, holdItem := none, batch := [] }
      let (i, h) := h.newItem q 0 0 0 false false []
      (h.updItem i fun y =>
        { y with state := .done, status := Status.contextReset, time := h.now, final := true, doneSeq := h.caller.nextDone }).updCaller
        fun c => { c with nextDone := c.nextDone + 1 }

/-- A context after the domain reset: plan contexts and those without a queue are gone, the others leave with their last
queue. -/
def Hw.resetLeaves (h : Hw) (c : Nat) : Hw :=
  match h.ctx? c with
  | none => h
  | some x =>
    let h := if x.evicting then h.adminEnd Status.contextReset else h
    if x.plan || (h.queuesOf c).isEmpty then h.setCtx c none
    else h.updCtx c fun x =>
      { x with leaving := true, slot := none, pause := [], evicting := false, blockedAt := none, wants := false, resetMark := false }

/-- The Caller after the domain reset. -/
def Hw.domainCaller (h : Hw) : Hw :=
  let plan := (h.caller.queues.filter fun x => (x.2.map fun q => q.plan.isSome).getD false).map Prod.fst
  let h := plan.foldl (fun (h : Hw) q =>
    (h.setQueue q none).updCaller fun c => { c with items := c.items.filter fun i => i.queue != q }) h
  let h := h.updCaller fun c =>
    { c with
      launches := [], kernels := [], codes := [], cellar := [], carryCycles := [], resets := [], primaries := [], sig := [],
      ages := [], planDue := []
      keep := (List.range 16).foldl (fun t p =>
        let k := Tbl.get (fun _ => PartKeep.none) c.keep p
        Tbl.put (fun _ => PartKeep.none) t p { PartKeep.none with resets := k.resets, retired := k.retired }) [] }
  let h := if h.caller.adminDue.isSome then (h.updCaller fun c => { c with adminDue := none }).adminEnd Status.contextReset else h
  let h := (h.caller.queues.map Prod.fst).foldl Hw.unregister h
  (h.contexts.foldl Hw.resetLeaves h).residentCount.setRegBit Reg.resStatus 31 false

/-- Every physical core without power, a retired one as such. -/
def Hw.domainCores (h : Hw) : Hw :=
  (List.range 68).foldl (fun (k : Hw) p =>
    if h.regBit (Reg.retiredMap (p / 32)) (p % 32) then k.updBody p fun b => { b with run := .retired } else k) { h with cores := [] }

/-- The units of the fabric domain after its reset; the voltage that is in force stays. -/
def Hw.domainUnits (h : Hw) : Hw :=
  let w := h.power
  let h := { h with
    loft := { Loft.reset with slicesOff := h.loft.slicesOff }, atu := Atu.reset, streams := [], offers := [], links := [], partner := Partner.start,
    power := { Power.reset with vid := w.vid, vidOp := w.vidOp, inForce := w.inForce, energyRem := w.energyRem, offsets := w.offsets } }
  let h := h.updSafety fun s =>
    { s with joker := [], jkBase := none, jkCores := [], jkFailed := false, passed := [], injJoker := [], injRedeal := [], injAge := [] }
  (h.updCoffer fun c => { c with session := none }).updBoot fun b => { b with planCrc := 0, bci := [], phase := none }

/-- Phase 3: the fabric domain and every switched domain are reset; the on-chip memory is lost. -/
def Eff.domainReset (e : Eff) : Eff :=
  let e := (e.write (.clear 0 (pantryAddr 68 0))).write (.clear (loftAddr 0) (loftAddr (2 ^ 21)))
  e.up fun h => (h.domainCaller.domainRegs.domainCores.domainUnits).updBoot fun b => { b with rstPhase := some 3 }

/-- The fabric domain leaves reset, and the self-test begins. -/
def Hw.fabricUp (h : Hw) : Hw :=
  (h.setRegBit Reg.globalStatus 0 true).updBoot fun b => { b with rstPhase := some 4, held := false }

/-- TEST_EN is sampled (16 R623). -/
def Hw.sampleTest (h : Hw) (testEn : Bool) : Hw :=
  let h := (h.setRegBit Reg.globalStatus 2 testEn).updBoot fun b => { b with testEn }
  if testEn then h else h.updBoot fun b => { b with wir := 0 }

/-- Phase 3 ends; it waits while the reset input is asserted. -/
def Hw.domainEnds (h : Hw) (testEn : Bool) : Hw :=
  let h := h.sampleTest testEn
  if h.boot.engLow then h.updBoot fun b => { b with held := true } else h.fabricUp

/-! ### Phase 4: the self-test (R537) -/

/-- A failing row or column enters the repair map; spares that it exhausts retire the core. -/
def Hw.failedLine (h : Hw) (typ p array n : Nat) : Hw :=
  if (h.boot.failed typ p array).contains n then h
  else
    let h := h.recordRepair (([typ, p, array, n, (h.servedBy p).getD 0, 0, 0, 0] : List Nat).map (BitVec.ofNat 8))
    if h.boot.exhausted p array then (h.service 1).addRetirement p 2 else h

/-- What the self-test does about a finding. -/
def Hw.found (h : Hw) : Finding → Hw
  | .row p array n => h.failedLine 1 p array n
  | .column p array n => h.failedLine 2 p array n
  | .word p => h.addRetirement p 3
  | .loft slice =>
    (h.updLoft fun l => { l with slicesOff := if l.slicesOff.contains slice.val then l.slicesOff else l.slicesOff ++ [slice.val] }).service 6

/-- Phase 4 rewrites the Pantries, the Loft and the Instruction Stores (16 R621). -/
def Eff.rewritten (e : Eff) : Eff :=
  ((e.write (.clear 0 (pantryAddr 68 0))).write (.clear (loftAddr 0) (loftAddr (2 ^ 21)))).up Hw.domainCores

/-- Phase 4: findings, retirements that a trigger has begun, and the Read phase of the Boot Sequencer (15 R590). -/
def Hw.selfTest (h : Hw) (findings : List Finding) (us : Word) : Hw :=
  let h := findings.foldl Hw.found h
  let h := (h.boot.leaving ++ h.boot.retiring).foldl (fun (h : Hw) x => h.addRetirement x.1 x.2) h
  let h := (h.updBoot fun b => { b with retiring := [], leaving := [] }).bootRead false
  if h.boot.stopped then h.bootStopped 0 us
  else ((h.setReg (Reg.bootPhaseEnd 0) us).setReg Reg.lfcStatus 0).updBoot fun b => { b with rstPhase := some 5 }

/-! ### The phases (R535) -/

/-- No store that phase 2 waits for is due. -/
def Hw.saved (h : Hw) : Bool := !(h.coffer.due.contains 5 || h.coffer.due.contains 6)

/-- ENGINE_RESET_PHASE_END: the phase in progress ends, `us` after the start of the reset, and the next begins. -/
def Eff.resetPhaseEnd (e : Eff) (findings : List Finding) (testEn : Bool) (us : Word) : Eff :=
  match e.hw.boot.rstPhase with
  | some 1 => if e.hw.planRecordsDue then e else e.up Hw.fenceEnds
  | some 2 => if e.hw.saved then e.domainReset else e
  | some 3 => if e.hw.boot.held then e else e.up fun h => h.domainEnds testEn
  | some 4 => e.rewritten.up fun h => h.selfTest findings us
  | some 5 =>
    if e.hw.checkPassed then
      e.up fun h => (h.setRegFld Reg.bootStatus 2 0 1).updBoot fun b => { b with rstPhase := some 6, phase := some 1 }
    else e
  | _ => e

/-! ### The reset input (16 R618) -/

/-- ENG_RST_N is asserted: a reset begins, or the one in progress is joined or resumed at phase 3. -/
def Eff.resetAsserted (e : Eff) : Eff :=
  let e := e.up fun h =>
    let h := h.updBoot fun b => { b with engLow := true }
    if h.boot.good then h.setRegBit Reg.globalStatus 1 true else h
  if !e.hw.boot.good then e
  else match e.hw.boot.rstPhase with
    | some n => if n ≤ 3 then e else e.domainReset
    | none =>
      -- The Boot Sequencer still waits before phase 0 for the input.
      if e.hw.boot.phase.isNone && !e.hw.bootDone && !e.hw.boot.stopped then e else e.beginReset true

/-- The Boot Sequencer begins at phase 0. -/
def Hw.bootBegins (h : Hw) : Hw := (h.setRegBit Reg.globalStatus 0 true).updBoot fun b => { b with phase := some 0 }

/-- ENG_RST_N is deasserted. -/
def Hw.resetDeasserted (h : Hw) : Hw :=
  let waits := h.boot.good && h.boot.rstPhase.isNone && h.boot.phase.isNone && !h.bootDone && !h.boot.stopped
  let h := h.updBoot fun b => { b with engLow := false, wir := 0 }
  let h := if h.boot.good then h.setRegBit Reg.globalStatus 1 false else h
  if h.boot.held then h.fabricUp else if waits then h.bootBegins else h

end Sys2Proof.Machine
end

