-- ==== Sys2Proof/Machine/BootRows.lean ====
section
/-!
DEFINITION. The meanings of the Boot Sequencer and of the engine reset (13_faults_reset_recovery.md R534 to R537;
15_coffer_boot_configuration.md R588 to R593; 12_functional_safety.md R515, R516).
-/
namespace Sys2Proof.Machine

open Sys2Proof

/-- `ENG_RST`: Write of the key value to ENG_RST begins an engine reset (R534). -/
def execEngRst (key : BitVec 16) (s : State) : Host.Outcome State Fault Refusal :=
  s.done fun e => e.atPort Reg.engRst fun e => e.engRst key.toNat

/-- `ENGINE_RESET_PHASE_END`: An engine reset phase ends and the next phase begins (R535). -/
def execEngineResetPhaseEnd (findings : List Finding) (testEn : Bool) (us : Word) (s : State) :
    Host.Outcome State Fault Refusal :=
  s.done fun e => e.resetPhaseEnd findings testEn us

/-- `LATENT_FAULT_CHECK`: The Latent Fault Check runs its injections and records pass or fail (R515). -/
def execLatentFaultCheck (results : BitVec 17) (us ended : Word) (s : State) : Host.Outcome State Fault Refusal :=
  s.done fun e => e.up fun h => h.latentCheck results us ended

/-- `BOOT_PHASE_END`: A Boot Sequencer phase ends and the next begins (R589). -/
def execBootPhaseEnd (us : Word) (s : State) : Host.Outcome State Fault Refusal :=
  s.done fun e => e.bootPhaseEnd us

/-- `IMAGE_FETCH_DONE`: A model image finishes fetching and its digest is checked (R588). -/
def execImageFetchDone (image : MemAnswer) (wrote : Bool) (s : State) : Host.Outcome State Fault Refusal :=
  s.done fun e => e.up fun h => h.imageDone image wrote

end Sys2Proof.Machine
end

