-- ==== Sys2Proof/Machine/CallerRows.lean ====
section
/-!
DEFINITION. The meanings of contexts, queues, kernels on partitions, records and plan runs (08_caller_and_queues.md).
-/
namespace Sys2Proof.Machine

open Sys2Proof

/-- `CELLAR_SPILL`: The Caller spills a context's carry regions to its Cellar (R249). -/
def execCellarSpill (part : Fin 16) (cycles : Nat) (s : State) : Host.Outcome State Fault Refusal :=
  s.done fun e => e.cellarSpill part cycles

/-- `CELLAR_RESTORE`: The Caller restores carry regions before the context's next kernel (R250). -/
def execCellarRestore (part : Fin 16) (images : List (List (List Byte × List Bool))) (cycles : Nat) (s : State) :
    Host.Outcome State Fault Refusal :=
  s.done fun e => e.cellarRestore part images cycles

/-- `DB_TAIL_WRITE`: A write to a doorbell's DB_TAIL admits packets and may make the context resident (R312). -/
def execDbTailWrite (queue : Fin 1024) (t : Word) (s : State) : Host.Outcome State Fault Refusal :=
  s.done fun e => e.atPort (Reg.dbTail queue) fun e => e.up fun h => h.tailWrite queue t

/-- `DB_REC_HEAD_WRITE`: A write to DB_REC_HEAD frees record slots and retries held records (R312). -/
def execDbRecHeadWrite (queue : Fin 1024) (v : Word) (cls : Fin 5) (s : State) : Host.Outcome State Fault Refusal :=
  s.done fun e => e.atPort (Reg.dbRecHead queue) fun e => e.up fun h => h.recHeadWrite queue v cls

/-- `CTX_CREATE`: Admin operation that reads and accepts a Context Descriptor (R308). -/
def execCtxCreate (desc : MemAnswer) (s : State) : Host.Outcome State Fault Refusal :=
  s.done fun e => e.atPort Reg.adminOp fun e => e.up fun h => h.ctxCreate desc

/-- `CTX_DESTROY`: Admin operation that removes a context without queues (R308). -/
def execCtxDestroy (s : State) : Host.Outcome State Fault Refusal :=
  s.done fun e => e.atPort Reg.adminOp fun e => e.up fun h => h.ctxDestroy

/-- `QUEUE_CREATE`: Admin operation that registers a queue from a Queue Descriptor (R309). -/
def execQueueCreate (desc : MemAnswer) (s : State) : Host.Outcome State Fault Refusal :=
  s.done fun e => e.atPort Reg.adminOp fun e => e.up fun h => h.queueCreate desc

/-- `QUEUE_DESTROY`: Admin operation that cancels a queue's work, writes its final record and unregisters it (R346). -/
def execQueueDestroy (s : State) : Host.Outcome State Fault Refusal :=
  s.done fun e => e.atPort Reg.adminOp fun e => e.up fun h => h.queueDestroy

/-- `CTX_EVICT`: Admin operation that saves a context's front ends and frees its resident slot (R343). -/
def execCtxEvict (s : State) : Host.Outcome State Fault Refusal :=
  s.done fun e => e.atPort Reg.adminOp fun e => e.up fun h => h.ctxEvict

/-- `KERNEL_SELECT`: At a kernel boundary the Caller chooses the next kernel for a partition (R338). -/
def execKernelSelect (part : Fin 16) (s : State) : Host.Outcome State Fault Refusal :=
  s.done fun e => e.up fun h => h.kernelSelect part

/-- `CONTEXT_SWITCH`: The Caller spills, clears, restores and loads code for a new context on a partition (R339). -/
def execContextSwitch (part : Fin 16) (code : List (BitVec 128 × Bool)) (cycles : Nat) (s : State) : Host.Outcome
    State Fault Refusal :=
  s.done fun e => e.contextSwitch part code cycles

/-- `KERNEL_START`: The Caller sets core state and starts a kernel on every core of a partition (R167). -/
def execKernelStart (part : Fin 16) (s : State) : Host.Outcome State Fault Refusal :=
  s.done fun e => e.kernelStart part

/-- `KERNEL_END`: A kernel ends when every core has halted, and its LAUNCH completes (R322). -/
def execKernelEnd (part : Fin 16) (s : State) : Host.Outcome State Fault Refusal :=
  s.done fun e => e.kernelEnd part

/-- `RECORD_WRITE`: A completion record is written to a record ring or held back (R344). -/
def execRecordWrite (queue : Fin 1024) (s : State) : Host.Outcome State Fault Refusal :=
  s.done fun e => e.up fun h => h.recordWrite queue

/-- `PLAN_RUN`: At an epoch boundary a plan queue runs its buffer or records an overrun (R351). -/
def execPlanRun (queue : Fin 1024) (s : State) : Host.Outcome State Fault Refusal :=
  s.done fun e => e.up fun h => h.planRun queue

/-- `REDEAL_COPY_START`: A Redeal copy starts on the copy partition at its kernel boundary (R497). -/
def execRedealCopyStart (part : Fin 16) (s : State) : Host.Outcome State Fault Refusal :=
  s.done fun e => e.up fun h => h.copyStart part

end Sys2Proof.Machine
end

