-- ==== Sys2Proof/Machine/CofferRows.lean ====
section
/-!
DEFINITION. The meanings of the Coffer, the error log and the crash dump (15_coffer_boot_configuration.md R579 to R584;
13_faults_reset_recovery.md R539, R540).
-/
namespace Sys2Proof.Machine

open Sys2Proof

/-- `ELOG_SAVE`: ELOG_CTRL SAVE stores the live error log to the Coffer (R539). -/
def execElogSave (s : State) : Host.Outcome State Fault Refusal :=
  s.done fun e => e.atPort Reg.elogCtrl fun e => e.up Hw.elogSave

/-- `ELOG_DATA_READ`: Read of ELOG_DATA0 reads an entry and captures the window (R539). -/
def execElogDataRead (s : State) : Host.Outcome State Fault Refusal :=
  s.done fun e => e.atPort (Reg.elogData 0) fun e => e.up Hw.elogDataRead

/-- `DUMP_DATA_READ`: Read of DUMP_DATA returns a dump word and increments DUMP_IDX (R540). -/
def execDumpDataRead (s : State) : Host.Outcome State Fault Refusal :=
  s.done fun e => e.atPort Reg.dumpData fun e => e.up Hw.dumpDataRead

/-- `DUMP_REARM`: Writing 1 to DUMP_STATUS.FULL re-arms the crash dump (R540). -/
def execDumpRearm (s : State) : Host.Outcome State Fault Refusal :=
  s.done fun e => e.atPort Reg.dumpStatus fun e => e.up Hw.dumpRearm

/-- `STORE_OPEN`: COF_STORE_CTRL OPEN erases the target copy and opens a session (R580). -/
def execStoreOpen (kind : BitVec 4) (busy : Bool) (s : State) : Host.Outcome State Fault Refusal :=
  s.done fun e => e.atPort Reg.cofStoreCtrl fun e => e.up fun h => h.storeOp busy fun h => h.storeOpen kind.toNat

/-- `STORE_CHUNK`: COF_STORE_CTRL CHUNK writes the staging buffer to one sector and verifies it (R581). -/
def execStoreChunk (index : Byte) (busy verify : Bool) (s : State) : Host.Outcome State Fault Refusal :=
  s.done fun e => e.atPort Reg.cofStoreCtrl fun e => e.up fun h => h.storeOp busy fun h => h.storeChunk index.toNat verify

/-- `STORE_CLOSE`: COF_STORE_CTRL CLOSE writes the header and makes the copy active (R582). -/
def execStoreClose (busy verify : Bool) (s : State) : Host.Outcome State Fault Refusal :=
  s.done fun e => e.atPort Reg.cofStoreCtrl fun e => e.up fun h => h.storeOp busy fun h => h.storeClose verify

/-- `STORE_ABORT`: COF_STORE_CTRL ABORT ends the session leaving the active copy unchanged (R583). -/
def execStoreAbort (busy : Bool) (s : State) : Host.Outcome State Fault Refusal :=
  s.done fun e => e.atPort Reg.cofStoreCtrl fun e => e.up fun h => h.storeOp busy Hw.storeAbort

/-- `STAGE_WRITE`: A write to the staging buffer, refused while a CHUNK runs (R581). -/
def execStageWrite (word : Fin 1024) (v : Word) (running : Bool) (s : State) : Host.Outcome State Fault Refusal :=
  s.done fun e => e.atPort (Reg.cofStage word) fun e => e.up fun h => h.stageWrite word v running

/-- `ENGINE_STORE`: The engine stores repair, trim, error-log or dump content to the Coffer (R585). -/
def execEngineStore (kind : Fin 8) (verify : Bool) (s : State) : Host.Outcome State Fault Refusal :=
  s.done fun e => e.up fun h => h.engineStore kind verify

end Sys2Proof.Machine
end

