-- ==== Sys2Proof/Machine/CommitRows.lean ====
section
/-!
DEFINITION. The meanings of COMMIT (15_coffer_boot_configuration.md R595 to R602).
-/
namespace Sys2Proof.Machine

open Sys2Proof

/-- `COMMIT_GO`: COMMIT_CTRL GO captures every shadow value for a later effect point (R595). -/
def execCommitGo (at_ : Bool) (s : State) : Host.Outcome State Fault Refusal :=
  s.done fun e => e.atPort Reg.commitCtrl fun e => e.up fun h => h.commitGo at_

/-- `COMMIT_REVERT`: COMMIT_CTRL REVERT sets every shadow to its committed value (R600). -/
def execCommitRevert (s : State) : Host.Outcome State Fault Refusal :=
  s.done fun e => e.atPort Reg.commitCtrl fun e => e.up fun h => h.commitRevert

/-- `COMMIT_EFFECT`: At its effect point a captured set is checked and committed or rejected (R597). -/
def execCommitEffect (s : State) : Host.Outcome State Fault Refusal :=
  s.done fun e => e.commitEffect

end Sys2Proof.Machine
end

