-- ==== Sys2Proof/Machine/DealerRows.lean ====
section
/-!
DEFINITION. The meanings of the Dealer (10_dealer_time_base.md R401 to R430).
-/
namespace Sys2Proof.Machine

open Sys2Proof

/-- `DEALER_TICK`: At each DCLK tick the Dealer adds INCR to time and elapsed time and drives the time bus (R401). -/
def execDealerTick (s : State) : Host.Outcome State Fault Refusal :=
  s.done fun e => (e.up fun h => h.dealerTick).powerTick

/-- `DEALER_START`: On Dealer reset deassertion the Dealer loads calibration, logs and begins ticking (R404). -/
def execDealerStart (s : State) : Host.Outcome State Fault Refusal :=
  s.done fun e => e.up fun h => if h.boot.aon then (h.updBoot fun b => { b with dlrLow := false }).dealerStart else h

/-- `INCR_WRITE`: A write of INCR sets the rate, or is refused outside the sealed bounds (R405). -/
def execIncrWrite (v : BitVec 36) (s : State) : Host.Outcome State Fault Refusal :=
  s.done fun e => e.atPort Reg.incr fun e => e.up fun h => if h.dealer.running then h.incrWrite v else h

/-- `ADJ_STEP`: A write of ADJ_STEP steps the Dealer time, or is refused (R406). -/
def execAdjStep (delta : Word) (s : State) : Host.Outcome State Fault Refusal :=
  s.done fun e => e.atPort Reg.adjStep fun e => e.up fun h => if h.dealer.running then h.adjStep delta else h

/-- `TIME_LOAD`: LOAD_CTRL.GO loads the Dealer time, or is refused (R407). -/
def execTimeLoad (s : State) : Host.Outcome State Fault Refusal :=
  s.done fun e => e.atPort Reg.loadCtrl fun e => e.up fun h => if h.dealer.running then h.timeLoad else h

/-- `TIME_SOURCE_WRITE`: A write of TIME_SOURCE declares the reference and appends a SOURCE entry (R410). -/
def execTimeSourceWrite (v : BitVec 2) (s : State) : Host.Outcome State Fault Refusal :=
  s.done fun e => e.atPort Reg.timeSource fun e => e.up fun h => if h.dealer.running then h.sourceWrite v else h

/-- `PPS_IN_EDGE`: A PPS_IN rising edge captures a stamp or is ignored (R409). -/
def execPpsInEdge (s : State) : Host.Outcome State Fault Refusal :=
  s.done fun e => e.up fun h => h.ppsIn

/-- `STAMP_READ`: Read of STAMP0 issues a stamp and captures the rest (R412). -/
def execStampRead (s : State) : Host.Outcome State Fault Refusal :=
  s.done fun e => e.atPort (Reg.stamp 0) fun e => e.up fun h => h.stampRead.answer (Reg.stamp 0)

/-- `EPOCH_BOUNDARY`: An Epoch Generator reaches a boundary and increments its epoch count (R413). -/
def execEpochBoundary (g : Fin 8) (mirror : Option (List (List Byte × List Byte))) (s : State) : Host.Outcome State
    Fault Refusal :=
  s.done fun e => e.epochBoundary g mirror

/-- `FSYNC_PULSE`: An FSYNC output drives its pulse at its phase after a boundary (R417). -/
def execFsyncPulse (output : Fin 16) (s : State) : Host.Outcome State Fault Refusal :=
  s.done fun e => e.up fun h => h.fsyncPulse output

/-- `PPS_OUT_EDGE`: PPS_OUT rises at a whole second less its delay (R418). -/
def execPpsOutEdge (s : State) : Host.Outcome State Fault Refusal :=
  s.done fun e => e.up fun h => h.ppsEdge

/-- `UNSEAL`: SEAL_CTRL UNSEAL stores the seal sector and unseals the Dealer (R421). -/
def execUnseal (operator : BitVec 16) (reason : BitVec 8) (permit verify : Bool) (s : State) : Host.Outcome State
    Fault Refusal :=
  s.done fun e => e.atPort Reg.sealCtrl fun e => e.up fun h => if h.dealer.running then h.unsealOp operator reason permit verify else h

/-- `SEAL`: SEAL_CTRL SEAL computes CAL_CRC, logs and seals the Dealer (R423). -/
def execSeal (verify : Bool) (s : State) : Host.Outcome State Fault Refusal :=
  s.done fun e => e.atPort Reg.sealCtrl fun e => e.up fun h => if h.dealer.running then h.sealOp verify else h

/-- `SEAL_TIMEOUT`: CAL_UNSEAL_LIMIT seconds after an unseal the Dealer seals itself (R423). -/
def execSealTimeout (verify : Bool) (s : State) : Host.Outcome State Fault Refusal :=
  s.done fun e => e.up fun h => h.sealTimeout verify

/-- `CAL_WRITE`: A sealed-class RWK write while unsealed applies and is logged (R422). -/
def execCalWrite (offset : BitVec 16) (v : Word) (s : State) : Host.Outcome State Fault Refusal :=
  s.done fun e => e.atPort (0x50000 + offset.toNat) fun e => e.up fun h => if h.dealer.running then h.calWrite offset.toNat v else h

/-- `REFUSED_SUMMARY`: At the start of a second, refused RWK writes of the last second are logged in one entry (R420). -/
def execRefusedSummary (s : State) : Host.Outcome State Fault Refusal :=
  s.done fun e => e.up fun h => h.refusedSummary

/-- `LEDGER_DATA_READ`: Read of LEDGER_DATA0 reads a Ledger entry and captures the window (R428). -/
def execLedgerDataRead (s : State) : Host.Outcome State Fault Refusal :=
  s.done fun e => e.atPort (Reg.ledgerData 0) fun e => e.up fun h => h.ledgerDataRead.answer (Reg.ledgerData 0)

/-- `DCLK_MONITOR`: Each 1 ms of FCLK the Safety Monitor compares DCLK with FCLK (R430). -/
def execDclkMonitor (bad : Bool) (s : State) : Host.Outcome State Fault Refusal :=
  s.done fun e => e.up fun h => if bad && h.boot.good then (h.dclkMonitor bad).checkerA 0x04 0 else h

end Sys2Proof.Machine
end

