-- ==== Sys2Proof/Machine/DmaRows.lean ====
section
/-!
DEFINITION. The meanings of core DMA, engine DMA and the Gather Units (06_pantry_loft_gather.md R261 to R271;
09_translation_dma_memory_ports.md R376 to R381).
-/
namespace Sys2Proof.Machine

open Sys2Proof

/-- `CORE_DMA_ITEM_START`: The core DMA engine starts a queued item and checks its descriptor (R376). -/
def execCoreDmaItemStart (p : CoreIx) (s : State) : Host.Outcome State Fault Refusal :=
  s.done fun e => e.dmaStart p

/-- `CORE_DMA_ITEM_COMPLETE`: A core DMA item completes and increments its counter (R377). -/
def execCoreDmaItemComplete (p : CoreIx) (id : Nat) (s : State) : Host.Outcome State Fault Refusal :=
  s.done fun e => e.up fun h => h.dmaComplete p id

/-- `LOFT_REQUEST`: A Loft scratchpad or cache request is served, checked against owner and SHARED (R237). -/
def execLoftRequest (p : CoreIx) (id : Nat) (s : State) : Host.Outcome State Fault Refusal :=
  s.done fun e => e.loftRequest p id

/-- `GATHER_JOB_ACCEPT`: A gather job descriptor is read and placed in its unit's job queue (R261). -/
def execGatherJobAccept (p : CoreIx) (id : Nat) (s : State) : Host.Outcome State Fault Refusal :=
  s.done fun e => e.gatherAccept p id

/-- `GATHER_JOB_START`: A unit validates a GJD and begins fetching (R262). -/
def execGatherJobStart (gu : Fin 4) (part : Fin 16) (s : State) : Host.Outcome State Fault Refusal :=
  s.done fun e => e.gatherStart gu part

/-- `GATHER_ROW_RETURN`: A fetched row returns and is reduced or delivered (R264). -/
def execGatherRowReturn (gu : Fin 4) (p : CoreIx) (dma : Nat) (k : Nat) (s : State) : Host.Outcome State Fault
    Refusal :=
  s.done fun e => e.up fun h => h.gatherRow gu p dma k

/-- `GATHER_OUTPUT_WRITE`: A unit writes an output into the destination Pantry and advances grain counts (R267). -/
def execGatherOutputWrite (gu : Fin 4) (p : CoreIx) (dma : Nat) (n : Nat) (s : State) : Host.Outcome State Fault
    Refusal :=
  s.done fun e => e.gatherOutput gu p dma n

/-- `GATHER_STATUS_WRITE`: After the last delivery the unit writes the status block and the item completes (R268). -/
def execGatherStatusWrite (gu : Fin 4) (p : CoreIx) (dma : Nat) (s : State) : Host.Outcome State Fault Refusal :=
  s.done fun e => e.gatherStatus gu p dma

/-- `GATHER_JOB_CANCEL`: A job stops on reset, kill or destroy, waits for fetches and writes CANCELLED (R269). -/
def execGatherJobCancel (gu : Fin 4) (p : CoreIx) (dma : Nat) (s : State) : Host.Outcome State Fault Refusal :=
  s.done fun e => e.gatherCancel gu p dma

/-- `ENGINE_DMA_START`: A waiting engine DMA item takes a free channel and starts (R380). -/
def execEngineDmaStart (s : State) : Host.Outcome State Fault Refusal :=
  s.done fun e => e.up fun h => h.engineStart

/-- `ENGINE_DMA_COMPLETE`: An engine DMA item completes and writes its record (R381). -/
def execEngineDmaComplete (channel : Fin 16) (s : State) : Host.Outcome State Fault Refusal :=
  s.done fun e => e.up fun h => h.engineComplete channel

end Sys2Proof.Machine
end

