-- ==== Sys2Proof/Machine/HatchRows.lean ====
section
/-!
DEFINITION. The meanings of Hatch messages (06_pantry_loft_gather.md R252 to R260).
-/
namespace Sys2Proof.Machine

open Sys2Proof

/-- `HATCH_ARRIVAL`: A remote write arrives at a Hatch owner and is checked, written or answered (R255). -/
def execHatchArrival (n : Nat) (s : State) : Host.Outcome State Fault Refusal :=
  s.done fun e => (e.arrive n).up Hw.recheckAll

/-- `HATCH_ANSWER`: The answer to an HPUT or TO_HATCH piece reaches its sender and advances its counter (R179). -/
def execHatchAnswer (n : Nat) (s : State) : Host.Outcome State Fault Refusal :=
  s.done fun e => e.hatchAnswer n

/-- `HATCH_NOTICE`: An OPEN or CLOSE notice reaches a core and updates its Hatch directory (R252). -/
def execHatchNotice (n : Nat) (s : State) : Host.Outcome State Fault Refusal :=
  s.done fun e => e.up fun h => h.hatchNotice n

/-- `HATCH_CLOSE_REPLY`: A core replies to a CLOSE notice after its earlier writes have reached the owner (R258). -/
def execHatchCloseReply (p : CoreIx) (key : Nat) (s : State) : Host.Outcome State Fault Refusal :=
  s.done fun e => e.up fun h => (h.hatchCloseReply p key).recheckAll

/-- `ARRIVAL_WRITE`: Slot 6 writes one buffered arrival into the Pantry (R226). -/
def execArrivalWrite (p : CoreIx) (s : State) : Host.Outcome State Fault Refusal :=
  s.done fun e => e.arrivalWrite p

end Sys2Proof.Machine
end

