-- ==== Sys2Proof/Machine/LinkRows.lean ====
section
/-!
DEFINITION. The meanings of the link ports (11_links_and_partnership.md R433 to R452, R465 to R467).
-/
namespace Sys2Proof.Machine

open Sys2Proof

/-- `RX_FRAME`: A received Ethernet frame is checked and dispatched (R437). -/
def execRxFrame (link : Fin 2) (data : List Byte) (fcsOk : Bool) (ts : BitVec 72) (fec : Nat × Nat) (descs :
    List MemAnswer) (s : State) : Host.Outcome State Fault Refusal :=
  s.done fun e => (e.rxFrame link data fcsOk ts fec descs).up Hw.recheckAll

/-- `TX_FRAME`: Transmission selection starts a frame of the highest eligible class (R442). -/
def execTxFrame (link : Fin 2) (ts : BitVec 72) (s : State) : Host.Outcome State Fault Refusal :=
  s.done fun e => e.up fun h => h.txFrame link ts

/-- `TXR_TAIL_WRITE`: A write of a transmit ring tail makes descriptors available (R438). -/
def execTxrTailWrite (link : Fin 2) (ring : Fin 8) (v : Word) (s : State) : Host.Outcome State Fault Refusal :=
  s.done fun e => e.atPort (Reg.txrTail link ring) fun e => e.up fun h => h.ringTail (Reg.txrCtrl link ring) (Reg.txrTail link ring) (Reg.txrHead link ring) v

/-- `RXR_TAIL_WRITE`: A write of the receive ring tail makes buffers available (R439). -/
def execRxrTailWrite (link : Fin 2) (v : Word) (s : State) : Host.Outcome State Fault Refusal :=
  s.done fun e => e.atPort (Reg.rxrTail link) fun e => e.up fun h => h.ringTail (Reg.rxrCtrl link) (Reg.rxrTail link) (Reg.rxrHead link) v

/-- `TX_DESCRIPTOR`: The engine reads a transmit descriptor and its buffer and writes it back (R438). -/
def execTxDescriptor (link : Fin 2) (ring : Fin 8) (desc buf : List Byte) (s : State) : Host.Outcome State Fault
    Refusal :=
  s.done fun e => e.up fun h => h.txDescriptor link ring desc buf

/-- `LINK_DOWN`: Loss of lock or alignment for more than 10 µs takes a port down (R435). -/
def execLinkDown (link : Fin 2) (block aligned fec : Bool) (s : State) : Host.Outcome State Fault Refusal :=
  s.done fun e => e.linkDown link block aligned fec

/-- `LINK_UP`: Block lock, alignment and FEC lock all hold and the port comes up (R435). -/
def execLinkUp (link : Fin 2) (s : State) : Host.Outcome State Fault Refusal :=
  s.done fun e => e.up fun h => h.linkUpNow link

/-- `GCL_ENTRY_ADVANCE`: A gate control entry's interval ends and the next entry applies (R444). -/
def execGclEntryAdvance (link : Fin 2) (s : State) : Host.Outcome State Fault Refusal :=
  s.done fun e => e.up fun h => h.gclAdvance link

/-- `AS_SYNC_SEND`: As grandmaster the port sends Sync and Follow_Up (R451). -/
def execAsSyncSend (link : Fin 2) (s : State) : Host.Outcome State Fault Refusal :=
  s.done fun e => e.up fun h => h.asSyncSend link

/-- `AS_ANNOUNCE_SEND`: As grandmaster the port sends Announce (R451). -/
def execAsAnnounceSend (link : Fin 2) (s : State) : Host.Outcome State Fault Refusal :=
  s.done fun e => e.up fun h => h.asAnnounceSend link

/-- `AS_PDELAY_SEND`: As end station the agent sends Pdelay_Req (R452). -/
def execAsPdelaySend (link : Fin 2) (s : State) : Host.Outcome State Fault Refusal :=
  s.done fun e => e.up fun h => h.asPdelaySend link

/-- `AS_MESSAGE_RECEIVE`: The 802.1AS agent processes a received Sync, Follow_Up or Pdelay message (R452). -/
def execAsMessageReceive (link : Fin 2) (s : State) : Host.Outcome State Fault Refusal :=
  s.done fun e => e.up fun h => h.asMessage link

/-- `INJ_ENABLE`: A write of INJ_CTRL.EN starts link fault injection or is denied (R465). -/
def execInjEnable (link : Fin 2) (v : Word) (s : State) : Host.Outcome State Fault Refusal :=
  s.done fun e => e.atPort (Reg.injCtrl link) fun e => e.up fun h => h.injEnable link v

/-- `REORDER_HOLD_EXPIRY`: A frame held by REORDER injection is released after 100 µs when INJ_DEPTH further frames have not passed (R467). -/
def execReorderHoldExpiry (link : Fin 2) (receive : Bool) (desc : MemAnswer) (s : State) : Host.Outcome State Fault
    Refusal :=
  s.done fun e => e.reorderExpiry link receive.toNat desc

end Sys2Proof.Machine
end

