-- ==== Sys2Proof/Machine/LoftRows.lean ====
section
/-!
DEFINITION. The meanings of the Loft, the scrubbers and the granules (06_pantry_loft_gather.md R230 to R247).
-/
namespace Sys2Proof.Machine

open Sys2Proof

/-- `SCRUB_UNIT`: The Pantry scrubber reads one unit every 2^DIV CCLK and corrects it (R230). -/
def execScrubUnit (p : CoreIx) (s : State) : Host.Outcome State Fault Refusal :=
  s.done fun e => e.scrubUnit p

/-- `SCRUB_WRITE_BACK`: The scrubber writes a corrected word back seven cycles after its read (R230). -/
def execScrubWriteBack (p : CoreIx) (s : State) : Host.Outcome State Fault Refusal :=
  s.done fun e => e.scrubWriteBack p

/-- `LOFT_SCRUB_UNIT`: A Loft slice scrubs one unit every 2^DIV FCLK (R240). -/
def execLoftScrubUnit (slice : Fin 16) (s : State) : Host.Outcome State Fault Refusal :=
  s.done fun e => e.loftScrubUnit slice

/-- `GRANULE_POWER_DOWN`: A granule powers down at the first suitable kernel boundary after its COMMIT (R232). -/
def execGranulePowerDown (p : CoreIx) (k : Fin 16) (s : State) : Host.Outcome State Fault Refusal :=
  s.done fun e => e.granulePowerDown p k

/-- `GRANULE_CLEAR_DONE`: Slot 7 finishes clearing a powered-up granule and sets UP (R233). -/
def execGranuleClearDone (p : CoreIx) (k : Fin 16) (s : State) : Host.Outcome State Fault Refusal :=
  s.done fun e => e.granuleClearDone p k

/-- `LOFT_CACHE_FILL`: A cache miss fill returns from DRAM and is installed (R242). -/
def execLoftCacheFill (n : Nat) (s : State) : Host.Outcome State Fault Refusal :=
  s.done fun e => e.up fun h => h.cacheFill n

/-- `LOFT_INV_PARTITION`: LOFT_INV_CTRL write starts invalidation of every line of a partition (R244). -/
def execLoftInvPartition (part : Fin 16) (s : State) : Host.Outcome State Fault Refusal :=
  s.done fun e => e.atPort Reg.loftInvCtrl fun e => e.up fun h => h.loftInvalidate part false

/-- `LOFT_INV_RANGE`: LOFT_INV_CTRL write starts invalidation of a partition's lines within a range (R244). -/
def execLoftInvRange (part : Fin 16) (s : State) : Host.Outcome State Fault Refusal :=
  s.done fun e => e.atPort Reg.loftInvCtrl fun e => e.up fun h => h.loftInvalidate part true

/-- `LOFT_INV_DONE`: An invalidation completes when every covered line is invalid (R244). -/
def execLoftInvDone (n : Nat) (s : State) : Host.Outcome State Fault Refusal :=
  s.done fun e => e.up fun h => h.loftInvDone n

/-- `LOFT_WAY_CLEAR_DONE`: A way that entered scratchpad mode finishes clearing (R246). -/
def execLoftWayClearDone (way : Fin 16) (s : State) : Host.Outcome State Fault Refusal :=
  s.done fun e => e.wayCleared way

end Sys2Proof.Machine
end

