-- ==== Sys2Proof/Machine/MatrixRows.lean ====
section
/-!
DEFINITION. The meanings of slot 2 and of the matrix unit (03_matrix_unit.md; 05_core_program.md R198 to R200).
-/
namespace Sys2Proof.Machine

open Sys2Proof

/-- `DLOAD`: Enqueue a load of the shadow Weight Deck of all four arrays (R111). -/
def execDload (p : CoreIx) (x : Fin 16) (rows : BitVec 7) (width : Fin 4) (mx : Bool) (s : State) : Host.Outcome
    State Fault Refusal :=
  s.syl p 2 fun h _ b n => sylDload x rows.toNat width mx (h.up p) b n

/-- `SWAP`: Enqueue an exchange of the active and shadow Decks (R113). -/
def execSwap (p : CoreIx) (s : State) : Host.Outcome State Fault Refusal :=
  s.syl p 2 fun _ _ b _ => sylSwap b

/-- `MMA`: Enqueue n matrix steps on a tile bank (R100). -/
def execMma (p : CoreIx) (bank clear : Bool) (j0 : Fin 64) (n : BitVec 7) (s : State) : Host.Outcome State Fault
    Refusal :=
  s.syl p 2 fun _ _ b now => sylMma bank clear j0 n.toNat b now

/-- `DRAIN`: Enqueue a drain of a tile bank to the Drain Queue or the Pantry (R115). -/
def execDrain (p : CoreIx) (bank : Bool) (form : Fin 4) (neg : Bool) (mask : Fin 16) (toPantry : Bool) (x : Fin 16)
    (s : State) : Host.Outcome State Fault Refusal :=
  s.syl p 2 fun h _ b _ => sylDrain bank form neg mask toPantry x (h.up p) b

/-- `SETEACC`: Enqueue a change of the grid exponent E_ACC (R199). -/
def execSeteacc (p : CoreIx) (v : BitVec 8) (s : State) : Host.Outcome State Fault Refusal :=
  s.syl p 2 fun _ _ b _ => sylSeteacc v b

/-- `SETFMT`: Enqueue a change of the weight format WFMT (R199). -/
def execSetfmt (p : CoreIx) (v : BitVec 4) (s : State) : Host.Outcome State Fault Refusal :=
  s.syl p 2 fun _ _ b _ => sylSetfmt v b

/-- `VST`: Enqueue a predicated 256-byte vector store (R189). -/
def execVst (p : CoreIx) (w : Fin 32) (x : Fin 16) (inc : Bool) (pg : Fin 8) (imm : BitVec 11) (s : State) :
    Host.Outcome State Fault Refusal :=
  s.syl p 2 fun h _ b _ => sylVst w x inc pg imm (h.up p) b

/-- `SST`: Enqueue a 4-byte scalar store (R189). -/
def execSst (p : CoreIx) (a : Fin 32) (x : Fin 16) (inc : Bool) (imm : BitVec 14) (s : State) : Host.Outcome State
    Fault Refusal :=
  s.syl p 2 fun h _ b _ => sylSst a x inc imm (h.up p) b

/-- `MATRIX_HANDOVER`: A DLOAD or DRAIN at the Matrix Queue head is handed to its unit once that unit has no pending operation (R107). -/
def execMatrixHandover (p : CoreIx) (s : State) : Host.Outcome State Fault Refusal :=
  s.done fun e => e.unit p fun e => e.up fun h => h.updBody p CoreBody.handover

/-- `SWAP_EXECUTE`: A queued SWAP executes once earlier steps have started and the preceding DLOAD has completed (R113). -/
def execSwapExecute (p : CoreIx) (s : State) : Host.Outcome State Fault Refusal :=
  s.done fun e => e.unit p fun e => e.up fun h => h.updBody p CoreBody.swapDecks

/-- `DLOAD_BEGIN`: A handed-over DLOAD begins reading the Deck image (R112). -/
def execDloadBegin (p : CoreIx) (s : State) : Host.Outcome State Fault Refusal :=
  s.done fun e => e.unit p fun e => e.up fun h => h.updBody p CoreBody.dloadBegin

/-- `DLOAD_COMPLETE`: The shadow Deck completes N + 5 cycles after the DLOAD begins (R112). -/
def execDloadComplete (p : CoreIx) (s : State) : Host.Outcome State Fault Refusal :=
  s.done fun e => e.unit p fun e => e.up fun h => h.updBody p CoreBody.dloadComplete

/-- `MATRIX_STEP_START`: The sequencer starts a matrix step, or records a freeze cause for the cycle (R122). -/
def execMatrixStepStart (p : CoreIx) (s : State) : Host.Outcome State Fault Refusal :=
  s.done fun e => e.unit p fun e => e.up fun h => h.updBody p CoreBody.matrixCycle

/-- `MATRIX_STEP_WRITE`: A step's rounded products are added into all 8,192 cells in its write cycle (R100). -/
def execMatrixStepWrite (p : CoreIx) (s : State) : Host.Outcome State Fault Refusal :=
  s.done fun e => e.unit p fun e => e.up fun h => h.updBody p CoreBody.writeStep

/-- `DRAIN_ROW_READ`: The drainer reads and converts one bank row when its conditions allow (R115). -/
def execDrainRowRead (p : CoreIx) (s : State) : Host.Outcome State Fault Refusal :=
  s.done fun e => e.unit p fun e => e.up fun h => h.updBody p CoreBody.drainRead

/-- `DRAIN_ROW_DELIVER`: A drained row is delivered to the Pantry or the Drain Queue two cycles after its read (R115). -/
def execDrainRowDeliver (p : CoreIx) (s : State) : Host.Outcome State Fault Refusal :=
  s.done fun e => e.unit p fun e => e.drainDeliver p

end Sys2Proof.Machine
end

