-- ==== Sys2Proof/Machine/PartnerRows.lean ====
section
/-!
DEFINITION. The meanings of the Hatch Transfer Protocol and the Partnership (11_links_and_partnership.md R453 to R479;
14_power_management.md R569 to R571).
-/
namespace Sys2Proof.Machine

open Sys2Proof

/-- `HTP_OPEN`: An HTP OPEN frame is received and answered (R456). -/
def execHtpOpen (s : State) : Host.Outcome State Fault Refusal :=
  s.done fun e => e.htpOpen

/-- `HTP_OPEN_ACK`: An HTP OPEN_ACK frame brings the session up (R456). -/
def execHtpOpenAck (s : State) : Host.Outcome State Fault Refusal :=
  s.done fun e => e.htpOpenAck

/-- `HTP_ACK`: An HTP ACK frame advances the sender's acknowledgement (R459). -/
def execHtpAck (s : State) : Host.Outcome State Fault Refusal :=
  s.done fun e => e.htpAck

/-- `HTP_DATA`: An HTP DATA frame applies Hatch pieces and is answered (R461). -/
def execHtpData (s : State) : Host.Outcome State Fault Refusal :=
  s.done fun e => e.htpData

/-- `HTP_ANSWER`: An HTP ANSWER frame answers originating HPUTs (R461). -/
def execHtpAnswer (s : State) : Host.Outcome State Fault Refusal :=
  s.done fun e => e.htpAnswer

/-- `HTP_NOTICE`: An HTP NOTICE frame updates a Partner Hatch directory entry (R462). -/
def execHtpNotice (s : State) : Host.Outcome State Fault Refusal :=
  s.done fun e => e.htpNotice

/-- `HTP_NOTICE_REPLY`: An HTP NOTICE_REPLY frame replies to a CLOSE notice (R462). -/
def execHtpNoticeReply (s : State) : Host.Outcome State Fault Refusal :=
  s.done fun e => e.htpNoticeReply

/-- `MIRROR`: A MIRROR frame's data is written into the unused bank (R474). -/
def execMirror (entry : List Byte) (s : State) : Host.Outcome State Fault Refusal :=
  s.done fun e => e.mirrorIn entry

/-- `MIRROR_COMMIT`: A MIRROR_COMMIT frame commits a mirror epoch when counts and CRC match (R474). -/
def execMirrorCommit (table : List (List Byte)) (s : State) : Host.Outcome State Fault Refusal :=
  s.done fun e => e.mirrorCommitIn table

/-- `HEARTBEAT`: A received HEARTBEAT updates epoch offset, Partner state and role (R469). -/
def execHeartbeat (s : State) : Host.Outcome State Fault Refusal :=
  s.done fun e => e.heartbeatIn

/-- `CUT_ARRIVE`: A CUT_ARRIVE frame gives the Partner's arrival time for a Partnership Cut (R477). -/
def execCutArrive (s : State) : Host.Outcome State Fault Refusal :=
  s.done fun e => e.cutArrive

/-- `OP_DESIRE`: An OP_EXCHANGE DESIRE reports the Partner's desired point (R569). -/
def execOpDesire (s : State) : Host.Outcome State Fault Refusal :=
  s.done fun e => e.opDesire

/-- `OP_PROPOSE`: An OP_EXCHANGE PROPOSE asks for a point change at a switch time (R569). -/
def execOpPropose (s : State) : Host.Outcome State Fault Refusal :=
  s.done fun e => e.opPropose

/-- `OP_READY`: An OP_EXCHANGE READY reports the Follow is prepared (R569). -/
def execOpReady (s : State) : Host.Outcome State Fault Refusal :=
  s.done fun e => e.opReady

/-- `OP_CONFIRM`: An OP_EXCHANGE CONFIRM confirms the agreed switch (R569). -/
def execOpConfirm (s : State) : Host.Outcome State Fault Refusal :=
  s.done fun e => e.opConfirm

/-- `OP_ALERT`: An OP_EXCHANGE ALERT drops the Partner to OP0 (R571). -/
def execOpAlert (s : State) : Host.Outcome State Fault Refusal :=
  s.done fun e => e.opAlert

/-- `HTP_OPEN_TIMER`: Every 1 ms with no session up the engine sends OPEN (R456). -/
def execHtpOpenTimer (s : State) : Host.Outcome State Fault Refusal :=
  s.done fun e => e.up fun h => h.htpOpenTimer

/-- `HTP_ACK_TIMER`: Within 2 µs of accepting a frame the receiver sends its acknowledgement (R457). -/
def execHtpAckTimer (s : State) : Host.Outcome State Fault Refusal :=
  s.done fun e => e.up fun h => h.htpAckTimer

/-- `HTP_RTO_EXPIRY`: The retransmission timer expires and unacknowledged frames are resent (R458). -/
def execHtpRtoExpiry (s : State) : Host.Outcome State Fault Refusal :=
  s.done fun e => e.htpRto

/-- `TAKEOVER_WRITE`: A safety-class write of PTN_CTRL.TAKEOVER requests takeover (R471). -/
def execTakeoverWrite (s : State) : Host.Outcome State Fault Refusal :=
  s.done fun e => e.atPort Reg.ptnCtrl fun e => e.up fun h => h.takeoverWrite

/-- `CUT_PTN_RELEASE`: A Partnership or Counted Launch Cut releases when corrected time reaches its target (R477). -/
def execCutPtnRelease (part barrier : Fin 16) (s : State) : Host.Outcome State Fault Refusal :=
  s.done fun e => e.up fun h => h.cutPtnRelease part barrier

end Sys2Proof.Machine
end

