-- ==== Sys2Proof/Machine/Pins.lean ====
section
/-!
DEFINITION. Power, the reset inputs, and bit errors (16_boundary_and_register_map.md R616 to R619;
06_pantry_loft_gather.md R228; 12_functional_safety.md R487; 15_coffer_boot_configuration.md R574).
-/
namespace Sys2Proof.Machine

open Sys2Proof

/-! ### Power (R616, R617) -/

/-- The on-chip memory loses its contents. -/
def Eff.memoryLost (e : Eff) : Eff := (e.write (.clear 0 (pantryAddr 68 0))).write (.clear (loftAddr 0) (loftAddr (2 ^ 21)))

/-- The intrusive wrapper instructions (16 R620). -/
def intrusive (code : BitVec 4) : Bool := code = 1 ∨ code = 2 ∨ code = 3

/-- Power loss of every unit but the Dealer: the Dealer, the Coffer, the fuses and the test wrapper stay. -/
def Hw.powerLoss (h : Hw) : Hw :=
  { Hw.reset with
    regs := h.regs.filter fun x => dealerOffset x.1
    shadow := h.shadow.filter fun x => dealerOffset x.1
    snaps := h.snaps.filter fun x => dealerOffset x.1
    staged := h.staged.filter fun x => dealerOffset x.1
    dealer := h.dealer
    coffer := { Coffer.reset with bytes := h.coffer.bytes, errs := h.coffer.errs, wear := h.coffer.wear }
    boot := { Boot.reset with
      aon := h.boot.aon, engLow := h.boot.engLow, dlrLow := h.boot.dlrLow, fuses := h.boot.fuses, testEn := h.boot.testEn
      wir := if intrusive h.boot.wir then 0 else h.boot.wir
      testRefused := h.boot.testRefused, segments := h.boot.segments }
    outs := h.outs
    free := h.free }

/-- PWR_GOOD falls. -/
def Eff.goodFall (e : Eff) : Eff := if e.hw.boot.good then (e.up Hw.powerLoss).memoryLost else e

/-- PWR_GOOD rises: TEST_EN is sampled, and the Boot Sequencer begins unless the reset input holds it. -/
def Hw.goodRise (h : Hw) (testEn : Bool) : Hw :=
  if !h.boot.aon || h.boot.good then h
  else
    let h := (h.updBoot fun b => { b with good := true }).sampleTest testEn
    if h.boot.engLow then h.setRegBit Reg.globalStatus 1 true else h.bootBegins

/-- AON_PWRGD rises. -/
def Hw.aonRise (h : Hw) : Hw := h.updBoot fun b => { b with aon := true }

/-- AON_PWRGD falls: the whole engine is without power. -/
def Eff.aonFall (e : Eff) : Eff :=
  if e.hw.boot.aon then e.goodFall.up fun h => h.dealerStop.updBoot fun b =>
    { b with aon := false, testEn := false, wir := 0, testRefused := false, segments := [] } else e

/-- DLR_RST_N is asserted: the Dealer stops, which is class A cause 0x04 while PWR_GOOD is high (R619). -/
def Hw.dealerReset (h : Hw) : Hw :=
  if h.boot.dlrLow then h
  else
    let h := (h.updBoot fun b => { b with dlrLow := true }).dealerStop
    if h.boot.good then h.classA 0x04 0 else h

/-! ### Bit errors (06 R228, 12 R487, 15 R574) -/

/-- A word's state after one more bit in error: one is corrected, more are not; a later bit error in a word that arrived
poisoned reads as uncorrectable. -/
def WState.hit (st : WState) (more : Bool) : WState :=
  match st, more with
  | .clean, false => .single
  | _, _ => .uncorrectable

/-- An error in a word of the on-chip memory. The command does not say which bits differ: the bytes that an uncorrectable
word delivers "as stored" are those last written (DESIGN CHOICE, log entry 99). -/
def Eff.wordHit (e : Eff) (word : Nat) (more : Bool) : Eff :=
  e.write (.setState word ((e.mem.state (32 * word)).hit more))

/-- A Ledger slot reads as uncorrectable. -/
def Dealer.loseSlot (d : Dealer) (slot : Nat) : Dealer :=
  match d.ledger.find? fun x => leField x 0 4 % 1792 == slot with
  | some x => { d with ledgerBad := BitVec.ofNat 32 (leField x 0 4) :: d.ledgerBad }
  | none => d

/-- An error in a word of the Coffer. -/
def Hw.cofferHit (h : Hw) (word : Nat) (more : Bool) : Hw :=
  let st := if more || Tbl.get (fun _ => 0) h.coffer.errs word != 0 then 2 else 1
  let h := h.updCoffer fun c => { c with errs := Tbl.put (fun _ => 0) c.errs word st }
  if st = 1 || word < 128 * 240 then h
  else if word < 128 * 242 then
    h.updDealer fun d => { d with sealLost := (128 * 241 ≤ word) :: d.sealLost }
  else h.updDealer fun d => d.loseSlot (word - 128 * 242)

/-- BIT_ERROR. -/
def Eff.bitError (e : Eff) : BitTarget → Eff
  | .pantry p word more => e.wordHit (pantryAddr p (32 * word) / 32) more
  | .loft word more => e.wordHit (loftAddr word / 32) more
  | .code p bundle => e.up fun h => h.updBody p fun b =>
      { b with isBad := if b.isBad.contains bundle.val then b.isBad else b.isBad ++ [bundle.val] }
  | .coffer word more => e.up fun h => h.cofferHit word more

end Sys2Proof.Machine
end

