-- ==== Sys2Proof/Machine/RegPort.lean ====
section
/-!
DEFINITION. The register port: which accesses it serves, denies and ignores, what a read returns and what a write does
(00_scope.md R17 to R25; 09_translation_dma_memory_ports.md R386, R387; 16_boundary_and_register_map.md R608 to R611).
-/
namespace Sys2Proof.Machine

open Sys2Proof

/-! ### Values that the units hold -/

/-- The core window that an offset lies in, physical core and offset within the window (R611). -/
def coreWindow (o : Nat) : Option (Nat × Nat) :=
  if 0x100000 ≤ o ∧ o < 0x200000 then some ((o - 0x100000) / 0x4000, o % 0x4000)
  else if 0x8000 ≤ o ∧ o < 0x9000 then some (64 + (o - 0x8000) / 0x400, o % 0x400)
  else none

/-- A register of a core window that the core holds; CORE_CTX.LOGICAL is the index that the core serves (13 R543). -/
def Hw.coreValue (h : Hw) (p o : Nat) : Option Word :=
  ((h.body p).reg o).map fun v => if o = 8 then (match h.servedBy p with | some l => setFld v 25 20 l | none => v) else v

/-- A register of the Dealer's block that the Dealer holds. -/
def Hw.dealerValue (h : Hw) (o : Nat) : Option Word :=
  let d := h.dealer
  let n (v : Nat) : Option Word := some (BitVec.ofNat 32 v)
  if o = Reg.timeSecLo then n (d.time / unitSec)
  else if o = Reg.timeSecHi then n (d.time / unitSec / 2 ^ 32)
  else if o = Reg.timeNs then n (d.time % unitSec / unitNs)
  else if o = Reg.timeFrac then n (d.time % unitNs)
  else if o = Reg.elapsed then n h.elapsed
  else if o = Reg.elapsed + 4 then n (h.elapsed / 2 ^ 32)
  else if o = Reg.incr then n d.incr
  else if o = Reg.incr + 4 then n (d.incr / 2 ^ 32 % 16)
  else if o = Reg.adjStatus then some (setBit (h.reg o) 2 (!d.adjust.isEmpty || d.incrNext.isSome))
  else if o = Reg.calCrc then some h.calCrc
  else match (List.range 8).find? fun g => o == Reg.egEpoch g || o == Reg.egEpoch g + 4 with
    | some g => some (halfOf (d.gen g).count (o == Reg.egEpoch g + 4))
    | none => none

/-- The sector with the highest erase count, the lowest-numbered one on a tie, and its count. -/
def Coffer.wearMost (c : Coffer) : Nat × Nat :=
  (List.range 256).foldl (fun m s => if m.2 < c.wearOf s then (s, c.wearOf s) else m) (0, c.wearOf 0)

/-- The LPI_STATUS registers. -/
def lpiPorts : List Nat := (List.range 6).map Reg.lpiStatus

/-- A register of another block that reads from what its unit holds. -/
def Hw.unitValue (h : Hw) (o : Nat) : Option Word :=
  let n (v : Nat) : Option Word := some (BitVec.ofNat 32 v)
  if o = Reg.atuStatus then n ((h.contexts.filter h.paused).length * 2 ^ 16 + h.atu.walks.length)
  else if o = Reg.faultStatus then some (setFld (h.reg o) 31 16 h.atu.faults.length)
  else if o = Reg.cofStatus then some (setBit (h.reg o) 31 (bitOf (h.reg o) 31 || !h.coffer.due.isEmpty))
  else if o = Reg.cofWearData then n (h.coffer.wearOf (h.regFld Reg.cofWearIdx 7 0))
  else if o = Reg.cofWearMax then n (h.coffer.wearMost.1 * 2 ^ 24 + min 100000 h.coffer.wearMost.2)
  else if o = Reg.dumpData then some h.dumpWord
  else if lpiPorts.contains o then n (min 16384 (h.lpiHeld ((o - 0x80000) / 0x2000) + h.offer ((o - 0x80000) / 0x2000)))
  else match (List.range 8).find? fun k => o == Reg.kfpStatus k with
    | some k => n (h.port k).reqs.length
    | none => match (List.range 8).find? fun k => o == Reg.jkGolden k with
      | some k => some (jokerGolden k)
      | none => match (List.range 2).find? fun l => o == Reg.tsPcsTx l || o == Reg.tsPcsRx l with
        | some l => n (if o = Reg.tsPcsTx l then (h.pcsDelay l).1 else (h.pcsDelay l).2)
        | none => match (List.range 4).find? fun g => o == Reg.guStatus g with
          | some g =>
            let q := h.gatherQ g
            n ((q.map GatherJob.flying).sum * 2 ^ 16 + (q.any GatherJob.paused).toNat * 2 ^ 7 + q.length)
          | none => none

/-- The current value of the register at an offset. -/
def Hw.current (h : Hw) (o : Nat) : Word :=
  if doorbellOffset o then h.doorbell ((o - 0x200000) / 0x1000) (o % 0x1000)
  else
    let held := match coreWindow o with
      | some x => h.coreValue x.1 x.2
      | none => if dealerOffset o then h.dealerValue o else h.unitValue o
    held.getD (h.reg o)

/-- What a read returns by the access codes: the shadow of RWS bits, zero for WO bits (R23). -/
def Hw.shown (h : Hw) (o : Nat) (b : Sys2Proof.RegBits) : Word :=
  let v := h.current o &&& BitVec.ofNat 32 (b.rw ||| b.ro ||| b.w1c ||| b.w1s ||| b.rwk)
  v ||| (h.shadowReg o &&& BitVec.ofNat 32 b.rws)

/-! ### Reads (R19) -/

/-- The registers that a read of an offset captures. -/
def captures (o : Nat) : List Nat :=
  if o = Reg.timeSecLo then [Reg.timeSecHi, Reg.timeNs, Reg.timeFrac]
  else match (List.range 2).find? fun l => o == Reg.asOffset l with
    | some l => [Reg.asOffset l + 4, Reg.asLinkdelay l, Reg.asRatio l, Reg.asStatus l]
    | none => match regRow o with
      | some r => if r.pair = .lo then [o + 4] else []
      | none => []

/-- A register that reads as the snapshot held for it. -/
def readsSnapshot (o : Nat) : Bool :=
  isOne o [Reg.timeSecHi, Reg.timeNs, Reg.timeFrac] ||
    ((List.range 2).any fun l => isOne o [Reg.asLinkdelay l, Reg.asRatio l, Reg.asStatus l]) ||
    match regRow o with
    | some r => r.pair == .hi
    | none => false

/-- The value of an assigned register, as the access codes show it. -/
def Hw.value (h : Hw) (o : Nat) : Word := match regRow o with | some r => h.shown o r.bits | none => 0

/-- A read of an assigned register: a _LO word captures its snapshot, and the snapshot of a _HI word is returned. -/
def Hw.regRead (h : Hw) (o : Nat) : Hw :=
  if o = Reg.stamp 0 then h.stampRead.answer o
  else if o = Reg.ledgerData 0 then h.ledgerDataRead.answer o
  else if o = Reg.elogData 0 then h.elogDataRead
  else if o = Reg.dumpData then h.dumpDataRead
  else if readsSnapshot o then { h with rdata := Tbl.get (fun _ => 0) h.snaps o }
  else
    let h := { h with rdata := h.value o, snaps := (captures o).foldl (fun t x => Tbl.put (fun _ => 0) t x (h.value x)) h.snaps }
    match (List.range 2).find? fun l => o == Reg.asOffset l with
    | some l => h.setRegBit (Reg.asStatus l) 3 false
    | none => h

/-! ### Denied accesses (09 R386, R387) -/

/-- A class may not read, or write, an offset. -/
def deniedAccess (write : Bool) (o cls : Nat) : Bool :=
  decide (4 < cls) || (cls == 0 && !doorbellOffset o) ||
    (write && match regRow o with
      | some r => !r.writers.testBit cls
      | none => false)

/-- A denied access is logged and counted. -/
def Hw.denied (h : Hw) (write : Bool) (o cls : Nat) : Hw :=
  if h.served Reg.regFwLog then
    (h.setReg Reg.regFwLog (BitVec.ofNat 32 (write.toNat * 2 ^ 31 + cls % 8 * 2 ^ 28 + o % 2 ^ 23))).satReg Reg.regFwCnt
  else h

/-- A read at the register port: a narrower or unaligned one returns zero (00 R18, 16 R609). -/
def Eff.portRead (e : Eff) (o be cls : Nat) : Eff := e.up fun h =>
  let zero (h : Hw) : Hw := { h with rdata := 0 }
  if !h.boot.aon then h
  else if be ≠ 15 || o % 4 ≠ 0 || !h.served o then zero h
  else if deniedAccess false o cls then zero (h.denied false o cls)
  else if (regRow o).isNone then zero h
  else h.regRead o

/-! ### Writes -/

/-- A write of COF_STORE_CTRL that names a reserved operation (15 R579); the operations are commands of their own, since
they end as the Coffer verifies. -/
def Hw.storeCtrlWrite (h : Hw) (v : Word) : Hw :=
  if fld v 2 0 = 0 ∨ 4 < fld v 2 0 then h.storeOp false fun h => h.cofResult Status.invalidPacket else h

/-- A write of a register whose write acts (Table "Access codes", WO). A write of SEAL_CTRL, which ends as the Coffer answers,
is a command of its own. -/
def Eff.actWrite (e : Eff) (o : Nat) (v : Word) : Option Eff :=
  if o = Reg.adminOp then some (e.up fun h => h.adminOpWrite (fld v 7 0))
  else if o = Reg.commitCtrl then some (e.up fun h => h.commitWrite v)
  else if o = Reg.irqTest then some (if bitOf v 31 then e.up fun h => h.irq (fld v 5 0) else e)
  else if o = Reg.ctxRst then some (if bitOf v 31 then e.ctxRst (fld v 11 0) else e)
  else if o = Reg.engRst then some (e.engRst (fld v 15 0))
  else if o = Reg.elogCtrl then some (if bitOf v 0 then e.up Hw.elogSave else e)
  else if o = Reg.dumpStatus then some (if bitOf v 31 then e.up Hw.dumpRearm else e)
  else if o = Reg.ctxOp then
    some (if fld v 17 16 = 1 then e.up fun h => h.ctxResume (fld v 11 0) else if fld v 17 16 = 2 then e.ctxKill (fld v 11 0) else e)
  else if o = Reg.tbInvCtrl then some (if fld v 13 12 < 3 then e.tbInvalidate (fld v 13 12) (fld v 11 0) else e)
  else if o = Reg.loftInvCtrl then some (e.up fun h => h.loftInvalidate (fld v 3 0) (bitOf v 4))
  else if o = Reg.cofStoreCtrl then some (e.up fun h => h.storeCtrlWrite v)
  else if 0x41000 ≤ o ∧ o < 0x42000 then some (e.up fun h => h.stageWrite ((o - 0x41000) / 4) v false)
  else if o = Reg.adjStep then some (e.up fun h => if h.dealer.running then h.adjStep v else h)
  else if o = Reg.loadCtrl then some (e.up fun h => if h.dealer.running && bitOf v 0 then h.timeLoad else h)
  else if 0x50100 ≤ o ∧ o < 0x50180 then some (e.up fun h => if h.dealer.running then h.calWrite (o - 0x50000) v else h)
  else match coreWindow o with
    | some (p, 0x180) => some (e.up fun h => h.updBody p fun b => 
        { b with arith := b.arith &&& ~~~(v.truncate 7), arithSeen := b.arithSeen &&& ~~~(v.truncate 7) })
    | _ => none

/-- A write of an assigned register by a class that may. -/
def Eff.regWrite (e : Eff) (o : Nat) (v : Word) (cls : Nat) : Eff :=
  match e.actWrite o v with
  | some e => e
  | none => e.up fun h => h.classWrite o v cls

/-- A write at the register port. -/
def Eff.portWrite (e : Eff) (o be : Nat) (v : Word) (cls : Nat) : Eff :=
  if be ≠ 15 || o % 4 ≠ 0 || !e.hw.served o then e
  else if deniedAccess true o cls then e.up fun h => h.denied true o cls
  else if (regRow o).isNone then e
  else e.regWrite o v cls

/-- The offset of the _HI word of a pair that is written (R20). -/
def pairHigh (o : Nat) : Bool := (regRow o).any fun r => r.pair == .hi

end Sys2Proof.Machine
end

