-- ==== Sys2Proof/Machine/TestAccess.lean ====
section
/-!
DEFINITION. Test access: the wrapper of IEEE 1500, its boundary register, and the instruments behind it
(16_boundary_and_register_map.md R620 to R623; 01_engine_overview.md R39; 06_pantry_loft_gather.md R223 slot 7).
-/
namespace Sys2Proof.Machine

open Sys2Proof

/-! ### The wrapper's instruction (R620, R621) -/

/-- An intrusive instruction or instrument may take effect: TEST_EN is 1 and an engine reset waits at the end of phase 3. -/
def Boot.admitsTest (b : Boot) : Bool := b.testEn && b.held

/-- An update of the wrapper's instruction register: ignored with TEST_EN at 0; an intrusive instruction acts as WS_BYPASS
where none may take effect, which the IJTAG status shows; reserved codes act as WS_BYPASS. -/
def Boot.wrapper (b : Boot) (code : BitVec 4) : Boot :=
  if !b.testEn then b
  else if code = 4 then { b with wir := code }
  else if !intrusive code then { b with wir := 0 }
  else if b.admitsTest then { b with wir := code }
  else { b with wir := 0, testRefused := true }

/-! ### The boundary register (R621) -/

/-- Table "Boundary signals" without the signals that have no cell: the bits of one instance of each row, the instances, and
whether the engine drives them. -/
def boundaryRows : List (Nat × Nat × Bool) :=
  [(1, 1, false), (1, 1, true), (1, 1, false), (23, 1, false), (4, 1, false), (32, 1, false), (3, 1, false), (1, 1, true),
   (1, 1, false), (32, 1, true), (1, 1, true), (1, 1, false), (6, 1, true), (2, 8, true), (79, 8, true), (578, 8, true),
   (2, 8, true), (2, 8, false), (530, 8, false), (14, 8, false), (3, 6, false), (128, 6, false), (1, 6, true), (32, 8, true),
   (32, 8, false), (4, 2, false), (84, 1, true), (16, 1, true), (1, 1, true), (1, 1, false), (1, 1, false), (2, 1, true),
   (1, 1, true), (12, 1, true), (2, 1, false)]

/-- Cells of the boundary register. -/
def boundaryCells : Nat := (boundaryRows.map fun r => r.1 * r.2.1).sum

/-- The cells before a row. -/
def cellsBefore (row : Nat) : Nat := ((boundaryRows.take row).map fun r => r.1 * r.2.1).sum

/-- SAFE_ERR0, SAFE_ERR1 and SERVICE_REQ as they stand on the pins: the cells drive them under WS_EXTEST. -/
def Hw.safetyPins (h : Hw) : Bool × Bool × Bool :=
  if h.boot.wir = 1 then
    (h.boot.cells.getD (cellsBefore 31) false, h.boot.cells.getD (cellsBefore 31 + 1) false, h.boot.cells.getD (cellsBefore 32) false)
  else (h.safety.safe0, h.safety.safe1, h.serviceReq)

/-! ### The instruments (R622) -/

/-- The row of Table "Test instruments" of an access. -/
def instrumentOf : TestAccess → Nat
  | .status => 0
  | .dealer _ => 1
  | .ledger _ => 1
  | .sensor _ => 2
  | .errorLog _ => 3
  | .dump _ => 3
  | .repair _ => 4
  | .read _ => 5
  | .write _ _ => 5
  | .inject _ => 6

/-- The instrument is available, the intrusive ones aside. -/
def Boot.offers (b : Boot) (row : Nat) : Bool := row == 0 || (if row = 1 then b.aon else b.good)

/-- A 32-byte word, or a bundle, as it stands. -/
def Eff.testRead (e : Eff) : TestMemory → List Byte
  | .pantry p w => e.mem.bytes (pantryAddr p (32 * w)) 32
  | .loft w => e.mem.bytes (loftAddr w) 32
  | .code p b => leBytes 16 (Tbl.get (fun _ => 0) (e.hw.body p).istore b).toNat

/-- A write of a word, or of a bundle. -/
def Eff.testWrite (e : Eff) (data : BitVec 256) : TestMemory → Eff
  | .pantry p w => e.write (.bytes (pantryAddr p (32 * w)) (leBytes 32 data.toNat) false)
  | .loft w => e.write (.bytes (loftAddr w) (leBytes 32 data.toNat) false)
  | .code p b => e.up fun h => h.updBody p fun x =>
      { x with istore := Tbl.put (fun _ => 0) x.istore b (data.setWidth 128), isBad := x.isBad.filter (· != b.val) }

/-- What an access does: the bytes that it captures go out on WSO. A sensor's reading is a free value; an injection
point alters no state that the spec gives (log entry 106). -/
def Eff.testDo (e : Eff) (a : TestAccess) : Eff :=
  let out (e : Eff) (bs : List Byte) : Eff := e.up fun h => h.out (.test bs)
  match a with
  | .status => out e [BitVec.ofNat 8 (e.hw.boot.testEn.toNat + 2 * e.hw.boot.testRefused.toNat + 4 * e.hw.boot.held.toNat +
      16 * e.hw.boot.wir.toNat)]
  | .dealer o => out e (leBytes 4 (e.hw.value (0x50000 + o)).toNat)
  | .ledger seq => out e (if e.hw.dealer.ledgerBad.contains seq then [] else (e.hw.dealer.entry seq).getD [])
  | .sensor _ =>
    let (v, h) := e.hw.fresh
    out { e with hw := h } (leBytes 4 v.toNat)
  | .errorLog seq => out e ((e.hw.caller.elog.find? fun x => leField x 0 4 == seq.toNat).getD [])
  | .dump n => out e ((List.range 4).map fun k => Tbl.get (fun _ => 0) e.hw.caller.dump (4 * n + k))
  | .repair n => out e ((e.hw.boot.fuses ++ e.hw.boot.repair).getD n [])
  | .read m => out e (e.testRead m)
  | .write m data => e.testWrite data m
  | .inject _ => e

/-- An access to an instrument through KN_IJTAG and its open segment. An intrusive one acts as WS_BYPASS where none may take
effect, which the IJTAG status shows. -/
def Eff.testAccess (e : Eff) (a : TestAccess) : Eff :=
  let b := e.hw.boot
  if !b.testEn || b.wir != 4 || !b.segments.contains (instrumentOf a) || !b.offers (instrumentOf a) then e
  else if 5 ≤ instrumentOf a && !b.admitsTest then e.up fun h => h.updBoot fun b => { b with testRefused := true }
  else e.testDo a

/-- TEST_WRAPPER_UPDATE. -/
def Eff.testUpdate (e : Eff) : TestUpdate → Eff
  | .instruction code => e.up fun h => h.updBoot fun b => b.wrapper code
  | .boundary cells =>
    if e.hw.boot.wir = 1 && cells.length == boundaryCells then e.up fun h => h.updBoot fun b => { b with cells } else e
  | .segment i is_open =>
    if e.hw.boot.wir != 4 then e
    else e.up fun h => h.updBoot fun b =>
      { b with segments := if is_open then i.val :: b.segments.filter (· != i.val) else b.segments.filter (· != i.val) }
  | .access a => e.testAccess a

end Sys2Proof.Machine
end

