-- ==== Sys2Proof/Machine/PinRows.lean ====
section
/-!
DEFINITION. The meanings of the power and reset inputs, the test wrapper and bit errors (16_boundary_and_register_map.md R616 to
R623; 06_pantry_loft_gather.md R228).
-/
namespace Sys2Proof.Machine

open Sys2Proof

/-- `AON_PWRGD_RISE`: The always-on island becomes powered (R616). -/
def execAonPwrgdRise (s : State) : Host.Outcome State Fault Refusal :=
  s.done fun e => e.up fun h => h.aonRise

/-- `AON_PWRGD_FALL`: The always-on island loses power, the Dealer included (R617). -/
def execAonPwrgdFall (s : State) : Host.Outcome State Fault Refusal :=
  s.done fun e => e.aonFall

/-- `PWR_GOOD_RISE`: Power-good rises and the Boot Sequencer starts (R589). -/
def execPwrGoodRise (testEn : Bool) (s : State) : Host.Outcome State Fault Refusal :=
  s.done fun e => e.up fun h => h.goodRise testEn

/-- `PWR_GOOD_FALL`: Power-good falls and every unit except the Dealer loses power (R617). -/
def execPwrGoodFall (s : State) : Host.Outcome State Fault Refusal :=
  s.done fun e => e.goodFall

/-- `ENG_RST_N_ASSERT`: The engine reset input asserts and begins or joins an engine reset (R618). -/
def execEngRstNAssert (s : State) : Host.Outcome State Fault Refusal :=
  s.done fun e => e.resetAsserted

/-- `ENG_RST_N_DEASSERT`: The engine reset input deasserts and the held reset continues with self-test (R618). -/
def execEngRstNDeassert (s : State) : Host.Outcome State Fault Refusal :=
  s.done fun e => e.up fun h => h.resetDeasserted

/-- `DLR_RST_N_ASSERT`: The Dealer reset asserts; while powered this is class A cause 0x04 (R619). -/
def execDlrRstNAssert (s : State) : Host.Outcome State Fault Refusal :=
  s.done fun e => e.up fun h => h.dealerReset

/-- `TEST_WRAPPER_UPDATE`: An IEEE 1500 wrapper instruction update takes effect or acts as bypass (R620). -/
def execTestWrapperUpdate (update : TestUpdate) (s : State) : Host.Outcome State Fault Refusal :=
  s.done fun e => e.testUpdate update

/-- `TEST_WRAPPER_RESET`: WRSTN resets the test wrapper to WS_BYPASS (R620). -/
def execTestWrapperReset (s : State) : Host.Outcome State Fault Refusal :=
  s.done fun e => e.up fun h => h.updBoot fun b => { b with wir := 0, testRefused := false, segments := [], cells := [] }

/-- `BIT_ERROR`: A stored word of a Pantry, Loft, Instruction Store or Coffer takes one or more bit errors and becomes correctable or uncorrectable (R228). -/
def execBitError (target : BitTarget) (s : State) : Host.Outcome State Fault Refusal :=
  s.done fun e => e.bitError target

end Sys2Proof.Machine
end

