-- ==== Sys2Proof/Machine/OwnDone.lean ====
section
/-!
DEFINITION. What follows when a transfer of the engine's own has its responses (09 R394: dependent accesses wait for write
responses; 16 R613: a vector follows the write that it announces).
-/
namespace Sys2Proof.Machine

open Sys2Proof

/-- A descriptor of a link ring has been written back: HEAD advances, and the vector may be sent; before that its
write-back follows the buffer (11 R438, R439). -/
def Hw.ringDone (h : Hw) (j : OwnJob) (n r : Nat) (irq : Bool) (back : Option (Nat × List Byte)) : Hw :=
  match back with
  | some (va, bs) =>
    h.updAtu fun a => { a with own := a.own ++ [{ j with parts := [⟨va, bs.length, bs, []⟩], before := j.before + j.total, issued := 0,
                                                         acked := [], goal := .ring n r irq none }] }
  | none =>
    let (ctrl, head) := if r = 8 then (Reg.rxrCtrl n, Reg.rxrHead n) else (Reg.txrCtrl n r, Reg.txrHead n r)
    let h := h.setReg head (h.reg head + 1)
    if irq then h.irqOf ctrl 15 8 else h

/-- The goal of a transfer that is complete. -/
def Hw.ownGoal (h : Hw) (j : OwnJob) : Hw :=
  match j.goal with
  | .nothing => h
  | .fence q i publish => h.fenceDone j q i publish
  | .record q => h.recordDone q j.dataErr
  | .composition q => h.compositionDone q j.dataErr
  | .invalidate _ => h
  | .saveArea c => h.saveDone c
  | .payload i => h.spillHeader i j.index
  | .image i => h.imageStored i
  | .ring n r irq back => h.ringDone j n r irq back
  | .mirror =>
    if j.dataErr then h.updPartner fun p => { p with mirrorIn := p.mirrorIn.map fun r => (r.1, r.2.1, r.2.2.1, true) } else h
  | .faultRing seq => (h.faultRingDone seq j.dataErr).starve
  | .safetyRing verdict => h.safetyRingDone verdict j.dataErr

/-- A write-back of the same ring began before this one and is not in memory. -/
def Hw.ringBehind (h : Hw) (j : OwnJob) : Bool :=
  match j.goal with
  | .ring n r _ none => h.atu.own.any fun i => i.id < j.id && (match i.goal with
      | .ring m s _ _ => m == n && s == r
      | _ => false)
  | _ => false

/-- A transfer whose bytes have all been answered reaches its goal; a context that is evicted may wait for it. -/
def Hw.ownStep (h : Hw) (id : Nat) : Hw :=
  match h.own? id with
  | none => h
  | some j =>
    if !j.write || j.paused || j.done < j.total || h.ringBehind j then h
    else
      let h := (h.dropOwn id).ownGoal j
      if j.sys then h else h.evictDone j.ctx

/-- Every transfer that is complete reaches its goal, in the order in which they began. -/
def Hw.ownSettle (h : Hw) : Hw := (h.atu.own.map OwnJob.id).foldl Hw.ownStep h

/-- KFP_WRITE_RESPONSE: the response, and what it completes. -/
def Eff.writeResponded (e : Eff) (port tag err : Nat) : Eff := (e.writeResponse port tag err).up Hw.ownSettle

end Sys2Proof.Machine
end

