-- ==== Sys2Proof/Machine/PortRows.lean ====
section
/-!
DEFINITION. The meanings of translation, the memory ports and faults (09_translation_dma_memory_ports.md R353 to R399).
-/
namespace Sys2Proof.Machine

open Sys2Proof

/-- `ADDRESS_TRANSLATE`: A request is translated through buffers or a page walk and checked (R362). -/
def execAddressTranslate (asker : Asker) (s : State) : Host.Outcome State Fault Refusal :=
  s.done fun e => e.addressTranslate asker

/-- `WALK_READ_RETURN`: A page-table entry read returns to the walker (R362). -/
def execWalkReadReturn (port : Fin 8) (tag : Nat) (data : List Byte) (poison : Bool) (err : Fin 4) (s : State) :
    Host.Outcome State Fault Refusal :=
  s.done fun e => e.walkReturn port tag data poison err

/-- `FAULT_RECORD_WRITE`: A fault record is written to the Fault Ring when there is room (R373). -/
def execFaultRecordWrite (n : Nat) (s : State) : Host.Outcome State Fault Refusal :=
  s.done fun e => e.up fun h => h.faultRecordWrite n

/-- `FAULT_HEAD_WRITE`: A driver write of FAULT_HEAD frees Fault Ring slots (R373). -/
def execFaultHeadWrite (v : Word) (s : State) : Host.Outcome State Fault Refusal :=
  s.done fun e => e.atPort Reg.faultHead fun e => e.up fun h => h.faultHeadWrite v

/-- `CTX_RESUME`: CTX_OP RESUME retranslates paused transfers and leaves the pause (R374). -/
def execCtxResume (ctx : Fin 4096) (s : State) : Host.Outcome State Fault Refusal :=
  s.done fun e => e.atPort Reg.ctxOp fun e => e.up fun h => (h.ctxResume ctx).starve

/-- `CTX_KILL`: CTX_OP KILL resets a paused context (R374). -/
def execCtxKill (ctx : Fin 4096) (s : State) : Host.Outcome State Fault Refusal :=
  s.done fun e => e.atPort Reg.ctxOp fun e => e.ctxKill ctx

/-- `TB_INV_CONTEXT`: TB_INV_CTRL starts invalidation of every entry of one context (R365). -/
def execTbInvContext (ctx : Fin 4096) (s : State) : Host.Outcome State Fault Refusal :=
  s.done fun e => e.atPort Reg.tbInvCtrl fun e => e.tbInvalidate 0 ctx

/-- `TB_INV_RANGE`: TB_INV_CTRL starts invalidation of one context's entries within a range (R365). -/
def execTbInvRange (ctx : Fin 4096) (s : State) : Host.Outcome State Fault Refusal :=
  s.done fun e => e.atPort Reg.tbInvCtrl fun e => e.tbInvalidate 1 ctx

/-- `TB_INV_ALL`: TB_INV_CTRL starts invalidation of every entry (R365). -/
def execTbInvAll (s : State) : Host.Outcome State Fault Refusal :=
  s.done fun e => e.atPort Reg.tbInvCtrl fun e => e.tbInvalidate 2 0

/-- `TB_INV_DONE`: An invalidation completes and BUSY clears (R365). -/
def execTbInvDone (s : State) : Host.Outcome State Fault Refusal :=
  s.done fun e => e.up fun h => h.tbInvDone

/-- `KFP_READ_RESPONSE`: A read response arrives on a memory port and is delivered, dropped as late or flagged (R393). -/
def execKfpReadResponse (port : Fin 8) (tag : Nat) (beat : Fin 4) (data : List Byte) (poison last : Bool) (err : Fin
    4) (s : State) : Host.Outcome State Fault Refusal :=
  s.done fun e => e.readResponse port tag beat data poison last err

/-- `KFP_WRITE_RESPONSE`: A write response arrives on a memory port (R395). -/
def execKfpWriteResponse (port : Fin 8) (tag : Nat) (err : Fin 4) (s : State) : Host.Outcome State Fault Refusal :=
  s.done fun e => e.writeResponded port tag err

end Sys2Proof.Machine
end

