-- ==== Sys2Proof/Machine/PortalRows.lean ====
section
/-!
DEFINITION. The meanings of the register port and of interrupt messages (00_scope.md R11 to R25; 16_boundary_and_register_map.md
R608 to R613).
-/
namespace Sys2Proof.Machine

open Sys2Proof

/-- `REGISTER_WRITE`: A register write with no behaviour of its own takes effect under its access code (R23). -/
def execRegisterWrite (offset : BitVec 23) (be : BitVec 4) (v : Word) (cls : BitVec 3) (s : State) : Host.Outcome
    State Fault Refusal :=
  s.done fun e => e.portWrite offset.toNat be.toNat v cls.toNat

/-- `PAIR_LO_READ`: A read of a 64-bit pair's _LO word captures the _HI snapshot (R19); a narrower one returns zero (R18). -/
def execPairLoRead (offset : BitVec 23) (be : BitVec 4) (cls : BitVec 3) (s : State) : Host.Outcome State Fault Refusal :=
  s.done fun e => e.portRead offset.toNat be.toNat cls.toNat

/-- `PAIR_HI_WRITE`: A write of a pair's _HI word applies both staged words together (R20). -/
def execPairHiWrite (offset : BitVec 23) (v : Word) (cls : BitVec 3) (s : State) : Host.Outcome State Fault Refusal :=
  s.done fun e => if pairHigh offset.toNat then e.portWrite offset.toNat 15 v cls.toNat else e

/-- `ABI_REQ_WRITE`: A write of ABI_REQ negotiates the granted ABI version (R11). -/
def execAbiReqWrite (v : Word) (s : State) : Host.Outcome State Fault Refusal :=
  s.done fun e => e.atPort Reg.abiReq fun e => e.up fun h => h.abiWrite v

/-- `IRQ_MESSAGE`: The lowest pending vector transfers as an interrupt message (R612). -/
def execIrqMessage (s : State) : Host.Outcome State Fault Refusal :=
  s.done fun e => e.up fun h => h.irqMessage

/-- `IRQ_TEST`: IRQ_TEST GO sends a vector (R612). -/
def execIrqTest (vector : BitVec 6) (s : State) : Host.Outcome State Fault Refusal :=
  s.done fun e => e.atPort Reg.irqTest fun e => e.up fun h => h.irq vector.toNat

end Sys2Proof.Machine
end

