-- ==== Sys2Proof/Machine/PowerRows.lean ====
section
/-!
DEFINITION. The meanings of the Power Manager (14_power_management.md).
-/
namespace Sys2Proof.Machine

open Sys2Proof

/-- `POWER_ESTIMATE`: Every 512 DCLK the Power Manager estimates power and sets allocations and bubbles (R562). -/
def execPowerEstimate (events : List (List Nat)) (s : State) : Host.Outcome State Fault Refusal :=
  s.done fun e => e.up fun h => h.powerEstimate events

/-- `OP_CHANGE`: The engine changes operating point with a voltage request and a CCLK switch (R552). -/
def execOpChange (s : State) : Host.Outcome State Fault Refusal :=
  s.done fun e => e.up fun h => h.opChange

/-- `PWR_ACK`: The regulator acknowledges a settled rail and the handshake proceeds (R551). -/
def execPwrAck (level : Bool) (s : State) : Host.Outcome State Fault Refusal :=
  s.done fun e => e.up fun h => h.pwrAck level

/-- `PWR_ACK_TIMEOUT`: No acknowledgement within 1 ms sets REG_FAULT (R553). -/
def execPwrAckTimeout (s : State) : Host.Outcome State Fault Refusal :=
  s.done fun e => e.up fun h => h.pwrAckTimeout

/-- `PWR_ALERT`: PWR_ALERT_N low switches CCLK to OP0 within 100 ns (R555). -/
def execPwrAlert (s : State) : Host.Outcome State Fault Refusal :=
  s.done fun e => e.up fun h => h.pwrAlert

/-- `ALERT_RELEASE`: PWR_ALERT_N high for 1 ms ends the OP0 restriction (R555). -/
def execAlertRelease (s : State) : Host.Outcome State Fault Refusal :=
  s.done fun e => e.up fun h => h.alertRelease

/-- `THERMAL_SAMPLE`: Sensors are read and the thermal point falls, rises or trips (R556). -/
def execThermalSample (temps : List (BitVec 16)) (s : State) : Host.Outcome State Fault Refusal :=
  s.done fun e => e.up fun h => h.thermalSample temps

/-- `DROOP_DETECT`: A droop detector fires and CCLK stretches (R557). -/
def execDroopDetect (s : State) : Host.Outcome State Fault Refusal :=
  s.done fun e => e.up fun h => h.droopDetect

/-- `DROOP_STRETCH_END`: The stretch ends after MIN_STRETCH cycles with no detector firing (R557). -/
def execDroopStretchEnd (s : State) : Host.Outcome State Fault Refusal :=
  s.done fun e => e.up fun h => h.droopEnd

/-- `AGEING_CHECK`: Delay monitors measure margin and raise a trim or lower OP_LIMIT (R559). -/
def execAgeingCheck (low : Bool) (s : State) : Host.Outcome State Fault Refusal :=
  s.done fun e => e.up fun h => h.ageingCheck low

/-- `LEARN_CLEAR`: PWR_CTRL LEARN_CLEAR clears the learning table (R564). -/
def execLearnClear (s : State) : Host.Outcome State Fault Refusal :=
  s.done fun e => e.atPort Reg.pwrCtrl fun e => e.up fun h => h.learnClear

/-- `DOMAIN_POWER_UP_DONE`: A switched domain completes its power-up and clearing (R561). -/
def execDomainPowerUpDone (domain : Fin 128) (s : State) : Host.Outcome State Fault Refusal :=
  s.done fun e => e.domainUp domain

/-- `BUBBLE_FRAME_START`: At each 64-CCLK frame start the bubble count in force for a partition applies and its held groups become hold cycles (R565). -/
def execBubbleFrameStart (part : Fin 16) (s : State) : Host.Outcome State Fault Refusal :=
  s.done fun e => e.up fun h => h.bubbleFrame part

end Sys2Proof.Machine
end

