-- ==== Sys2Proof/Machine/QueueRows.lean ====
section
/-!
DEFINITION. The meanings of the commands of a queue (08_caller_and_queues.md R317 to R332, R347, R348).
-/
namespace Sys2Proof.Machine

open Sys2Proof

/-- `CMD_NOP`: Queue command NOP, completing at once (R333). -/
def execCmdNop (queue : Fin 1024) (pkt : MemAnswer) (s : State) : Host.Outcome State Fault Refusal :=
  s.done fun e => e.cmdNop queue pkt

/-- `LAUNCH`: Queue command that dispatches a kernel to the queue's partition (R318). -/
def execLaunch (queue : Fin 1024) (pkt more kdesc : MemAnswer) (s : State) : Host.Outcome State Fault Refusal :=
  s.done fun e => e.cmdLaunch queue pkt more kdesc

/-- `CMD_WAIT`: Queue command that holds until a fence or Loft Hatch counter reaches a threshold (R323). -/
def execCmdWait (queue : Fin 1024) (pkt fence : MemAnswer) (s : State) : Host.Outcome State Fault Refusal :=
  s.done fun e => e.cmdWait queue pkt fence

/-- `SIGNAL`: Queue command that writes a fence value after earlier items complete (R326). -/
def execSignal (queue : Fin 1024) (pkt : MemAnswer) (s : State) : Host.Outcome State Fault Refusal :=
  s.done fun e => e.cmdSignal queue pkt

/-- `GATE`: Queue command that holds until a Line Gate is satisfied (R323). -/
def execGate (queue : Fin 1024) (pkt : MemAnswer) (s : State) : Host.Outcome State Fault Refusal :=
  s.done fun e => e.cmdGate queue pkt

/-- `COND`: Queue command that tests a value and skips following commands when it fails (R327). -/
def execCond (queue : Fin 1024) (pkt value : MemAnswer) (s : State) : Host.Outcome State Fault Refusal :=
  s.done fun e => e.cmdCond queue pkt value

/-- `CMD_LOOP`: Queue command that repeats a command body a counted number of times (R328). -/
def execCmdLoop (queue : Fin 1024) (pkt count : MemAnswer) (rest : Nat) (s : State) : Host.Outcome State Fault
    Refusal :=
  s.done fun e => e.cmdLoop queue pkt count rest

/-- `CALL`: Queue command that runs a nested command buffer (R329). -/
def execCall (queue : Fin 1024) (pkt : MemAnswer) (s : State) : Host.Outcome State Fault Refusal :=
  s.done fun e => e.cmdCall queue pkt

/-- `RETURN`: Queue command that ends a nested buffer (R329). -/
def execCmdReturn (queue : Fin 1024) (pkt : MemAnswer) (s : State) : Host.Outcome State Fault Refusal :=
  s.done fun e => e.cmdReturn queue pkt

/-- `DMA`: Queue command that dispatches an engine DMA descriptor (R330). -/
def execDma (queue : Fin 1024) (pkt desc : MemAnswer) (s : State) : Host.Outcome State Fault Refusal :=
  s.done fun e => e.cmdDma queue pkt desc

/-- `CACHE_INV`: Queue command that invalidates the partition's Loft cache lines (R331). -/
def execCacheInv (queue : Fin 1024) (pkt : MemAnswer) (s : State) : Host.Outcome State Fault Refusal :=
  s.done fun e => e.cmdCacheInv queue pkt

/-- `HATCH_OPEN`: Queue command that opens a Loft Hatch for the context (R332). -/
def execHatchOpen (queue : Fin 1024) (pkt : MemAnswer) (s : State) : Host.Outcome State Fault Refusal :=
  s.done fun e => e.cmdHatchOpen queue pkt

/-- `HATCH_CLOSE`: Queue command that closes a Loft Hatch when its writes have landed (R332). -/
def execHatchClose (queue : Fin 1024) (pkt : MemAnswer) (s : State) : Host.Outcome State Fault Refusal :=
  s.done fun e => e.cmdHatchClose queue pkt

/-- `TIMESTAMP`: Queue command that writes the Dealer time after earlier items complete (R326). -/
def execTimestamp (queue : Fin 1024) (pkt : MemAnswer) (s : State) : Host.Outcome State Fault Refusal :=
  s.done fun e => e.cmdTimestamp queue pkt

/-- `BATCH`: Queue command that runs the Batch Composer over a sequence table (R347). -/
def execBatch (queue : Fin 1024) (pkt desc table : MemAnswer) (s : State) : Host.Outcome State Fault Refusal :=
  s.done fun e => e.cmdBatch queue pkt desc table

/-- `BATCH_STEP_DONE`: A batch step's buffer completes; sequences are updated and the next step composed (R348). -/
def execBatchStepDone (queue : Fin 1024) (s : State) : Host.Outcome State Fault Refusal :=
  s.done fun e => e.up fun h => (h.batchStepDone queue).starve

/-- `WAIT_POLL`: Every POLL_US the Caller re-evaluates waiting commands and retries held records (R324). -/
def execWaitPoll (queue : Fin 1024) (fence : MemAnswer) (s : State) : Host.Outcome State Fault Refusal :=
  s.done fun e => e.up fun h => h.poll queue fence

end Sys2Proof.Machine
end

