-- ==== Sys2Proof/Machine/RecoveryRows.lean ====
section
/-!
DEFINITION. The meanings of context resets and of core retirement (13_faults_reset_recovery.md R526 to R529, R542 to R546).
-/
namespace Sys2Proof.Machine

open Sys2Proof

/-- `CTX_RST`: Driver write of CTX_RST requests a context reset (R527). -/
def execCtxRst (ctx : Fin 4096) (s : State) : Host.Outcome State Fault Refusal :=
  s.done fun e => e.atPort Reg.ctxRst fun e => e.ctxRst ctx

/-- `CONTEXT_RESET_END`: The clear finishes and records are written; BUSY clears (R527). -/
def execContextResetEnd (ctx : Fin 4096) (s : State) : Host.Outcome State Fault Refusal :=
  s.done fun e => e.resetEnd ctx

/-- `GENERATION_INCREMENT`: A reset context's generation increments once no orphaned tag holds the new value (R399). -/
def execGenerationIncrement (ctx : Fin 4096) (s : State) : Host.Outcome State Fault Refusal :=
  s.done fun e => e.up fun h => h.genIncrement ctx

/-- `CORE_RETIRE`: A retired core takes effect at its partition's kernel boundary (R542). -/
def execCoreRetire (p : CoreIx) (s : State) : Host.Outcome State Fault Refusal :=
  s.done fun e => e.up fun h => h.coreRetire p

/-- `KITTY_SUBSTITUTED`: A Kitty core is powered, cleared, loaded and takes over a logical index (R543). -/
def execKittySubstituted (p : CoreIx) (cycles : Nat) (s : State) : Host.Outcome State Fault Refusal :=
  s.done fun e => e.kittySubstitute p cycles

/-- `DONOR_MOVE`: With no Kitty free, the core serving the top index moves to the retired index (R544). -/
def execDonorMove (p : CoreIx) (cycles : Nat) (s : State) : Host.Outcome State Fault Refusal :=
  s.done fun e => e.donorMove p cycles

end Sys2Proof.Machine
end

