-- ==== Sys2Proof/Machine/SafetyRows.lean ====
section
/-!
DEFINITION. The meanings of the Safety Monitor (12_functional_safety.md).
-/
namespace Sys2Proof.Machine

open Sys2Proof

/-- `JOKER_SEGMENT_START`: A core begins a Joker segment at its scheduled time (R488). -/
def execJokerSegmentStart (logical : Fin 64) (s : State) : Host.Outcome State Fault Refusal :=
  s.done fun e => e.up fun h => h.jokerStart logical

/-- `JOKER_SEGMENT_END`: A Joker segment ends and its signature is compared (R493). -/
def execJokerSegmentEnd (logical : Fin 64) (flip : Word) (s : State) : Host.Outcome State Fault Refusal :=
  s.done fun e => e.jokerEnd logical flip

/-- `REDEAL_COMPARE`: The Safety Monitor compares primary and copy signatures (R501). -/
def execRedealCompare (part : Fin 16) (s : State) : Host.Outcome State Fault Refusal :=
  s.done fun e => e.redealCompare part

/-- `CLASS_A_REACTION`: A class A fault stops SAFE_ERR and holds every core (R485). -/
def execClassAReaction (code : BitVec 8) (detail : Half) (s : State) : Host.Outcome State Fault Refusal :=
  s.done fun e => e.up fun h => h.classAReaction code detail

/-- `SAFETY_RING_WRITE`: An Age Tag or Verdict Record is written to its ring when there is room (R509). -/
def execSafetyRingWrite (verdict : Bool) (s : State) : Host.Outcome State Fault Refusal :=
  s.done fun e => e.up fun h => h.safetyRingWrite verdict

/-- `SAFETY_RING_HEAD_WRITE`: A write of AGE_HEAD or VERDICT_HEAD frees ring slots (R509). -/
def execSafetyRingHeadWrite (verdict : Bool) (v : Word) (s : State) : Host.Outcome State Fault Refusal :=
  s.done fun e => e.atPort Reg.ageHead fun e => e.up fun h => h.safetyHeadWrite verdict v

/-- `VERDICT_WRITE`: The Safety Monitor writes an epoch's Verdict Record once its conditions hold or at its deadline (R510). -/
def execVerdictWrite (part : Fin 16) (s : State) : Host.Outcome State Fault Refusal :=
  s.done fun e => e.up fun h => h.verdictWrite part

/-- `SAFE_ERR_TOGGLE`: Every 600 FCLK the SAFE_ERR outputs toggle while healthy (R512). -/
def execSafeErrToggle (s : State) : Host.Outcome State Fault Refusal :=
  s.done fun e => e.up fun h => h.safeToggle

/-- `SAFE_ERR_READBACK_FAIL`: A SAFE_ERR pad differing for 1 µs raises a class A cause (R514). -/
def execSafeErrReadbackFail (s : State) : Host.Outcome State Fault Refusal :=
  s.done fun e => e.up fun h => h.safeReadback

/-- `INJECT_JOKER`: SM_INJ_CTRL GO with kind JOKER inverts a signature bit (R518). -/
def execInjectJoker (target : BitVec 7) (segment : Fin 8) (s : State) : Host.Outcome State Fault Refusal :=
  s.done fun e => e.atPort Reg.smInjCtrl fun e => e.up fun h => h.injectJoker target.toNat segment

/-- `INJECT_REDEAL`: SM_INJ_CTRL GO with kind REDEAL inverts a compared window bit (R518). -/
def execInjectRedeal (part : Fin 16) (s : State) : Host.Outcome State Fault Refusal :=
  s.done fun e => e.atPort Reg.smInjCtrl fun e => e.up fun h => h.injectRedeal part

/-- `INJECT_AGE`: SM_INJ_CTRL GO with kind AGE makes the next publication stale (R518). -/
def execInjectAge (slot : Fin 32) (s : State) : Host.Outcome State Fault Refusal :=
  s.done fun e => e.atPort Reg.smInjCtrl fun e => e.up fun h => h.injectAge slot

/-- `INJECT_CLASS_A`: SM_INJ_CTRL GO with kind CLASS_A raises class A cause 0x0C (R518). -/
def execInjectClassA (s : State) : Host.Outcome State Fault Refusal :=
  s.done fun e => e.atPort Reg.smInjCtrl fun e => e.up fun h => h.injectClassA

end Sys2Proof.Machine
end

