-- ==== Sys2Proof/Machine/Scalar.lean ====
section
/-!
DEFINITION. The meanings of slot 0: control and scalar (05_core_program.md R175 to R185).
-/
namespace Sys2Proof.Machine

open Sys2Proof

/-- `NOP`: Slot syllable with opcode 0x00 that does nothing (R170). -/
def execNop (p : CoreIx) (slot : Fin 4) (illegal : Bool) (s : State) : Host.Outcome State Fault Refusal :=
  s.syl p slot fun _ _ _ _ => sylNop illegal

/-- `ADD`: Scalar add: Sd gets Sa + Sb (R175). -/
def execAdd (p : CoreIx) (d a c : Fin 32) (s : State) : Host.Outcome State Fault Refusal :=
  s.syl p 0 fun _ _ b _ => sylAlu 1 (· + ·) d a c b

/-- `SUB`: Scalar subtract: Sd gets Sa - Sb (R175). -/
def execSub (p : CoreIx) (d a c : Fin 32) (s : State) : Host.Outcome State Fault Refusal :=
  s.syl p 0 fun _ _ b _ => sylAlu 1 (· - ·) d a c b

/-- `AND`: Scalar bitwise AND (R175). -/
def execAnd (p : CoreIx) (d a c : Fin 32) (s : State) : Host.Outcome State Fault Refusal :=
  s.syl p 0 fun _ _ b _ => sylAlu 1 (· &&& ·) d a c b

/-- `OR`: Scalar bitwise OR (R175). -/
def execOr (p : CoreIx) (d a c : Fin 32) (s : State) : Host.Outcome State Fault Refusal :=
  s.syl p 0 fun _ _ b _ => sylAlu 1 (· ||| ·) d a c b

/-- `XOR`: Scalar bitwise XOR (R175). -/
def execXor (p : CoreIx) (d a c : Fin 32) (s : State) : Host.Outcome State Fault Refusal :=
  s.syl p 0 fun _ _ b _ => sylAlu 1 (· ^^^ ·) d a c b

/-- `SHL`: Scalar left shift by Sb[4:0] (R175). -/
def execShl (p : CoreIx) (d a c : Fin 32) (s : State) : Host.Outcome State Fault Refusal :=
  s.syl p 0 fun _ _ b _ => sylAlu 1 aluShl d a c b

/-- `SHR`: Scalar logical right shift by Sb[4:0] (R175). -/
def execShr (p : CoreIx) (d a c : Fin 32) (s : State) : Host.Outcome State Fault Refusal :=
  s.syl p 0 fun _ _ b _ => sylAlu 1 aluShr d a c b

/-- `SRA`: Scalar arithmetic right shift by Sb[4:0] (R175). -/
def execSra (p : CoreIx) (d a c : Fin 32) (s : State) : Host.Outcome State Fault Refusal :=
  s.syl p 0 fun _ _ b _ => sylAlu 1 aluSra d a c b

/-- `MUL`: Scalar multiply keeping the low 32 bits, latency 3 (R175). -/
def execMul (p : CoreIx) (d a c : Fin 32) (s : State) : Host.Outcome State Fault Refusal :=
  s.syl p 0 fun _ _ b _ => sylAlu 3 (· * ·) d a c b

/-- `MIN`: Signed scalar minimum (R175). -/
def execMin (p : CoreIx) (d a c : Fin 32) (s : State) : Host.Outcome State Fault Refusal :=
  s.syl p 0 fun _ _ b _ => sylAlu 1 aluMin d a c b

/-- `MAX`: Signed scalar maximum (R175). -/
def execMax (p : CoreIx) (d a c : Fin 32) (s : State) : Host.Outcome State Fault Refusal :=
  s.syl p 0 fun _ _ b _ => sylAlu 1 aluMax d a c b

/-- `MINU`: Unsigned scalar minimum (R175). -/
def execMinu (p : CoreIx) (d a c : Fin 32) (s : State) : Host.Outcome State Fault Refusal :=
  s.syl p 0 fun _ _ b _ => sylAlu 1 aluMinu d a c b

/-- `MAXU`: Unsigned scalar maximum (R175). -/
def execMaxu (p : CoreIx) (d a c : Fin 32) (s : State) : Host.Outcome State Fault Refusal :=
  s.syl p 0 fun _ _ b _ => sylAlu 1 aluMaxu d a c b

/-- `ADDI`: Scalar add of a sign-extended 14-bit immediate (R175). -/
def execAddi (p : CoreIx) (d a : Fin 32) (imm : BitVec 14) (s : State) : Host.Outcome State Fault Refusal :=
  s.syl p 0 fun _ _ b _ => sylAluI (· + ·) d a (imm.signExtend 32) b

/-- `ANDI`: Scalar AND with a sign-extended immediate (R175). -/
def execAndi (p : CoreIx) (d a : Fin 32) (imm : BitVec 14) (s : State) : Host.Outcome State Fault Refusal :=
  s.syl p 0 fun _ _ b _ => sylAluI (· &&& ·) d a (imm.signExtend 32) b

/-- `ORI`: Scalar OR with a sign-extended immediate (R175). -/
def execOri (p : CoreIx) (d a : Fin 32) (imm : BitVec 14) (s : State) : Host.Outcome State Fault Refusal :=
  s.syl p 0 fun _ _ b _ => sylAluI (· ||| ·) d a (imm.signExtend 32) b

/-- `XORI`: Scalar XOR with a sign-extended immediate (R175). -/
def execXori (p : CoreIx) (d a : Fin 32) (imm : BitVec 14) (s : State) : Host.Outcome State Fault Refusal :=
  s.syl p 0 fun _ _ b _ => sylAluI (· ^^^ ·) d a (imm.signExtend 32) b

/-- `SHLI`: Scalar left shift by an immediate (R175). -/
def execShli (p : CoreIx) (d a : Fin 32) (imm : BitVec 14) (s : State) : Host.Outcome State Fault Refusal :=
  s.syl p 0 fun _ _ b _ => sylShI aluShl d a imm b

/-- `SHRI`: Scalar logical right shift by an immediate (R175). -/
def execShri (p : CoreIx) (d a : Fin 32) (imm : BitVec 14) (s : State) : Host.Outcome State Fault Refusal :=
  s.syl p 0 fun _ _ b _ => sylShI aluShr d a imm b

/-- `SRAI`: Scalar arithmetic right shift by an immediate (R175). -/
def execSrai (p : CoreIx) (d a : Fin 32) (imm : BitVec 14) (s : State) : Host.Outcome State Fault Refusal :=
  s.syl p 0 fun _ _ b _ => sylShI aluSra d a imm b

/-- `LI`: Load a sign-extended 16-bit immediate into Sd (R175). -/
def execLi (p : CoreIx) (d : Fin 32) (imm : BitVec 16) (s : State) : Host.Outcome State Fault Refusal :=
  s.syl p 0 fun _ _ _ _ => sylLi d imm

/-- `LUI`: Load the upper 16 bits of Sd, keeping the low 16 bits (R175). -/
def execLui (p : CoreIx) (d : Fin 32) (imm : BitVec 16) (s : State) : Host.Outcome State Fault Refusal :=
  s.syl p 0 fun _ _ b _ => sylLui d imm b

/-- `CMP`: Set every bit of a predicate to the result of a scalar comparison (R175). -/
def execCmp (p : CoreIx) (q : Fin 8) (a c : Fin 32) (code : Fin 8) (s : State) : Host.Outcome State Fault Refusal :=
  s.syl p 0 fun _ _ b _ => sylCmp q a c code b

/-- `PAND`: Predicate AND (R175). -/
def execPand (p : CoreIx) (q x y : Fin 8) (s : State) : Host.Outcome State Fault Refusal :=
  s.syl p 0 fun _ _ b _ => sylPred (· &&& ·) q x y b

/-- `POR`: Predicate OR (R175). -/
def execPor (p : CoreIx) (q x y : Fin 8) (s : State) : Host.Outcome State Fault Refusal :=
  s.syl p 0 fun _ _ b _ => sylPred (· ||| ·) q x y b

/-- `PXOR`: Predicate XOR (R175). -/
def execPxor (p : CoreIx) (q x y : Fin 8) (s : State) : Host.Outcome State Fault Refusal :=
  s.syl p 0 fun _ _ b _ => sylPred (· ^^^ ·) q x y b

/-- `PNOT`: Predicate NOT (R175). -/
def execPnot (p : CoreIx) (q x : Fin 8) (s : State) : Host.Outcome State Fault Refusal :=
  s.syl p 0 fun _ _ b _ => sylPnot q x b

/-- `BR`: Conditional branch on a predicate test; a taken branch costs a cycle and may pop loop entries (R176). -/
def execBr (p : CoreIx) (q : Fin 8) (test : Fin 4) (off : BitVec 14) (s : State) : Host.Outcome State Fault Refusal :=
  s.syl p 0 fun _ _ b _ => sylBr q test off b

/-- `CALLB`: Push the return address and branch (R176). -/
def execCallb (p : CoreIx) (off : BitVec 14) (s : State) : Host.Outcome State Fault Refusal :=
  s.syl p 0 fun _ _ b _ => sylCallb off b

/-- `RETB`: Pop the return stack and branch (R176). -/
def execRetb (p : CoreIx) (s : State) : Host.Outcome State Fault Refusal :=
  s.syl p 0 fun _ _ b _ => sylRetb b

/-- `LOOP`: Open a zero-overhead loop with the count in Sa (R177). -/
def execLoop (p : CoreIx) (a : Fin 32) (last : BitVec 14) (s : State) : Host.Outcome State Fault Refusal :=
  s.syl p 0 fun _ _ b _ => sylLoop [keyS a] (b.sr a).toNat last.toNat b

/-- `LOOPI`: Open a zero-overhead loop with an immediate count (R177). -/
def execLoopi (p : CoreIx) (count : BitVec 10) (last : BitVec 14) (s : State) : Host.Outcome State Fault Refusal :=
  s.syl p 0 fun _ _ b _ => sylLoop [] count.toNat last.toNat b

/-- `WAIT`: Wait until an arrival counter reaches Sa, then issue at wheel position 0 (R180). -/
def execWait (p : CoreIx) (c a : Fin 32) (s : State) : Host.Outcome State Fault Refusal :=
  s.syl p 0 fun _ _ b _ => sylWait [keyS a] c (b.sr a) b

/-- `WAITI`: Wait until an arrival counter reaches an immediate, then issue at wheel position 0 (R180). -/
def execWaiti (p : CoreIx) (c : Fin 32) (imm : BitVec 14) (s : State) : Host.Outcome State Fault Refusal :=
  s.syl p 0 fun _ _ b _ => sylWait [] c (imm.zeroExtend 32) b

/-- `WAITG`: Wait on a Line Gate of a stream, parity and position (R181). -/
def execWaitg (p : CoreIx) (a c : Fin 32) (s : State) : Host.Outcome State Fault Refusal :=
  s.syl p 0 fun h _ b _ => sylWaitg a c (fun stream => h.assigned stream b.ctxId b.part) h.gateOpen b

/-- `CUT`: Arrive at a Cut barrier and wait for its release (R182). -/
def execCut (p : CoreIx) (barrier : Fin 16) (x : Bool) (s : State) : Host.Outcome State Fault Refusal :=
  s.syl p 0 fun _ _ b _ => sylCut barrier x b

/-- `CUT_RELEASE`: Engine releases a barrier at wheel position 0 at least 4 CCLK after the last arrival (R182). -/
def execCutRelease (part barrier : Fin 16) (s : State) : Host.Outcome State Fault Refusal :=
  s.done fun e => e.up fun h => h.cutRelease part barrier

/-- `TRICK`: Increment the core's TRICKS counter as one unit of progress (R184). -/
def execTrick (p : CoreIx) (s : State) : Host.Outcome State Fault Refusal :=
  s.syl p 0 fun _ _ _ _ => sylTrick

/-- `HALT`: End the core's part of the kernel once every earlier operation has finished (R185). -/
def execHalt (p : CoreIx) (s : State) : Host.Outcome State Fault Refusal :=
  s.syl p 0 fun _ _ b _ => sylHalt b

/-- `CNTSET`: Set an arrival counter to Sa plus that cycle's arrivals (R178). -/
def execCntset (p : CoreIx) (c a : Fin 32) (s : State) : Host.Outcome State Fault Refusal :=
  s.syl p 0 fun _ _ b _ => sylCntset c a b

/-- `CNTADD`: Add Sa to an arrival counter modulo 2^32 (R178). -/
def execCntadd (p : CoreIx) (c a : Fin 32) (s : State) : Host.Outcome State Fault Refusal :=
  s.syl p 0 fun _ _ b _ => sylCntadd c a b

/-- `CNTRD`: Read an arrival counter into Sd (R175). -/
def execCntrd (p : CoreIx) (d c : Fin 32) (s : State) : Host.Outcome State Fault Refusal :=
  s.syl p 0 fun _ _ b _ => sylCntrd d c b

/-- `RDSTAT`: Read the core's own ARITH_STATUS into Sd (R175). -/
def execRdstat (p : CoreIx) (d : Fin 32) (s : State) : Host.Outcome State Fault Refusal :=
  s.syl p 0 fun _ _ b _ => sylRdstat d b

/-- `RDSPEC`: Read latched DETM, ARITH_REV, the issued-cycle count or the wheel position into Sd (R175). -/
def execRdspec (p : CoreIx) (d : Fin 32) (sel : Fin 16) (s : State) : Host.Outcome State Fault Refusal :=
  s.syl p 0 fun h _ b _ => sylRdspec d sel (h.regFld Reg.engRev 23 16) b

/-- `SETRS`: Set one part of the stochastic-rounding seed, step, tensor ID or index registers (R175). -/
def execSetrs (p : CoreIx) (a : Fin 32) (sel : Fin 8) (s : State) : Host.Outcome State Fault Refusal :=
  s.syl p 0 fun _ _ b _ => sylSetrs a sel b

end Sys2Proof.Machine
end

