-- ==== Sys2Proof/Machine/StreamRows.lean ====
section
/-!
DEFINITION. The meanings of sensor streams (07_streams_and_line_lock.md R273 to R307).
-/
namespace Sys2Proof.Machine

open Sys2Proof

/-- `LPI_LINE`: An LPI LINE packet is checked and written to its stream's rings (R280). -/
def execLpiLine (port : Fin 6) (data : List Byte) (ending : LpiEnd) (s : State) : Host.Outcome State Fault Refusal :=
  s.done fun e => (e.lpiPacket port 1 data ending).up Hw.recheckAll

/-- `LPI_FRAME_START`: An LPI FRAME_START packet opens a new frame or is late (R284). -/
def execLpiFrameStart (port : Fin 6) (data : List Byte) (ending : LpiEnd) (s : State) : Host.Outcome State Fault
    Refusal :=
  s.done fun e => (e.lpiPacket port 2 data ending).up Hw.recheckAll

/-- `LPI_FRAME_END`: An LPI FRAME_END packet closes the open frame, resolving remaining positions as holes (R284). -/
def execLpiFrameEnd (port : Fin 6) (data : List Byte) (ending : LpiEnd) (s : State) : Host.Outcome State Fault
    Refusal :=
  s.done fun e => (e.lpiPacket port 3 data ending).up Hw.recheckAll

/-- `POSITION_RESOLVE`: A position resolves once its final status word is written at every destination (R290). -/
def execPositionResolve (stream : Fin 96) (s : State) : Host.Outcome State Fault Refusal :=
  s.done fun e => (e.positionResolve stream).up Hw.recheckAll

/-- `POSITION_DEADLINE`: A position reaches its line-period deadline and resolves as a hole (R285). -/
def execPositionDeadline (stream : Fin 96) (s : State) : Host.Outcome State Fault Refusal :=
  s.done fun e => (e.positionDeadline stream).up Hw.recheckAll

/-- `STREAM_UDP_PACKET`: A UDP packet steered by a filter rule is checked and written to its stream (R301). -/
def execStreamUdpPacket (link : Fin 2) (data : List Byte) (ts : DWord) (s : State) : Host.Outcome State Fault
    Refusal :=
  s.done fun e => (e.udpArrives link data ts).up Hw.recheckAll

end Sys2Proof.Machine
end

