-- ==== Sys2Proof/Machine/VectorRows.lean ====
section
/-!
DEFINITION. The meanings of slot 3: the vector unit (05_core_program.md R201 to R208).
-/
namespace Sys2Proof.Machine

open Sys2Proof

/-- `VADD`: Vector add (R201). -/
def execVadd (p : CoreIx) (t : Fin 4) (d a c : Fin 32) (pg : Fin 8) (s : State) : Host.Outcome State Fault Refusal :=
  s.syl p 3 fun _ _ b _ => sylVarith laneAdd (laneTy t) d a c pg b

/-- `VSUB`: Vector subtract (R201). -/
def execVsub (p : CoreIx) (t : Fin 4) (d a c : Fin 32) (pg : Fin 8) (s : State) : Host.Outcome State Fault Refusal :=
  s.syl p 3 fun _ _ b _ => sylVarith laneSub (laneTy t) d a c pg b

/-- `VMUL`: Vector multiply (R201). -/
def execVmul (p : CoreIx) (t : Fin 4) (d a c : Fin 32) (pg : Fin 8) (s : State) : Host.Outcome State Fault Refusal :=
  s.syl p 3 fun _ _ b _ => sylVarith laneMul (laneTy t) d a c pg b

/-- `VFMA`: Vector fused multiply-add into Vd (R201). -/
def execVfma (p : CoreIx) (t : Fin 4) (d a c : Fin 32) (pg : Fin 8) (s : State) : Host.Outcome State Fault Refusal :=
  s.syl p 3 fun _ _ b _ => sylVfma (laneTy t) d a c pg b

/-- `VMAX`: Vector maximum (R93). -/
def execVmax (p : CoreIx) (t : Fin 4) (d a c : Fin 32) (pg : Fin 8) (s : State) : Host.Outcome State Fault Refusal :=
  s.syl p 3 fun _ _ b _ => sylVarith laneMax (laneTy t) d a c pg b

/-- `VMIN`: Vector minimum (R93). -/
def execVmin (p : CoreIx) (t : Fin 4) (d a c : Fin 32) (pg : Fin 8) (s : State) : Host.Outcome State Fault Refusal :=
  s.syl p 3 fun _ _ b _ => sylVarith laneMin (laneTy t) d a c pg b

/-- `VABS`: Vector absolute value (R201). -/
def execVabs (p : CoreIx) (t : Fin 4) (d a : Fin 32) (pg : Fin 8) (s : State) : Host.Outcome State Fault Refusal :=
  s.syl p 3 fun _ _ b _ => sylLane1 (laneAbs (laneTy t)) d a pg 1 b

/-- `VNEG`: Vector negate (R201). -/
def execVneg (p : CoreIx) (t : Fin 4) (d a : Fin 32) (pg : Fin 8) (s : State) : Host.Outcome State Fault Refusal :=
  s.syl p 3 fun _ _ b _ => sylLane1 (laneNeg (laneTy t)) d a pg 1 b

/-- `VAND`: Vector bitwise AND (R201). -/
def execVand (p : CoreIx) (d a c : Fin 32) (pg : Fin 8) (s : State) : Host.Outcome State Fault Refusal :=
  s.syl p 3 fun _ _ b _ => sylVbit (· &&& ·) d a c pg b

/-- `VOR`: Vector bitwise OR (R201). -/
def execVor (p : CoreIx) (d a c : Fin 32) (pg : Fin 8) (s : State) : Host.Outcome State Fault Refusal :=
  s.syl p 3 fun _ _ b _ => sylVbit (· ||| ·) d a c pg b

/-- `VXOR`: Vector bitwise XOR (R201). -/
def execVxor (p : CoreIx) (d a c : Fin 32) (pg : Fin 8) (s : State) : Host.Outcome State Fault Refusal :=
  s.syl p 3 fun _ _ b _ => sylVbit (· ^^^ ·) d a c pg b

/-- `VSHL`: Vector left shift per lane (R201). -/
def execVshl (p : CoreIx) (d a c : Fin 32) (pg : Fin 8) (s : State) : Host.Outcome State Fault Refusal :=
  s.syl p 3 fun _ _ b _ => sylVbit aluShl d a c pg b

/-- `VSHR`: Vector right shift per lane, logical or arithmetic (R201). -/
def execVshr (p : CoreIx) (arith : Bool) (d a c : Fin 32) (pg : Fin 8) (s : State) : Host.Outcome State Fault
    Refusal :=
  s.syl p 3 fun _ _ b _ => sylVbit (if arith then aluSra else aluShr) d a c pg b

/-- `VCMP`: Per-lane vector compare into a predicate (R201). -/
def execVcmp (p : CoreIx) (t : Fin 4) (q : Fin 8) (a c : Fin 32) (pg : Fin 8) (code : Fin 16) (s : State) :
    Host.Outcome State Fault Refusal :=
  s.syl p 3 fun _ _ b _ => sylVcmp (laneTy t) q a c pg code b

/-- `VSEL`: Per-lane select under a predicate (R201). -/
def execVsel (p : CoreIx) (d a c : Fin 32) (pg : Fin 8) (s : State) : Host.Outcome State Fault Refusal :=
  s.syl p 3 fun _ _ b _ => sylVsel d a c pg b

/-- `VBCS`: Broadcast a scalar to every lane (R201). -/
def execVbcs (p : CoreIx) (d a : Fin 32) (pg : Fin 8) (s : State) : Host.Outcome State Fault Refusal :=
  s.syl p 3 fun _ _ b _ => sylVbcs d a pg b

/-- `VLANE`: Extract one lane of a vector into a scalar (R201). -/
def execVlane (p : CoreIx) (d a : Fin 32) (lane : Fin 64) (s : State) : Host.Outcome State Fault Refusal :=
  s.syl p 3 fun _ _ b _ => sylVlane d a lane b

/-- `VRED`: Cross-lane sum, maximum or minimum into lane 0 (R208). -/
def execVred (p : CoreIx) (t : Fin 4) (op : Fin 16) (d a : Fin 32) (pg : Fin 8) (s : State) : Host.Outcome State
    Fault Refusal :=
  s.syl p 3 fun _ _ b _ => sylVred (laneTy t) op d a pg b

/-- `VCVT`: Convert lanes between FP32, BF16, FP16 and INT32 (R93). -/
def execVcvt (p : CoreIx) (src dst : Fin 8) (d a : Fin 32) (pg : Fin 8) (s : State) : Host.Outcome State Fault
    Refusal :=
  s.syl p 3 fun _ _ b _ => sylVcvt src dst d a pg b

/-- `VRQ`: Integer requantisation of 64-bit values (R204). -/
def execVrq (p : CoreIx) (d a mult ctl : Fin 32) (half : Bool) (s : State) : Host.Outcome State Fault Refusal :=
  s.syl p 3 fun _ _ b _ => sylVrq d a mult ctl half b

/-- `VFQ`: Float requantisation to a narrower format (R87). -/
def execVfq (p : CoreIx) (d a : Fin 32) (pg : Fin 8) (fmt : Fin 16) (mode : Fin 4) (s : State) : Host.Outcome State
    Fault Refusal :=
  s.done fun e =>
      (e.syllable p 3 fun h _ b _ => sylVfq d a pg fmt mode (h.fresh.1.truncate 32) b).up fun h => h.fresh.2

/-- `VMXQ`: Block-scaled output of two 32-element blocks (R89). -/
def execVmxq (p : CoreIx) (d a x : Fin 32) (fmt : Fin 16) (mode : Fin 4) (s : State) : Host.Outcome State Fault
    Refusal :=
  s.syl p 3 fun _ _ b _ => sylVmxq d a x fmt mode b

/-- `VPACK`: Pack lanes into one 32-byte word of Vd (R206). -/
def execVpack (p : CoreIx) (d a : Fin 32) (pg : Fin 8) (fmt word : Fin 16) (half : Bool) (s : State) : Host.Outcome
    State Fault Refusal :=
  s.syl p 3 fun _ _ b _ => sylVpack d a pg fmt word half b

/-- `VEXP2`: Table-based 2^x (R97). -/
def execVexp2 (p : CoreIx) (d a : Fin 32) (pg : Fin 8) (s : State) : Host.Outcome State Fault Refusal :=
  s.syl p 3 fun _ _ b _ => sylVfun vexp2 6 d a pg b

/-- `VLOG2`: Table-based log2 x (R97). -/
def execVlog2 (p : CoreIx) (d a : Fin 32) (pg : Fin 8) (s : State) : Host.Outcome State Fault Refusal :=
  s.syl p 3 fun _ _ b _ => sylVfun vlog2 6 d a pg b

/-- `VRCP`: Table-based reciprocal (R97). -/
def execVrcp (p : CoreIx) (d a : Fin 32) (pg : Fin 8) (s : State) : Host.Outcome State Fault Refusal :=
  s.syl p 3 fun _ _ b _ => sylVfun vrcp 6 d a pg b

/-- `VRSQRT`: Table-based reciprocal square root (R97). -/
def execVrsqrt (p : CoreIx) (d a : Fin 32) (pg : Fin 8) (s : State) : Host.Outcome State Fault Refusal :=
  s.syl p 3 fun _ _ b _ => sylVfun vrsqrt 6 d a pg b

/-- `VEXP`: e^x through VEXP2 (R97). -/
def execVexp (p : CoreIx) (d a : Fin 32) (pg : Fin 8) (s : State) : Host.Outcome State Fault Refusal :=
  s.syl p 3 fun _ _ b _ => sylVfun vexp 10 d a pg b

/-- `VSIGM`: Logistic sigmoid (R97). -/
def execVsigm (p : CoreIx) (d a : Fin 32) (pg : Fin 8) (s : State) : Host.Outcome State Fault Refusal :=
  s.syl p 3 fun _ _ b _ => sylVfun vsigm 20 d a pg b

/-- `VTANH`: Hyperbolic tangent (R97). -/
def execVtanh (p : CoreIx) (d a : Fin 32) (pg : Fin 8) (s : State) : Host.Outcome State Fault Refusal :=
  s.syl p 3 fun _ _ b _ => sylVfun vtanh 28 d a pg b

/-- `V72ADD`: Add P72 containers of two registers (R207). -/
def execV72add (p : CoreIx) (d a c : Fin 32) (pg : Fin 8) (s : State) : Host.Outcome State Fault Refusal :=
  s.syl p 3 fun _ _ b _ => sylV72add d a c pg b

/-- `V72CVT`: Convert P72 containers in I64, F32 or F32I form (R207). -/
def execV72cvt (p : CoreIx) (d a x : Fin 32) (pg : Fin 8) (form : Fin 4) (s : State) : Host.Outcome State Fault
    Refusal :=
  s.syl p 3 fun _ _ b _ => sylV72cvt d a x pg form b

/-- `VFIXSUM`: Add lanes on a fixed grid into a P72 container (R207). -/
def execVfixsum (p : CoreIx) (d a x : Fin 32) (pg : Fin 8) (s : State) : Host.Outcome State Fault Refusal :=
  s.syl p 3 fun _ _ b _ => sylVfixsum d a x pg b

/-- `VEXPMAX`: Write an exponent summary of the lanes to Sd (R207). -/
def execVexpmax (p : CoreIx) (d a : Fin 32) (s : State) : Host.Outcome State Fault Refusal :=
  s.syl p 3 fun _ _ b _ => sylVexpmax d a b

/-- `VWLD`: Take the next column of a vector-consumer walk into Vd (R156). -/
def execVwld (p : CoreIx) (d : Fin 32) (pg : Fin 8) (s : State) : Host.Outcome State Fault Refusal :=
  s.syl p 3 fun _ _ b _ => sylVwld d pg b

/-- `VPOP`: Pop the head entry of the Drain Queue into Vd (R203). -/
def execVpop (p : CoreIx) (d : Fin 32) (pg : Fin 8) (s : State) : Host.Outcome State Fault Refusal :=
  s.syl p 3 fun _ _ b _ => sylVpop d pg b

end Sys2Proof.Machine
end

