-- ==== Sys2Proof/Machine/Dispatch.lean ====
section
/-!
DEFINITION. The effect of a command on everything but the queue: one arm per constructor.
-/
namespace Sys2Proof.Machine

open Sys2Proof

/-- What a command does. -/
def exec (i : Instr) (s : State) : Host.Outcome State Fault Refusal :=
  match i with
  | .nop p slot illegal => Sys2Proof.Machine.execNop p slot illegal s
  | .add p d a c => Sys2Proof.Machine.execAdd p d a c s
  | .sub p d a c => Sys2Proof.Machine.execSub p d a c s
  | .and p d a c => Sys2Proof.Machine.execAnd p d a c s
  | .or p d a c => Sys2Proof.Machine.execOr p d a c s
  | .xor p d a c => Sys2Proof.Machine.execXor p d a c s
  | .shl p d a c => Sys2Proof.Machine.execShl p d a c s
  | .shr p d a c => Sys2Proof.Machine.execShr p d a c s
  | .sra p d a c => Sys2Proof.Machine.execSra p d a c s
  | .mul p d a c => Sys2Proof.Machine.execMul p d a c s
  | .min p d a c => Sys2Proof.Machine.execMin p d a c s
  | .max p d a c => Sys2Proof.Machine.execMax p d a c s
  | .minu p d a c => Sys2Proof.Machine.execMinu p d a c s
  | .maxu p d a c => Sys2Proof.Machine.execMaxu p d a c s
  | .addi p d a imm => Sys2Proof.Machine.execAddi p d a imm s
  | .andi p d a imm => Sys2Proof.Machine.execAndi p d a imm s
  | .ori p d a imm => Sys2Proof.Machine.execOri p d a imm s
  | .xori p d a imm => Sys2Proof.Machine.execXori p d a imm s
  | .shli p d a imm => Sys2Proof.Machine.execShli p d a imm s
  | .shri p d a imm => Sys2Proof.Machine.execShri p d a imm s
  | .srai p d a imm => Sys2Proof.Machine.execSrai p d a imm s
  | .li p d imm => Sys2Proof.Machine.execLi p d imm s
  | .lui p d imm => Sys2Proof.Machine.execLui p d imm s
  | .cmp p q a c code => Sys2Proof.Machine.execCmp p q a c code s
  | .pand p q x y => Sys2Proof.Machine.execPand p q x y s
  | .por p q x y => Sys2Proof.Machine.execPor p q x y s
  | .pxor p q x y => Sys2Proof.Machine.execPxor p q x y s
  | .pnot p q x => Sys2Proof.Machine.execPnot p q x s
  | .br p q test off => Sys2Proof.Machine.execBr p q test off s
  | .callb p off => Sys2Proof.Machine.execCallb p off s
  | .retb p => Sys2Proof.Machine.execRetb p s
  | .loop p a last => Sys2Proof.Machine.execLoop p a last s
  | .loopi p count last => Sys2Proof.Machine.execLoopi p count last s
  | .wait p c a => Sys2Proof.Machine.execWait p c a s
  | .waiti p c imm => Sys2Proof.Machine.execWaiti p c imm s
  | .waitg p a c => Sys2Proof.Machine.execWaitg p a c s
  | .cut p barrier x => Sys2Proof.Machine.execCut p barrier x s
  | .cutRelease part barrier => Sys2Proof.Machine.execCutRelease part barrier s
  | .trick p => Sys2Proof.Machine.execTrick p s
  | .halt p => Sys2Proof.Machine.execHalt p s
  | .cntset p c a => Sys2Proof.Machine.execCntset p c a s
  | .cntadd p c a => Sys2Proof.Machine.execCntadd p c a s
  | .cntrd p d c => Sys2Proof.Machine.execCntrd p d c s
  | .rdstat p d => Sys2Proof.Machine.execRdstat p d s
  | .rdspec p d sel => Sys2Proof.Machine.execRdspec p d sel s
  | .setrs p a sel => Sys2Proof.Machine.execSetrs p a sel s
  | .amov p d a => Sys2Proof.Machine.execAmov p d a s
  | .amovh p d a => Sys2Proof.Machine.execAmovh p d a s
  | .aadd p d x a => Sys2Proof.Machine.execAadd p d x a s
  | .aaddi p d x imm => Sys2Proof.Machine.execAaddi p d x imm s
  | .amovs p d x => Sys2Proof.Machine.execAmovs p d x s
  | .vld p d x inc imm => Sys2Proof.Machine.execVld p d x inc imm s
  | .sld p d x inc imm => Sys2Proof.Machine.execSld p d x inc imm s
  | .loadAccess p => Sys2Proof.Machine.execLoadAccess p s
  | .storeAccess p => Sys2Proof.Machine.execStoreAccess p s
  | .agset p f a => Sys2Proof.Machine.execAgset p f a s
  | .agseti p f imm => Sys2Proof.Machine.execAgseti p f imm s
  | .aggo p => Sys2Proof.Machine.execAggo p s
  | .planeLoadBegin p => Sys2Proof.Machine.execPlaneLoadBegin p s
  | .planeReady p => Sys2Proof.Machine.execPlaneReady p s
  | .dmaq p x c => Sys2Proof.Machine.execDmaq p x c s
  | .fill p x a w c => Sys2Proof.Machine.execFill p x a w c s
  | .copy p d x a c => Sys2Proof.Machine.execCopy p d x a c s
  | .fillCopyStart p => Sys2Proof.Machine.execFillCopyStart p s
  | .hopen p k x a c => Sys2Proof.Machine.execHopen p k x a c s
  | .hclose p k => Sys2Proof.Machine.execHclose p k s
  | .hput p w a c => Sys2Proof.Machine.execHput p w a c s
  | .pfence p => Sys2Proof.Machine.execPfence p s
  | .dload p x rows width mx => Sys2Proof.Machine.execDload p x rows width mx s
  | .swap p => Sys2Proof.Machine.execSwap p s
  | .mma p bank clear j0 n => Sys2Proof.Machine.execMma p bank clear j0 n s
  | .drain p bank form neg mask toPantry x => Sys2Proof.Machine.execDrain p bank form neg mask toPantry x s
  | .seteacc p v => Sys2Proof.Machine.execSeteacc p v s
  | .setfmt p v => Sys2Proof.Machine.execSetfmt p v s
  | .vst p w x inc pg imm => Sys2Proof.Machine.execVst p w x inc pg imm s
  | .sst p a x inc imm => Sys2Proof.Machine.execSst p a x inc imm s
  | .matrixHandover p => Sys2Proof.Machine.execMatrixHandover p s
  | .swapExecute p => Sys2Proof.Machine.execSwapExecute p s
  | .dloadBegin p => Sys2Proof.Machine.execDloadBegin p s
  | .dloadComplete p => Sys2Proof.Machine.execDloadComplete p s
  | .matrixStepStart p => Sys2Proof.Machine.execMatrixStepStart p s
  | .matrixStepWrite p => Sys2Proof.Machine.execMatrixStepWrite p s
  | .drainRowRead p => Sys2Proof.Machine.execDrainRowRead p s
  | .drainRowDeliver p => Sys2Proof.Machine.execDrainRowDeliver p s
  | .vadd p t d a c pg => Sys2Proof.Machine.execVadd p t d a c pg s
  | .vsub p t d a c pg => Sys2Proof.Machine.execVsub p t d a c pg s
  | .vmul p t d a c pg => Sys2Proof.Machine.execVmul p t d a c pg s
  | .vfma p t d a c pg => Sys2Proof.Machine.execVfma p t d a c pg s
  | .vmax p t d a c pg => Sys2Proof.Machine.execVmax p t d a c pg s
  | .vmin p t d a c pg => Sys2Proof.Machine.execVmin p t d a c pg s
  | .vabs p t d a pg => Sys2Proof.Machine.execVabs p t d a pg s
  | .vneg p t d a pg => Sys2Proof.Machine.execVneg p t d a pg s
  | .vand p d a c pg => Sys2Proof.Machine.execVand p d a c pg s
  | .vor p d a c pg => Sys2Proof.Machine.execVor p d a c pg s
  | .vxor p d a c pg => Sys2Proof.Machine.execVxor p d a c pg s
  | .vshl p d a c pg => Sys2Proof.Machine.execVshl p d a c pg s
  | .vshr p arith d a c pg => Sys2Proof.Machine.execVshr p arith d a c pg s
  | .vcmp p t q a c pg code => Sys2Proof.Machine.execVcmp p t q a c pg code s
  | .vsel p d a c pg => Sys2Proof.Machine.execVsel p d a c pg s
  | .vbcs p d a pg => Sys2Proof.Machine.execVbcs p d a pg s
  | .vlane p d a lane => Sys2Proof.Machine.execVlane p d a lane s
  | .vred p t op d a pg => Sys2Proof.Machine.execVred p t op d a pg s
  | .vcvt p src dst d a pg => Sys2Proof.Machine.execVcvt p src dst d a pg s
  | .vrq p d a mult ctl half => Sys2Proof.Machine.execVrq p d a mult ctl half s
  | .vfq p d a pg fmt mode => Sys2Proof.Machine.execVfq p d a pg fmt mode s
  | .vmxq p d a x fmt mode => Sys2Proof.Machine.execVmxq p d a x fmt mode s
  | .vpack p d a pg fmt word half => Sys2Proof.Machine.execVpack p d a pg fmt word half s
  | .vexp2 p d a pg => Sys2Proof.Machine.execVexp2 p d a pg s
  | .vlog2 p d a pg => Sys2Proof.Machine.execVlog2 p d a pg s
  | .vrcp p d a pg => Sys2Proof.Machine.execVrcp p d a pg s
  | .vrsqrt p d a pg => Sys2Proof.Machine.execVrsqrt p d a pg s
  | .vexp p d a pg => Sys2Proof.Machine.execVexp p d a pg s
  | .vsigm p d a pg => Sys2Proof.Machine.execVsigm p d a pg s
  | .vtanh p d a pg => Sys2Proof.Machine.execVtanh p d a pg s
  | .v72add p d a c pg => Sys2Proof.Machine.execV72add p d a c pg s
  | .v72cvt p d a x pg form => Sys2Proof.Machine.execV72cvt p d a x pg form s
  | .vfixsum p d a x pg => Sys2Proof.Machine.execVfixsum p d a x pg s
  | .vexpmax p d a => Sys2Proof.Machine.execVexpmax p d a s
  | .vwld p d pg => Sys2Proof.Machine.execVwld p d pg s
  | .vpop p d pg => Sys2Proof.Machine.execVpop p d pg s
  | .coreDmaItemStart p => Sys2Proof.Machine.execCoreDmaItemStart p s
  | .coreDmaItemComplete p id => Sys2Proof.Machine.execCoreDmaItemComplete p id s
  | .hatchArrival n => Sys2Proof.Machine.execHatchArrival n s
  | .hatchAnswer n => Sys2Proof.Machine.execHatchAnswer n s
  | .hatchNotice n => Sys2Proof.Machine.execHatchNotice n s
  | .hatchCloseReply p key => Sys2Proof.Machine.execHatchCloseReply p key s
  | .arrivalWrite p => Sys2Proof.Machine.execArrivalWrite p s
  | .scrubUnit p => Sys2Proof.Machine.execScrubUnit p s
  | .scrubWriteBack p => Sys2Proof.Machine.execScrubWriteBack p s
  | .loftScrubUnit slice => Sys2Proof.Machine.execLoftScrubUnit slice s
  | .granulePowerDown p k => Sys2Proof.Machine.execGranulePowerDown p k s
  | .granuleClearDone p k => Sys2Proof.Machine.execGranuleClearDone p k s
  | .loftRequest p id => Sys2Proof.Machine.execLoftRequest p id s
  | .loftCacheFill n => Sys2Proof.Machine.execLoftCacheFill n s
  | .loftInvPartition part => Sys2Proof.Machine.execLoftInvPartition part s
  | .loftInvRange part => Sys2Proof.Machine.execLoftInvRange part s
  | .loftInvDone n => Sys2Proof.Machine.execLoftInvDone n s
  | .loftWayClearDone way => Sys2Proof.Machine.execLoftWayClearDone way s
  | .cellarSpill part cycles => Sys2Proof.Machine.execCellarSpill part cycles s
  | .cellarRestore part images cycles => Sys2Proof.Machine.execCellarRestore part images cycles s
  | .gatherJobAccept p id => Sys2Proof.Machine.execGatherJobAccept p id s
  | .gatherJobStart gu part => Sys2Proof.Machine.execGatherJobStart gu part s
  | .gatherRowReturn gu p dma k => Sys2Proof.Machine.execGatherRowReturn gu p dma k s
  | .gatherOutputWrite gu p dma n => Sys2Proof.Machine.execGatherOutputWrite gu p dma n s
  | .gatherStatusWrite gu p dma => Sys2Proof.Machine.execGatherStatusWrite gu p dma s
  | .gatherJobCancel gu p dma => Sys2Proof.Machine.execGatherJobCancel gu p dma s
  | .lpiLine port data ending => Sys2Proof.Machine.execLpiLine port data ending s
  | .lpiFrameStart port data ending => Sys2Proof.Machine.execLpiFrameStart port data ending s
  | .lpiFrameEnd port data ending => Sys2Proof.Machine.execLpiFrameEnd port data ending s
  | .positionResolve stream => Sys2Proof.Machine.execPositionResolve stream s
  | .positionDeadline stream => Sys2Proof.Machine.execPositionDeadline stream s
  | .streamUdpPacket link data ts => Sys2Proof.Machine.execStreamUdpPacket link data ts s
  | .dbTailWrite queue t => Sys2Proof.Machine.execDbTailWrite queue t s
  | .dbRecHeadWrite queue v cls => Sys2Proof.Machine.execDbRecHeadWrite queue v cls s
  | .ctxCreate desc => Sys2Proof.Machine.execCtxCreate desc s
  | .ctxDestroy => Sys2Proof.Machine.execCtxDestroy s
  | .queueCreate desc => Sys2Proof.Machine.execQueueCreate desc s
  | .queueDestroy => Sys2Proof.Machine.execQueueDestroy s
  | .ctxEvict => Sys2Proof.Machine.execCtxEvict s
  | .cmdNop queue pkt => Sys2Proof.Machine.execCmdNop queue pkt s
  | .launch queue pkt more kdesc => Sys2Proof.Machine.execLaunch queue pkt more kdesc s
  | .cmdWait queue pkt fence => Sys2Proof.Machine.execCmdWait queue pkt fence s
  | .signal queue pkt => Sys2Proof.Machine.execSignal queue pkt s
  | .gate queue pkt => Sys2Proof.Machine.execGate queue pkt s
  | .cond queue pkt value => Sys2Proof.Machine.execCond queue pkt value s
  | .cmdLoop queue pkt count rest => Sys2Proof.Machine.execCmdLoop queue pkt count rest s
  | .call queue pkt => Sys2Proof.Machine.execCall queue pkt s
  | .cmdReturn queue pkt => Sys2Proof.Machine.execCmdReturn queue pkt s
  | .dma queue pkt desc => Sys2Proof.Machine.execDma queue pkt desc s
  | .cacheInv queue pkt => Sys2Proof.Machine.execCacheInv queue pkt s
  | .hatchOpen queue pkt => Sys2Proof.Machine.execHatchOpen queue pkt s
  | .hatchClose queue pkt => Sys2Proof.Machine.execHatchClose queue pkt s
  | .timestamp queue pkt => Sys2Proof.Machine.execTimestamp queue pkt s
  | .batch queue pkt desc table => Sys2Proof.Machine.execBatch queue pkt desc table s
  | .batchStepDone queue => Sys2Proof.Machine.execBatchStepDone queue s
  | .waitPoll queue fence => Sys2Proof.Machine.execWaitPoll queue fence s
  | .kernelSelect part => Sys2Proof.Machine.execKernelSelect part s
  | .contextSwitch part code cycles => Sys2Proof.Machine.execContextSwitch part code cycles s
  | .kernelStart part => Sys2Proof.Machine.execKernelStart part s
  | .kernelEnd part => Sys2Proof.Machine.execKernelEnd part s
  | .recordWrite queue => Sys2Proof.Machine.execRecordWrite queue s
  | .planRun queue => Sys2Proof.Machine.execPlanRun queue s
  | .addressTranslate asker => Sys2Proof.Machine.execAddressTranslate asker s
  | .walkReadReturn port tag data poison err => Sys2Proof.Machine.execWalkReadReturn port tag data poison err s
  | .faultRecordWrite n => Sys2Proof.Machine.execFaultRecordWrite n s
  | .faultHeadWrite v => Sys2Proof.Machine.execFaultHeadWrite v s
  | .ctxResume ctx => Sys2Proof.Machine.execCtxResume ctx s
  | .ctxKill ctx => Sys2Proof.Machine.execCtxKill ctx s
  | .tbInvContext ctx => Sys2Proof.Machine.execTbInvContext ctx s
  | .tbInvRange ctx => Sys2Proof.Machine.execTbInvRange ctx s
  | .tbInvAll => Sys2Proof.Machine.execTbInvAll s
  | .tbInvDone => Sys2Proof.Machine.execTbInvDone s
  | .kfpReadResponse port tag beat data poison last err => Sys2Proof.Machine.execKfpReadResponse port tag beat data poison last err s
  | .kfpWriteResponse port tag err => Sys2Proof.Machine.execKfpWriteResponse port tag err s
  | .engineDmaStart => Sys2Proof.Machine.execEngineDmaStart s
  | .engineDmaComplete channel => Sys2Proof.Machine.execEngineDmaComplete channel s
  | .registerWrite offset be v cls => Sys2Proof.Machine.execRegisterWrite offset be v cls s
  | .pairLoRead offset be cls => Sys2Proof.Machine.execPairLoRead offset be cls s
  | .pairHiWrite offset v cls => Sys2Proof.Machine.execPairHiWrite offset v cls s
  | .abiReqWrite v => Sys2Proof.Machine.execAbiReqWrite v s
  | .commitGo at_ => Sys2Proof.Machine.execCommitGo at_ s
  | .commitRevert => Sys2Proof.Machine.execCommitRevert s
  | .commitEffect => Sys2Proof.Machine.execCommitEffect s
  | .ctxRst ctx => Sys2Proof.Machine.execCtxRst ctx s
  | .contextResetEnd ctx => Sys2Proof.Machine.execContextResetEnd ctx s
  | .generationIncrement ctx => Sys2Proof.Machine.execGenerationIncrement ctx s
  | .engRst key => Sys2Proof.Machine.execEngRst key s
  | .engineResetPhaseEnd findings testEn us => Sys2Proof.Machine.execEngineResetPhaseEnd findings testEn us s
  | .coreRetire p => Sys2Proof.Machine.execCoreRetire p s
  | .kittySubstituted p cycles => Sys2Proof.Machine.execKittySubstituted p cycles s
  | .donorMove p cycles => Sys2Proof.Machine.execDonorMove p cycles s
  | .elogSave => Sys2Proof.Machine.execElogSave s
  | .elogDataRead => Sys2Proof.Machine.execElogDataRead s
  | .dumpDataRead => Sys2Proof.Machine.execDumpDataRead s
  | .dumpRearm => Sys2Proof.Machine.execDumpRearm s
  | .dealerTick => Sys2Proof.Machine.execDealerTick s
  | .dealerStart => Sys2Proof.Machine.execDealerStart s
  | .incrWrite v => Sys2Proof.Machine.execIncrWrite v s
  | .adjStep delta => Sys2Proof.Machine.execAdjStep delta s
  | .timeLoad => Sys2Proof.Machine.execTimeLoad s
  | .timeSourceWrite v => Sys2Proof.Machine.execTimeSourceWrite v s
  | .ppsInEdge => Sys2Proof.Machine.execPpsInEdge s
  | .stampRead => Sys2Proof.Machine.execStampRead s
  | .epochBoundary g mirror => Sys2Proof.Machine.execEpochBoundary g mirror s
  | .fsyncPulse output => Sys2Proof.Machine.execFsyncPulse output s
  | .ppsOutEdge => Sys2Proof.Machine.execPpsOutEdge s
  | .unseal operator reason permit verify => Sys2Proof.Machine.execUnseal operator reason permit verify s
  | .seal verify => Sys2Proof.Machine.execSeal verify s
  | .sealTimeout verify => Sys2Proof.Machine.execSealTimeout verify s
  | .calWrite offset v => Sys2Proof.Machine.execCalWrite offset v s
  | .refusedSummary => Sys2Proof.Machine.execRefusedSummary s
  | .ledgerDataRead => Sys2Proof.Machine.execLedgerDataRead s
  | .dclkMonitor bad => Sys2Proof.Machine.execDclkMonitor bad s
  | .rxFrame link data fcsOk ts fec descs => Sys2Proof.Machine.execRxFrame link data fcsOk ts fec descs s
  | .txFrame link ts => Sys2Proof.Machine.execTxFrame link ts s
  | .txrTailWrite link ring v => Sys2Proof.Machine.execTxrTailWrite link ring v s
  | .rxrTailWrite link v => Sys2Proof.Machine.execRxrTailWrite link v s
  | .txDescriptor link ring desc buf => Sys2Proof.Machine.execTxDescriptor link ring desc buf s
  | .linkDown link block aligned fec => Sys2Proof.Machine.execLinkDown link block aligned fec s
  | .linkUp link => Sys2Proof.Machine.execLinkUp link s
  | .gclEntryAdvance link => Sys2Proof.Machine.execGclEntryAdvance link s
  | .asSyncSend link => Sys2Proof.Machine.execAsSyncSend link s
  | .asAnnounceSend link => Sys2Proof.Machine.execAsAnnounceSend link s
  | .asPdelaySend link => Sys2Proof.Machine.execAsPdelaySend link s
  | .asMessageReceive link => Sys2Proof.Machine.execAsMessageReceive link s
  | .htpOpen => Sys2Proof.Machine.execHtpOpen s
  | .htpOpenAck => Sys2Proof.Machine.execHtpOpenAck s
  | .htpAck => Sys2Proof.Machine.execHtpAck s
  | .htpData => Sys2Proof.Machine.execHtpData s
  | .htpAnswer => Sys2Proof.Machine.execHtpAnswer s
  | .htpNotice => Sys2Proof.Machine.execHtpNotice s
  | .htpNoticeReply => Sys2Proof.Machine.execHtpNoticeReply s
  | .mirror entry => Sys2Proof.Machine.execMirror entry s
  | .mirrorCommit table => Sys2Proof.Machine.execMirrorCommit table s
  | .heartbeat => Sys2Proof.Machine.execHeartbeat s
  | .cutArrive => Sys2Proof.Machine.execCutArrive s
  | .opDesire => Sys2Proof.Machine.execOpDesire s
  | .opPropose => Sys2Proof.Machine.execOpPropose s
  | .opReady => Sys2Proof.Machine.execOpReady s
  | .opConfirm => Sys2Proof.Machine.execOpConfirm s
  | .opAlert => Sys2Proof.Machine.execOpAlert s
  | .htpOpenTimer => Sys2Proof.Machine.execHtpOpenTimer s
  | .htpAckTimer => Sys2Proof.Machine.execHtpAckTimer s
  | .htpRtoExpiry => Sys2Proof.Machine.execHtpRtoExpiry s
  | .takeoverWrite => Sys2Proof.Machine.execTakeoverWrite s
  | .cutPtnRelease part barrier => Sys2Proof.Machine.execCutPtnRelease part barrier s
  | .injEnable link v => Sys2Proof.Machine.execInjEnable link v s
  | .jokerSegmentStart logical => Sys2Proof.Machine.execJokerSegmentStart logical s
  | .jokerSegmentEnd logical flip => Sys2Proof.Machine.execJokerSegmentEnd logical flip s
  | .redealCopyStart part => Sys2Proof.Machine.execRedealCopyStart part s
  | .redealCompare part => Sys2Proof.Machine.execRedealCompare part s
  | .classAReaction code detail => Sys2Proof.Machine.execClassAReaction code detail s
  | .safetyRingWrite verdict => Sys2Proof.Machine.execSafetyRingWrite verdict s
  | .safetyRingHeadWrite verdict v => Sys2Proof.Machine.execSafetyRingHeadWrite verdict v s
  | .verdictWrite part => Sys2Proof.Machine.execVerdictWrite part s
  | .safeErrToggle => Sys2Proof.Machine.execSafeErrToggle s
  | .safeErrReadbackFail => Sys2Proof.Machine.execSafeErrReadbackFail s
  | .latentFaultCheck results us ended => Sys2Proof.Machine.execLatentFaultCheck results us ended s
  | .injectJoker target segment => Sys2Proof.Machine.execInjectJoker target segment s
  | .injectRedeal part => Sys2Proof.Machine.execInjectRedeal part s
  | .injectAge slot => Sys2Proof.Machine.execInjectAge slot s
  | .injectClassA => Sys2Proof.Machine.execInjectClassA s
  | .powerEstimate events => Sys2Proof.Machine.execPowerEstimate events s
  | .opChange => Sys2Proof.Machine.execOpChange s
  | .pwrAck level => Sys2Proof.Machine.execPwrAck level s
  | .pwrAckTimeout => Sys2Proof.Machine.execPwrAckTimeout s
  | .pwrAlert => Sys2Proof.Machine.execPwrAlert s
  | .alertRelease => Sys2Proof.Machine.execAlertRelease s
  | .thermalSample temps => Sys2Proof.Machine.execThermalSample temps s
  | .droopDetect => Sys2Proof.Machine.execDroopDetect s
  | .droopStretchEnd => Sys2Proof.Machine.execDroopStretchEnd s
  | .ageingCheck low => Sys2Proof.Machine.execAgeingCheck low s
  | .learnClear => Sys2Proof.Machine.execLearnClear s
  | .domainPowerUpDone domain => Sys2Proof.Machine.execDomainPowerUpDone domain s
  | .storeOpen kind busy => Sys2Proof.Machine.execStoreOpen kind busy s
  | .storeChunk index busy verify => Sys2Proof.Machine.execStoreChunk index busy verify s
  | .storeClose busy verify => Sys2Proof.Machine.execStoreClose busy verify s
  | .storeAbort busy => Sys2Proof.Machine.execStoreAbort busy s
  | .stageWrite word v running => Sys2Proof.Machine.execStageWrite word v running s
  | .engineStore kind verify => Sys2Proof.Machine.execEngineStore kind verify s
  | .bootPhaseEnd us => Sys2Proof.Machine.execBootPhaseEnd us s
  | .imageFetchDone image wrote => Sys2Proof.Machine.execImageFetchDone image wrote s
  | .irqMessage => Sys2Proof.Machine.execIrqMessage s
  | .irqTest vector => Sys2Proof.Machine.execIrqTest vector s
  | .aonPwrgdRise => Sys2Proof.Machine.execAonPwrgdRise s
  | .aonPwrgdFall => Sys2Proof.Machine.execAonPwrgdFall s
  | .pwrGoodRise testEn => Sys2Proof.Machine.execPwrGoodRise testEn s
  | .pwrGoodFall => Sys2Proof.Machine.execPwrGoodFall s
  | .engRstNAssert => Sys2Proof.Machine.execEngRstNAssert s
  | .engRstNDeassert => Sys2Proof.Machine.execEngRstNDeassert s
  | .dlrRstNAssert => Sys2Proof.Machine.execDlrRstNAssert s
  | .testWrapperUpdate update => Sys2Proof.Machine.execTestWrapperUpdate update s
  | .testWrapperReset => Sys2Proof.Machine.execTestWrapperReset s
  | .bitError target => Sys2Proof.Machine.execBitError target s
  | .bubbleFrameStart part => Sys2Proof.Machine.execBubbleFrameStart part s
  | .reorderHoldExpiry link receive desc => Sys2Proof.Machine.execReorderHoldExpiry link receive desc s

end Sys2Proof.Machine
end

