-- ==== Sys2Proof/Safety.lean ====
section
/-!
DEFINITION. What a safe run of the engine is, and the terms in which the statements speak of a bundle at issue.
-/
namespace Sys2Proof.Machine

open Sys2Proof

/-- The memory of a state is in its canonical form. -/
def State.memWf (s : State) : Prop := s.mem.wf = true

/-- A state from which the next step does not stop. -/
def State.goesOn (s : State) : Prop := ∃ t, step s = .next t

/-- The state with other hardware. -/
def State.withHw (s : State) (h : Hw) : State := { s with hw := h }

/-! ### A bundle at issue (05_core_program.md R171 to R174) -/

/-- What core `p` held before the bundle at issue: what its syllables read (R172). -/
def State.before (s : State) (p : Nat) : CoreBody := s.hw.body p

/-- What core `p` holds with the effects of the syllables that have come. -/
def State.sofar (s : State) (p : Nat) : CoreBody := (s.hw.core p).body

/-- The bundle at issue on core `p`; an empty one when no syllable has come. -/
def State.atIssue (s : State) (p : Nat) : Bundle := (s.hw.core p).bundle.getD (Bundle.start (s.hw.core p).body)

/-- Slot `k` is the next slot of the bundle at issue on core `p`: the core issues and is in no hold cycle, and slot 0
comes after the work that its units have in this cycle (R171 to R174). -/
def State.slotNext (s : State) (p k : Nat) : Prop :=
  s.hw.held p = false ∧ (k = 0 → s.hw.issueHeld p = false) ∧ (s.sofar p).canIssue = true ∧ (s.atIssue p).next = k

/-- The state after a syllable has joined the bundle at issue on core `p`: `b` is the core with its effect, and `y` is
what it asks of issue. Everything but core `p` is as it was, and what the core held before the bundle stays with it. -/
def State.join (s : State) (p : Nat) (b : CoreBody) (y : Syl) : State :=
  s.withHw (s.hw.setCore p ⟨b, some ((s.atIssue p).add y)⟩)

/-- Slot 3 is next, and the bundle with the syllable `y` in slot 3 stalls, waits and traps on nothing: it issues (R172,
R173, R213). -/
def State.closes (s : State) (p : Nat) (y : Syl) : Prop :=
  s.slotNext p 3 ∧ ((s.atIssue p).add y).ending = .issues

/-- The state that an effect leaves. -/
def State.after (s : State) (e : Eff) : State := { s with hw := e.hw, mem := s.mem.applyAll e.wr }

/-- The state after the bundle has issued with `y` in slot 3, where `b` is the core with all four effects: results are
in the scoreboard, control goes where the bundle asks, one more bundle has retired and the cycle has ended, with what the
bundle sends out (R172 to R177, R219). -/
def State.issued (s : State) (p : Nat) (b : CoreBody) (y : Syl) : State :=
  let d := (s.atIssue p).add y
  let n := flow { b with ready := markReady d.before.cycle d.dests b.ready } d.transfer
  let n := { n with
    cycle := d.before.cycle + 1, retired := n.retired + 1, waitInfo := 0, waitThresh := 0, dmaStop := false
    run := if d.outs.contains .halted then .idle else .issuing }
  s.after ((Eff.start (s.hw.setCore p ⟨n, none⟩) s.mem).bundleEnded p (s.before p) (d.early ++ d.outs))

/-- The lanes of Vd that the predicate turns on take what `f` gives them, the others keep what Vd held before the bundle,
and the flags of the lanes turned on are set (R202). -/
def CoreBody.laneWrite (n b : CoreBody) (d pg : Nat) (f : Nat → Lane) : CoreBody :=
  { n.setV d (Vec.tab fun i => if (b.pr pg).getLsbD i then (f i).1 else (b.vr d).lane i) with
    arith := n.arith ||| (List.range 64).foldl (fun acc i => if (b.pr pg).getLsbD i then acc ||| (f i).2 else acc) 0 }

/-- What a syllable that writes Vd under a predicate reads: under another predicate than P0 it reads the predicate and
Vd too (R202). -/
def maskedSrcs (d pg : Nat) (srcs : List Nat) : List Nat := srcs ++ if pg = 0 then [] else [keyP pg, keyV d]

/-- No command of a bundle is between its syllables on core `p`, and the core is in no hold cycle and stands still at no
barrier: its units may act. -/
def State.unitFree (s : State) (p : Nat) : Prop :=
  s.hw.held p = false ∧ s.hw.between p = true ∧ s.hw.cutHolds p = false

/-- The state in which core `p`, between bundles, holds `b`. -/
def State.withBody (s : State) (p : Nat) (b : CoreBody) : State := s.withHw (s.hw.setCore p ⟨b, none⟩)

/-! ### Frames -/

/-- No core and no byte of the on-chip memory changes from `s` to `t`. -/
def State.quiet (s t : State) : Prop := t.mem = s.mem ∧ t.hw.cores = s.hw.cores

/-- No other core than `p` changes from `s` to `t`. -/
def State.onlyCore (s t : State) (p : Nat) : Prop := ∀ q, q ≠ p → t.hw.core q = s.hw.core q

/-- The writes of whole Pantry words through a slot that one cycle gathers, with the poison of each (06 R222, R223). -/
def slotPieces (slot a : Nat) (bs : List Byte) (poison : List Bool) : List PantryWrite :=
  (List.range (bs.length / 32)).map fun i => ⟨slot, a + 32 * i, (bs.drop (32 * i)).take 32, poison.getD i false⟩

/-- The state once the conditions that the engine's own counters decide have been evaluated again (08 R324). -/
def State.rechecked (s : State) : State := s.withHw s.hw.recheckAll

/-- From `s` to `t` the bytes at `a` become `bs`, and no other byte of the on-chip memory changes. -/
def State.putsBytes (s t : State) (a : Nat) (bs : List Byte) : Prop :=
  (∀ i (h : i < bs.length), t.mem.byte (a + i) = bs[i]) ∧
  (∀ g, (g < a ∨ a + bs.length ≤ g) → t.mem.byte g = s.mem.byte g)

/-- No register changes from `s` to `t` but those at the offsets `os`. -/
def State.onlyRegs (s t : State) (os : List Nat) : Prop := ∀ o, o ∉ os → t.hw.reg o = s.hw.reg o

/-! ### The front end of a queue (08_caller_and_queues.md R312 to R317) -/

/-- The front end of queue `q`, in state `x`, may take the command whose first packet is `p`: nothing holds or skips it, no
loop is open, its packets are there, its header is valid and its opcode defined, it carries neither ORDERED nor QUIET,
and items that exist have lower numbers than the next one. -/
def State.takes (s : State) (q : Nat) (x : Queue) (p : List Byte) : Prop :=
  s.hw.mayStart q = some x ∧ x.hold = none ∧ x.holdItem = none ∧ x.skip = 0 ∧ x.loops = [] ∧ x.plan = none ∧
  p.length = 64 ∧ zeroAt p 3 5 = true ∧ leField p 1 1 < 32 ∧ leField p 1 1 % 16 ≤ s.hw.minorOf x ∧
  opDefined x.major (leField p 1 1 % 16) (leField p 0 1) = true ∧ leField p 2 1 = packetsOf p ∧
  packetsOf p ≤ x.avail ∧ ∀ i ∈ s.hw.caller.items, i.id < s.hw.caller.nextItem

/-- Item `i` has completed with a status and DETAIL, for a command of queue `q` with a tag. -/
def State.finished (t : State) (i q : Nat) (tag : DWord) (st : Status) (detail : Word) : Prop :=
  ∃ r, t.hw.item? i = some r ∧ r.queue = q ∧ r.tag = tag ∧ r.state = .done ∧ r.status = st ∧ r.detail = detail

/-- The front end of queue `q` is free again, in its ring, `n` packets behind frame `f`. -/
def State.behind (t : State) (q : Nat) (f : Frame) (n : Nat) : Prop :=
  ∃ y g, t.hw.queue? q = some y ∧ y.hold = none ∧ y.holdItem = none ∧ y.frames = [g] ∧ g.pos = (f.pos + n) % 2 ^ 32 ∧
    y.head = BitVec.ofNat 32 g.pos

/-- Item `i` holds the front end of queue `q` with a condition. -/
def State.holding (t : State) (q i : Nat) (h : Hold) : Prop :=
  ∃ y r, t.hw.queue? q = some y ∧ y.hold = some h ∧ y.holdItem = some i ∧ t.hw.item? i = some r ∧ r.queue = q ∧
    r.state = .waiting

/-- A register of saturating count rises by one. -/
def State.counts (s t : State) (o : Nat) : Prop :=
  (t.hw.reg o).toNat = min (2 ^ 32 - 1) ((s.hw.reg o).toNat + 1)

/-- From `s` to `t` one entry is appended to the Ledger, with a kind and two arguments (10_dealer_time_base.md R426). -/
def State.logged (s t : State) (kind arg0 arg1 : Nat) : Prop :=
  t.hw.dealer.ledgerSeq = s.hw.dealer.ledgerSeq + 1 ∧
  ∃ e, t.hw.dealer.ledger.head? = some e ∧ leField e 0 4 = s.hw.dealer.ledgerSeq.toNat ∧ leField e 4 1 = kind ∧
    leField e 16 4 = arg0 % 2 ^ 32 ∧ leField e 20 4 = arg1 % 2 ^ 32

/-- No word of [a, a + n) has an error or is marked poisoned (06_pantry_loft_gather.md R228). -/
def Memory.cleanAt (m : Memory) (a n : Nat) : Prop := ∀ st : WState, st ≠ .clean → m.countState a n st = 0

/-- The register port serves the register at an offset (16_boundary_and_register_map.md R610). -/
def State.serves (s : State) (o : Nat) : Prop := s.hw.served o = true

end Sys2Proof.Machine
end

