-- ==== Sys2Proof/WellFormed.lean ====
section
/-!
DEFINITION. When a command's operands have the widths that the interfaces give them: packets, descriptors and beats of 64
bytes, tags of 11 bits, LPI packets of whole beats, one sample for each sensor, one set of events for each partition and
the uncore. The types of the operands check every other range.
-/
namespace Sys2Proof

/-- An answer, if it is data, has `n` bytes. -/
def MemAnswer.sized (n : Nat) : MemAnswer → Bool
  | .data bs => bs.length == n
  | _ => true

/-- Whether a command's operands have their widths (08 R309, R314; 09 R389; 07 R276; 14 R556, R562; 11 R438). -/
def Instr.wf : Instr → Bool
  | .ctxCreate d => d.sized 64
  | .queueCreate d => d.sized 64
  | .cmdNop _ p => p.sized 64
  | .launch _ p _ d => p.sized 64 && d.sized 64
  | .cmdWait _ p _ => p.sized 64
  | .signal _ p => p.sized 64
  | .gate _ p => p.sized 64
  | .cond _ p _ => p.sized 64
  | .cmdLoop _ p _ _ => p.sized 64
  | .call _ p => p.sized 64
  | .cmdReturn _ p => p.sized 64
  | .dma _ p d => p.sized 64 && d.sized 64
  | .cacheInv _ p => p.sized 64
  | .hatchOpen _ p => p.sized 64
  | .hatchClose _ p => p.sized 64
  | .timestamp _ p => p.sized 64
  | .batch _ p d _ => p.sized 64 && d.sized 64
  | .walkReadReturn _ tag data _ _ => decide (tag < 2048) && data.length == 64
  | .kfpReadResponse _ tag _ data _ _ _ => decide (tag < 2048) && data.length == 64
  | .kfpWriteResponse _ tag _ => decide (tag < 2048)
  | .lpiLine _ d _ => d.length % 16 == 0
  | .lpiFrameStart _ d _ => d.length % 16 == 0
  | .lpiFrameEnd _ d _ => d.length % 16 == 0
  | .thermalSample ts => ts.length == 17
  | .powerEstimate es => es.length == 17
  | .txDescriptor _ _ d _ => d.length == 32
  | _ => true

end Sys2Proof
end

