-- ==== Sys2Proof/Certificates/Slice0/Obligations.lean ====
section
/-!
DEFINITION. The statements about the engine, family by family of the command table.
-/

open Sys2Proof Sys2Proof.Machine

/-! ### Every command -/

/-- A step takes the command at the front of the queue and does what it does to everything but the queue; with no command
waiting the block idles (log entry 2). -/
def Obligations.StepTakesTheFront : Prop :=
  ∀ (s : State) (c : Instr) (rest : List Instr),
    step { s with pending := c :: rest } = exec c { s with pending := rest } ∧
    (s.pending = [] → step s = .next s)

/-- Every command, in every state, goes on to a next state with the same queue: none ends in a fault or a refusal. -/
def Obligations.EveryCommandGoesOn : Prop :=
  ∀ (c : Instr) (s : State), ∃ t, exec c s = .next t ∧ t.pending = s.pending

/-- 06 R228: every step of every command keeps the on-chip memory in its canonical form. -/
def Obligations.MemoryKeepsItsForm : Prop :=
  ∀ (s t : State), s.memWf → step s = .next t → t.memWf

/-- 16 R616, R617: right after reset no command waits, the block has no power, every register reads as its reset value,
the on-chip memory reads zero and lists nothing (log entries 3 and 4), and no core holds a bundle. -/
def Obligations.ResetState : Prop :=
  State.reset.pending = [] ∧ State.reset.memWf ∧ State.reset.hw.boot.aon = false ∧ State.reset.hw.boot.good = false ∧
  (∀ o, State.reset.hw.reg o = regReset o ∧ State.reset.hw.shadowReg o = regReset o) ∧
  (∀ a, State.reset.mem.byte a = 0 ∧ State.reset.mem.state a = .clean) ∧
  (∀ p, (State.reset.hw.core p).bundle = none) ∧ State.reset.hw.outs = []

/-! ### Slot 0 (05_core_program.md R170, R175 to R185) -/

/-- R175: the register-register arithmetic of slot 0. The syllable joins the bundle at issue with Sd ← Sa op Sb,
read from what the core held before the bundle; MUL has latency 3. R170, R175: the immediate forms of slot 0. An
imm14 is sign-extended; a shift takes its low five bits, and the other bits of its imm14 are zero: a non-zero
one raises ILLEGAL_ENCODING; LI sign-extends imm16; LUI replaces the upper half of Sd and keeps the lower. -/
def Obligations.ScalarArithmetic : Prop :=
  (∀ (s : State) (p : CoreIx) (d a c : Fin 32), s.slotNext p 0 →
    let x := (s.before p).sr a
    let y := (s.before p).sr c
    let one (lat : Nat) (v : Word) : Host.Outcome State Fault Refusal :=
      .next (s.join p ((s.sofar p).setS d v) { srcs := [keyS a, keyS c], dests := [(keyS d, lat)] })
    exec (.add p d a c) s = one 1 (x + y) ∧ exec (.sub p d a c) s = one 1 (x - y) ∧
    exec (.and p d a c) s = one 1 (x &&& y) ∧ exec (.or p d a c) s = one 1 (x ||| y) ∧
    exec (.xor p d a c) s = one 1 (x ^^^ y) ∧
    exec (.shl p d a c) s = one 1 (x <<< (y.toNat % 32)) ∧
    exec (.shr p d a c) s = one 1 (x >>> (y.toNat % 32)) ∧
    exec (.sra p d a c) s = one 1 (x.sshiftRight (y.toNat % 32)) ∧
    exec (.mul p d a c) s = one 3 (x * y) ∧
    exec (.min p d a c) s = one 1 (if x.toInt ≤ y.toInt then x else y) ∧
    exec (.max p d a c) s = one 1 (if x.toInt ≤ y.toInt then y else x) ∧
    exec (.minu p d a c) s = one 1 (if x.toNat ≤ y.toNat then x else y) ∧
    exec (.maxu p d a c) s = one 1 (if x.toNat ≤ y.toNat then y else x)) ∧
  (∀ (s : State) (p : CoreIx) (d a : Fin 32) (imm : BitVec 14) (imm16 : BitVec 16), s.slotNext p 0 →
    let x := (s.before p).sr a
    let one (v : Word) : Host.Outcome State Fault Refusal :=
      .next (s.join p ((s.sofar p).setS d v) { srcs := [keyS a], dests := [(keyS d, 1)] })
    exec (.addi p d a imm) s = one (x + imm.signExtend 32) ∧
    exec (.andi p d a imm) s = one (x &&& imm.signExtend 32) ∧
    exec (.ori p d a imm) s = one (x ||| imm.signExtend 32) ∧
    exec (.xori p d a imm) s = one (x ^^^ imm.signExtend 32) ∧
    (imm.toNat < 32 →
      exec (.shli p d a imm) s = one (x <<< (imm.extractLsb' 0 5).toNat) ∧
      exec (.shri p d a imm) s = one (x >>> (imm.extractLsb' 0 5).toNat) ∧
      exec (.srai p d a imm) s = one (x.sshiftRight (imm.extractLsb' 0 5).toNat)) ∧
    (32 ≤ imm.toNat → ∀ i ∈ [Instr.shli p d a imm, .shri p d a imm, .srai p d a imm],
      exec i s = .next (s.join p (s.sofar p) { traps := [(trapIllegal, 0)] })) ∧
    exec (.li p d imm16) s =
      .next (s.join p ((s.sofar p).setS d (imm16.signExtend 32)) { dests := [(keyS d, 1)] }) ∧
    ∃ v : Word, exec (.lui p d imm16) s =
        .next (s.join p ((s.sofar p).setS d v) { srcs := [keyS d], dests := [(keyS d, 1)] }) ∧
      v.extractLsb' 16 16 = imm16 ∧ v.extractLsb' 0 16 = ((s.before p).sr d).extractLsb' 0 16)

/-- R175: comparisons and predicate arithmetic. CMP sets every bit of Pp to the result of its condition; a condition
code of 6 or 7 raises ILLEGAL_ENCODING. R170, R175, R178, R184, R185: the other syllables of slot 0. A NOP, in
any of slots 0 to 2, does nothing, and a word that encodes no syllable raises ILLEGAL_ENCODING; TRICK reports
one Trick; the counter, status and rounding registers move; a HALT on a core that is quiet, with no Hatch open,
is free to issue. -/
def Obligations.ScalarPredicatesAndOthers : Prop :=
  (∀ (s : State) (p : CoreIx) (q x y : Fin 8) (a c : Fin 32) (code : Fin 8), s.slotNext p 0 →
    let u := (s.before p).sr a
    let w := (s.before p).sr c
    let cmp (r : Prop) [Decidable r] : Host.Outcome State Fault Refusal :=
      .next (s.join p ((s.sofar p).setP q (if r then BitVec.allOnes 64 else 0))
        { srcs := [keyS a, keyS c], dests := [(keyP q, 1)] })
    let one (srcs : List Nat) (v : BitVec 64) : Host.Outcome State Fault Refusal :=
      .next (s.join p ((s.sofar p).setP q v) { srcs, dests := [(keyP q, 1)] })
    exec (.cmp p q a c 0) s = cmp (u = w) ∧ exec (.cmp p q a c 1) s = cmp (u ≠ w) ∧
    exec (.cmp p q a c 2) s = cmp (u.toInt < w.toInt) ∧ exec (.cmp p q a c 3) s = cmp (u.toInt ≤ w.toInt) ∧
    exec (.cmp p q a c 4) s = cmp (u.toNat < w.toNat) ∧ exec (.cmp p q a c 5) s = cmp (u.toNat ≤ w.toNat) ∧
    (5 < code.val → exec (.cmp p q a c code) s = .next (s.join p (s.sofar p) { traps := [(trapIllegal, 0)] })) ∧
    exec (.pand p q x y) s = one [keyP x, keyP y] ((s.before p).pr x &&& (s.before p).pr y) ∧
    exec (.por p q x y) s = one [keyP x, keyP y] ((s.before p).pr x ||| (s.before p).pr y) ∧
    exec (.pxor p q x y) s = one [keyP x, keyP y] ((s.before p).pr x ^^^ (s.before p).pr y) ∧
    exec (.pnot p q x) s = one [keyP x] (~~~ (s.before p).pr x)) ∧
  (∀ (s : State) (p : CoreIx) (k : Fin 4) (d a c : Fin 32) (sel : Fin 8), s.slotNext p k →
    let b := s.before p
    let n := s.sofar p
    let one (m : CoreBody) (y : Syl) : Host.Outcome State Fault Refusal := .next (s.join p m y)
    (k ≠ 3 → exec (.nop p k false) s = one n {} ∧
      exec (.nop p k true) s = one n { traps := [(trapIllegal, 0)] }) ∧
    (k = 0 →
      exec (.trick p) s = one { n with tricks := n.tricks + 1 } {} ∧
      exec (.cntset p c a) s = one (n.setC c (b.sr a)) { srcs := [keyS a], dests := [(keyC c, 1)] } ∧
      exec (.cntadd p c a) s = one (n.setC c (n.cr c + b.sr a)) { srcs := [keyS a] } ∧
      exec (.cntrd p d c) s = one (n.setS d (b.cr c)) { dests := [(keyS d, 1)] } ∧
      exec (.rdstat p d) s = one (n.setS d (b.arithSeen.zeroExtend 32)) { dests := [(keyS d, 1)] } ∧
      exec (.rdspec p d 0) s = one (n.setS d (if b.detm then 1 else 0)) { dests := [(keyS d, 1)] } ∧
      exec (.rdspec p d 1) s = one (n.setS d (BitVec.ofNat 32 (s.hw.regFld Reg.engRev 23 16))) { dests := [(keyS d, 1)] } ∧
      exec (.rdspec p d 2) s = one (n.setS d (BitVec.ofNat 32 b.cycle)) { dests := [(keyS d, 1)] } ∧
      exec (.rdspec p d 3) s = one (n.setS d (BitVec.ofNat 32 (b.cycle % 8))) { dests := [(keyS d, 1)] } ∧
      exec (.setrs p a 4) s =
        one { n with rs := { n.rs with tid := b.sr a } } { srcs := [keyS a], dests := [(keyRS 4, 1)] } ∧
      (sel = 7 → exec (.setrs p a sel) s = one n { traps := [(trapIllegal, 0)] }) ∧
      (b.quiet = true → b.openHatches = [] → exec (.halt p) s =
        one n { wait := some true, info := some (5, 0), outs := [.halted] })))

/-- R175 to R177, R212: the control transfers that slot 0 asks of its bundle, with a target inside the region and
the stacks in order; a BR whose test fails asks for none. R176, R177, R212: where the control transfers trap: a
target outside [0, IBOUND), a CALLB with four entries on the return stack, a RETB on an empty one, a fifth loop
entry, an end14 of 0. -/
def Obligations.ControlTransfers : Prop :=
  (∀ (s : State) (p : CoreIx) (q : Fin 8) (test : Fin 4) (off : BitVec 14) (a : Fin 32) (count : BitVec 10)
    (last : BitVec 14) (t : Nat), s.slotNext p 0 →
    let b := s.before p
    let one (y : Syl) : Host.Outcome State Fault Refusal := .next (s.join p (s.sofar p) y)
    (predTest test (b.pr q) = true → (b.pc : Int) + off.toInt = t → t < b.ibound →
      exec (.br p q test off) s = one { srcs := [keyP q], transfer := .branch t }) ∧
    (predTest test (b.pr q) = false → exec (.br p q test off) s = one { srcs := [keyP q] }) ∧
    ((b.pc : Int) + off.toInt = t → t < b.ibound → b.rets.length < 4 →
      exec (.callb p off) s = one { transfer := .call t }) ∧
    (∀ r, b.rets = t :: r → t < b.ibound → exec (.retb p) s = one { transfer := .ret t }) ∧
    (last ≠ 0 → b.pc + last.toNat < b.ibound → b.loops.length < 4 → b.sr a ≠ 0 →
      exec (.loop p a last) s =
        one { srcs := [keyS a], transfer := .loop ⟨b.pc + 1, b.pc + last.toNat, (b.sr a).toNat⟩ }) ∧
    (last ≠ 0 → b.pc + last.toNat < b.ibound → b.loops.length < 4 → count ≠ 0 →
      exec (.loopi p count last) s = one { transfer := .loop ⟨b.pc + 1, b.pc + last.toNat, count.toNat⟩ }) ∧
    (last ≠ 0 → b.pc + last.toNat < b.ibound →
      exec (.loopi p 0 last) s = one { transfer := .skip (b.pc + last.toNat + 1) })) ∧
  (∀ (s : State) (p : CoreIx) (q : Fin 8) (test : Fin 4) (off : BitVec 14) (count : BitVec 10)
    (last : BitVec 14), s.slotNext p 0 →
    let b := s.before p
    let traps (i : Instr) (code : Nat) : Prop :=
      ∃ y : Syl, exec i s = .next (s.join p (s.sofar p) y) ∧ (code, (0 : Word)) ∈ y.traps
    (predTest test (b.pr q) = true → ((b.pc : Int) + off.toInt < 0 ∨ (b.ibound : Int) ≤ b.pc + off.toInt) →
      traps (.br p q test off) trapIsBound) ∧
    (((b.pc : Int) + off.toInt < 0 ∨ (b.ibound : Int) ≤ b.pc + off.toInt) → traps (.callb p off) trapIsBound) ∧
    (4 ≤ b.rets.length → traps (.callb p off) trapStack) ∧
    (b.rets = [] → traps (.retb p) trapStack) ∧
    (4 ≤ b.loops.length → count ≠ 0 → traps (.loopi p count last) trapStack) ∧
    traps (.loopi p count 0) trapIllegal)

/-- R178, R180 to R182: the wait syllables of slot 0. WAIT and WAITI wait until CNTc reaches the threshold, which it
does when CNTc minus the threshold, modulo 2^32, is below 2^31; they ask for wheel position 0. A CUT arrives
once, as a message, and then waits for the clock of its release. Each names its kind and its threshold for
WAIT_INFO and WAIT_THRESH. R181: a WAITG on a stream below 96 that is assigned to the kernel's context waits on
its Line Gate; on a stream that is not assigned it raises GATE_ASSIGN, and with another value in Sa
OPERAND_RANGE with Sa as its address. R182, 03 R127: a barrier of one engine at which every core of the
partition has arrived is released on all of them at one clock, a cycle of wheel position 0 at least 4 CCLK after
the last arrival; the ramp of each begins with that cycle; no other core and no memory changes. -/
def Obligations.Waits : Prop :=
  (∀ (s : State) (p : CoreIx) (c a : Fin 32) (imm : BitVec 14) (barrier : Fin 16) (x : Bool), s.slotNext p 0 →
    let b := s.before p
    let cut : Word := BitVec.ofNat 32 (x.toNat * 2 ^ 20 + barrier * 2 ^ 16 + 3)
    exec (.wait p c a) s = .next (s.join p (s.sofar p)
      { srcs := [keyS a], wait := some (decide ((b.cr c - b.sr a).toNat < 2 ^ 31)), wheel := true,
        info := some (BitVec.ofNat 32 (c * 8 + 1), b.sr a) }) ∧
    exec (.waiti p c imm) s = .next (s.join p (s.sofar p)
      { wait := some (decide ((b.cr c - imm.zeroExtend 32).toNat < 2 ^ 31)), wheel := true,
        info := some (BitVec.ofNat 32 (c * 8 + 1), imm.zeroExtend 32) }) ∧
    (b.cut = none → exec (.cut p barrier x) s = .next (s.join p (s.sofar p)
      { wait := some false, wheel := true, info := some (cut, 0), early := [.cut barrier x] })) ∧
    (∀ w, b.cut = some w → exec (.cut p barrier x) s =
      .next (s.join p { s.sofar p with cut := none }
        { wait := some (w.release.any fun t => decide (t ≤ b.clock)), wheel := true, info := some (cut, 0) }))) ∧
  (∀ (s : State) (p : CoreIx) (a c : Fin 32), s.slotNext p 0 →
    let b := s.before p
    let sa := b.sr a
    let stream := fld sa 6 0
    let par := fld sa 8 8
    let ok := fld sa 31 9 = 0 ∧ bitOf sa 7 = false ∧ stream < 96
    let gate (w : Bool) (tr : List (Nat × Word)) (out : List CoreOut) : Host.Outcome State Fault Refusal :=
      .next (s.join p (s.sofar p)
        { srcs := [keyS a, keyS c], wait := some w, wheel := true, traps := tr, outs := out
          info := some (BitVec.ofNat 32 (par * 2 ^ 15 + stream * 2 ^ 8 + 2), b.sr c) })
    (ok → s.hw.assigned stream b.ctxId b.part = true →
      exec (.waitg p a c) s = gate (s.hw.gateOpen stream par (b.sr c)) [] [.gated stream par]) ∧
    (ok → s.hw.assigned stream b.ctxId b.part = false →
      exec (.waitg p a c) s = gate true [(trapGate, 0)] []) ∧
    (¬ ok → exec (.waitg p a c) s = gate true [(trapRange, sa)] [])) ∧
  (∀ (s : State) (part barrier : Fin 16),
    let cores := s.hw.partPhys part
    let clock := s.hw.releaseClock part barrier
    cores ≠ [] → cores.Nodup → s.hw.launchSlot part barrier = none →
    (∀ p ∈ cores, ∃ c, (s.before p).cut = some c ∧ c.id = barrier.val ∧ c.x = false ∧ c.release = none) →
    clock % 8 = 0 ∧
    (∀ p ∈ cores, ∀ c, (s.before p).cut = some c → c.arrived + 4 ≤ clock ∧ (s.before p).clock ≤ clock) ∧
    ∃ t, exec (.cutRelease part barrier) s = .next t ∧ t.mem = s.mem ∧
      (∀ p ∈ cores, ∀ c, (s.before p).cut = some c → t.before p =
        ({ s.before p with cut := some { c with release := some clock } } : CoreBody).atRelease ((s.before p).clock - 1)) ∧
      (∀ p, p ∉ cores → t.hw.core p = s.hw.core p))

/-! ### Slot 1 (05_core_program.md R186 to R197) -/

/-- R186, R190 to R192: the address registers, modulo 2^48, the generator fields, which keep as many low bits as the field
is wide, and the start of a walk whose fields pass the checks. A change of a field discards the walk; a fence stalls
while Pantry writes are due. -/
def Obligations.AddressSyllables : Prop :=
  ∀ (s : State) (p : CoreIx) (d x : Fin 16) (a : Fin 32) (imm : BitVec 16) (f : Fin 64) (v : BitVec 18) (w : Nat),
    s.slotNext p 1 →
    let b := s.before p
    let n := s.sofar p
    let one (m : CoreBody) (y : Syl) : Host.Outcome State Fault Refusal := .next (s.join p m y)
    exec (.amov p d a) s =
      one (n.setA d ((b.sr a).zeroExtend 48)) { srcs := [keyS a], dests := [(keyA d, 1)] } ∧
    exec (.aadd p d x a) s = one (n.setA d (b.ar x + BitVec.ofInt 48 (b.sr a).toInt))
      { srcs := [keyA x, keyS a], dests := [(keyA d, 1)] } ∧
    exec (.aaddi p d x imm) s = one (n.setA d (b.ar x + BitVec.ofInt 48 imm.toInt))
      { srcs := [keyA x], dests := [(keyA d, 1)] } ∧
    exec (.amovs p a x) s =
      one (n.setS a ((b.ar x).truncate 32)) { srcs := [keyA x], dests := [(keyS a, 1)] } ∧
    (∃ r : BitVec 48, exec (.amovh p d a) s =
        one (n.setA d r) { srcs := [keyA d, keyS a], dests := [(keyA d, 1)] } ∧
      r.extractLsb' 0 32 = (b.ar d).extractLsb' 0 32 ∧ r.extractLsb' 32 16 = (b.sr a).extractLsb' 0 16) ∧
    (fieldWidth f = some w →
      exec (.agset p f a) s =
        one { n with gen := Tbl.put (fun _ => 0) n.gen f (BitVec.ofNat 32 ((b.sr a).toNat % 2 ^ w)), walk := none }
          { srcs := [keyS a], stall := b.columnsDue } ∧
      exec (.agseti p f v) s =
        one { n with gen := Tbl.put (fun _ => 0) n.gen f (BitVec.ofNat 32 (v.toNat % 2 ^ w)), walk := none }
          { stall := b.columnsDue }) ∧
    (fieldWidth f = none → exec (.agset p f a) s = one n { traps := [(trapIllegal, 0)] }) ∧
    (aggoTraps b (s.hw.up p) = [] →
      exec (.aggo p) s = one { n with walk := some ⟨0, none, none, 0, none⟩ } { stall := b.columnsDue }) ∧
    exec (.pfence p) s = one n { stall := b.writesDue }

/-- R187 to R189, R198, R209, R211: a load or store whose address, Aa plus the scaled displacement, lies within the bound
in powered granules and is aligned joins its queue with the physical address; with the increment, Aa moves on by the
access size. A load's register awaits its data. -/
def Obligations.LoadsAndStoresQueue : Prop :=
  ∀ (s : State) (p : CoreIx) (d : Fin 32) (x : Fin 16) (inc : Bool) (imm : BitVec 14) (pg : Fin 8) (imm11 : BitVec 11),
    let b := s.before p
    let n := s.sofar p
    let at_ (size : Nat) (disp : Int) : BitVec 48 := memAddr b x size disp
    let pa (size : Nat) (disp : Int) : Nat := 32 * b.pbase + (at_ size disp).toNat
    let ok (size : Nat) (disp : Int) : Prop :=
      (at_ size disp).toNat < 2 ^ 22 ∧ (at_ size disp).toNat + size ≤ 32 * b.pbound ∧
      (at_ size disp).toNat % size = 0 ∧ granulesUp (s.hw.up p) (pa size disp) size = true
    let moved (size : Nat) (disp : Int) : CoreBody :=
      if inc then n.setA x (addrPlus (at_ size disp) size) else n
    let incs : List (Nat × Nat) := if inc then [(keyA x, 1)] else []
    let queued (m : CoreBody) (vec : Bool) (size : Nat) (disp : Int) (key : Nat) : CoreBody :=
      { m with loadQ := m.loadQ ++ [⟨vec, d, pa size disp, b.cycle⟩]
               loading := if key = keyS 0 then m.loading else m.loading ++ [key] }
    let load (vec : Bool) (size key : Nat) : Host.Outcome State Fault Refusal :=
      .next (s.join p (queued (moved size imm.toInt) vec size imm.toInt key)
        { srcs := [keyA x], dests := (key, 8 + b.loadQ.length) :: incs
          stall := decide (4 ≤ b.loadQ.length) || b.storeAhead (pa size imm.toInt) size })
    let store (size : Nat) (disp : Int) (srcs : List Nat) (runs : List (Nat × List Byte)) :
        Host.Outcome State Fault Refusal :=
      .next (s.join p { moved size disp with
            storeQ := (moved size disp).storeQ ++ [⟨pa size disp / 256, runs, b.cycle⟩] }
        { srcs := keyA x :: srcs, dests := incs, stall := decide (4 ≤ b.storeQ.length) })
    (s.slotNext p 1 → ok 256 imm.toInt → exec (.vld p d x inc imm) s = load true 256 (keyV d)) ∧
    (s.slotNext p 1 → ok 4 imm.toInt → exec (.sld p d x inc imm) s = load false 4 (keyS d)) ∧
    (s.slotNext p 2 → ok 4 imm.toInt → exec (.sst p d x inc imm) s =
      store 4 imm.toInt [keyS d] [(pa 4 imm.toInt, leBytes 4 (b.sr d).toNat)]) ∧
    (s.slotNext p 2 → ok 256 imm11.toInt → exec (.vst p d x inc pg imm11) s =
      store 256 imm11.toInt [keyV d, keyP pg] (storeRuns (pa 256 imm11.toInt) (b.pr pg) (b.vr d)))

/-- R187, R209, R211, R214: an access outside the bound raises PANTRY_BOUND, one within the bound that reaches a
granule that is powered down PANTRY_GRANULE, and one that is not aligned MISALIGNED, each with the byte offset
as TRAP_ADDR. R194, R195, R196: COPY_OVERLAP when the two ranges of a COPY overlap, and HATCH_STATE for a HOPEN
of an open Hatch and an HCLOSE of a closed one. R200: MATRIX_OPERAND for a DLOAD of more than 64 rows and for an
MMA beyond Deck row 63 or with formats that form no operand pair. -/
def Obligations.SyllableTraps : Prop :=
  (∀ (s : State) (p : CoreIx) (d : Fin 32) (x : Fin 16) (inc vec : Bool) (imm : BitVec 14),
    let b := s.before p
    let size : Nat := if vec then 256 else 4
    let off := (memAddr b x size imm.toInt).toNat
    let bounded := off < 2 ^ 22 ∧ off + size ≤ 32 * b.pbound
    let traps (code : Nat) : Prop :=
      (s.slotNext p 1 → ∃ m y, exec (if vec then .vld p d x inc imm else .sld p d x inc imm) s = .next (s.join p m y) ∧
        (code, BitVec.ofNat 32 off) ∈ y.traps) ∧
      (vec = false → s.slotNext p 2 → ∃ m y, exec (.sst p d x inc imm) s = .next (s.join p m y) ∧
        (code, BitVec.ofNat 32 off) ∈ y.traps)
    (¬ bounded → traps trapPantryBound) ∧
    (bounded → granulesUp (s.hw.up p) (32 * b.pbase + off) size = false → traps trapGranule) ∧
    (off % size ≠ 0 → traps trapMisaligned)) ∧
  (∀ (s : State) (p : CoreIx) (k x z : Fin 16) (a c : Fin 32), s.slotNext p 1 →
    let b := s.before p
    let traps (i : Instr) (code : Nat) : Prop :=
      ∃ m y, exec i s = .next (s.join p m y) ∧ (code, (0 : Word)) ∈ y.traps
    ((b.ar x).toNat < (b.ar z).toNat + 32 * (b.sr a).toNat → (b.ar z).toNat < (b.ar x).toNat + 32 * (b.sr a).toNat →
      traps (.copy p z x a c) trapCopyOverlap) ∧
    ((b.hatch k).isOpen = true → traps (.hopen p k x a c) trapHatch) ∧
    ((b.hatch k).isOpen = false → traps (.hclose p k) trapHatch)) ∧
  (∀ (s : State) (p : CoreIx) (x : Fin 16) (rows n : BitVec 7) (mx bank clear : Bool) (j0 : Fin 64), s.slotNext p 2 →
    let c := s.sofar p
    let traps (i : Instr) (w : Word) : Prop :=
      ∃ m y, exec i s = .next (s.join p m y) ∧ (trapMatrix, w) ∈ y.traps
    (64 < rows.toNat → traps (.dload p x rows 0 mx) (BitVec.ofNat 32 rows.toNat)) ∧
    (64 < j0.val + n.toNat → traps (.mma p bank clear j0 n) (BitVec.ofNat 32 (j0.val + n.toNat))) ∧
    (j0.val + n.toNat ≤ 64 → pairOk (c.field 0) c.wfmtAhead = false →
      traps (.mma p bank clear j0 n) (BitVec.ofNat 32 (16 * c.field 0 + c.wfmtAhead))))

/-- R193 to R197, R209, R211: the queueing and Hatch syllables of slot 1 with operands in range. DMAQ captures the
32-byte descriptor as the Pantry holds it; FILL and COPY queue physical ranges; HOPEN opens a closed Hatch, HCLOSE waits
until the Hatch can close and increments its generation, and HPUT sends the register's 256 bytes. -/
def Obligations.QueueingSyllables : Prop :=
  ∀ (s : State) (p : CoreIx) (k x z : Fin 16) (a w c : Fin 32), s.slotNext p 1 →
    let b := s.before p
    let n := s.sofar p
    let off := (b.ar x).toNat
    let ok (o m : Nat) : Prop := o < 2 ^ 22 ∧ o + m ≤ 32 * b.pbound ∧ o % 32 = 0 ∧
      granulesUp (s.hw.up p) (32 * b.pbase + o) m = true
    let words := (b.sr a).toNat
    let item (kd : DmaKind) : CoreBody :=
      { n with dmaQ := n.dmaQ ++ [⟨n.dmaNext, kd, c, b.pc, false, 0, [], false, [], 0, false⟩]
               dmaNext := n.dmaNext + 1 }
    let full := decide (16 ≤ b.dmaQ.length)
    (ok off 32 → exec (.dmaq p x c) s = .next (s.join p
      { item (.desc (s.mem.bytes (pantryAddr p (32 * b.pbase + off)) 32)
          (s.mem.anyBad (pantryAddr p (32 * b.pbase + off)) 32)) with
        flags := n.flags ||| readFlags ⟨s.mem, p⟩ (32 * b.pbase + off) 32 }
      { srcs := [keyA x], stall := b.slot5Held, full, outs := [.captured (32 * b.pbase + off)] })) ∧
    (ok off (32 * words) → 0 < words → exec (.fill p x a w c) s = .next (s.join p
      (item (.fill (32 * b.pbase + off) words (b.sr w)))
      { srcs := [keyA x, keyS a, keyS w], full })) ∧
    (ok off (32 * words) → ok (b.ar z).toNat (32 * words) → 0 < words →
      (off + 32 * words ≤ (b.ar z).toNat ∨ (b.ar z).toNat + 32 * words ≤ off) →
      exec (.copy p z x a c) s = .next (s.join p
        (item (.copy (32 * b.pbase + (b.ar z).toNat) (32 * b.pbase + off) words))
        { srcs := [keyA x, keyA z, keyS a], full })) ∧
    ((b.hatch k).isOpen = false → off % 32 = 0 → off < 2 ^ 22 → off + 32 * fld (b.sr a) 17 0 ≤ 32 * b.pbound →
      fld (b.sr a) 31 19 = 0 → exec (.hopen p k x a c) s = .next (s.join p
        (n.setHatch k ⟨true, b.pbase + off / 32, fld (b.sr a) 17 0, bitOf (b.sr a) 18, c, (n.hatch k).gen, 0, false, []⟩)
        { srcs := [keyA x, keyS a], outs := [.opened k] })) ∧
    ((b.hatch k).isOpen = true → exec (.hclose p k) s = .next (s.join p
      (n.setHatch k { Hatch.closed with gen := (n.hatch k).gen + 1, partner := (n.hatch k).partner })
      { wait := some (b.hatch k).closable, wheel := true, info := some (BitVec.ofNat 32 (k * 2 ^ 21 + 4), 0)
        early := if (b.hatch k).closing then [] else [.closing k] })) ∧
    (fld (b.sr a) 27 11 % 8 = 0 → fld (b.sr a) 31 28 = 0 → exec (.hput p w a c) s = .next (s.join p
      { n with hputs := n.hputs ++ [c.val] }
      { srcs := [keyV w, keyS a], outs := [.hput (b.sr a) c (b.vr w).bytes] }))

/-! ### Slot 2 and the matrix unit (03_matrix_unit.md; 05_core_program.md R198 to R200) -/

/-- R105, R106, R111, R113, R115, R199, R200: the matrix syllables join the Matrix Queue, in order, when their operands
are in range; the sequencer finds them there. They stall while the queue holds eight entries. -/
def Obligations.MatrixSyllables : Prop :=
  ∀ (s : State) (p : CoreIx) (x mask : Fin 16) (rows n : BitVec 7) (mx bank clear neg : Bool) (j0 : Fin 64)
    (e : BitVec 8) (f : BitVec 4), s.slotNext p 2 →
    let b := s.before p
    let c := s.sofar p
    let off := (b.ar x).toNat
    let queued (op : MxOp) (srcs : List Nat) : Host.Outcome State Fault Refusal :=
      .next (s.join p { c with mx := { c.mx with queue := c.mx.queue ++ [op] } }
        { srcs, stall := decide (8 ≤ b.mx.queue.length) })
    exec (.swap p) s = queued .swap [] ∧
    exec (.seteacc p e) s = queued (.setEacc e) [] ∧
    exec (.setfmt p f) s = queued (.setFmt f) [] ∧
    (j0.val + n.toNat ≤ 64 → pairOk (c.field 0) c.wfmtAhead = true →
      exec (.mma p bank clear j0 n) s = queued (.mma bank clear j0 n.toNat 0) []) ∧
    (rows.toNat ≤ 64 → off % 256 = 0 →
      b.imageTraps (s.hw.up p) off (imageBytes rows.toNat 16 mx (reductionPerRow c.wfmtAhead 16)) 256 = [] →
      exec (.dload p x rows 0 mx) s = queued (.dload off rows.toNat 16 mx) [keyA x]) ∧
    exec (.drain p bank 1 neg mask false x) s = queued (.drain bank 1 neg mask false off) [] ∧
    (b.imageTraps (s.hw.up p) off (64 * (maskArrays mask).length * 256) 256 = [] →
      exec (.drain p bank 0 neg mask true x) s = queued (.drain bank 0 neg mask true off) [keyA x])

/-- R106, R107, R111 to R113: the sequencer. In the first pass of a cycle, or in the third, a DLOAD or DRAIN at the head
goes to its unit when nothing is pending there; a DLOAD that was pending before this cycle begins when none runs; the end
of a cycle reads the next 256 bytes of its image; when its N accesses and five more cycles have passed it completes the
shadow Deck; a SWAP at the head exchanges the Decks once no load is left or completed in this cycle. -/
def Obligations.MatrixSequencer : Prop :=
  ∀ (s : State) (p : CoreIx) (q : List MxOp) (base rows width form : Nat) (mask : Nat) (mx bank neg toP : Bool)
    (j : DloadJob), s.unitFree p →
    let b := s.before p
    let m := b.mx
    let one (m' : MatrixUnit) : Host.Outcome State Fault Refusal := .next (s.withBody p { b with mx := m' })
    let pass := m.cycled = false ∨ m.pass3 = true
    let a := 32 * b.pbase + j.base + 256 * j.cyc
    (m.queue = .dload base rows width mx :: q → pass → rows ≠ 0 → m.loadPend = none → exec (.matrixHandover p) s =
      one ({ m with
        queue := q
        loadPend := some { base, rows, width, mx, perRow := reductionPerRow m.wfmt.toNat width, fresh := true, image := [],
                           cyc := 0 } } : MatrixUnit).settle) ∧
    (m.queue = .drain bank form neg mask toP base :: q → pass → mask % 16 ≠ 0 → m.drainPend = none →
      exec (.matrixHandover p) s =
      one ({ m with
        queue := q
        drainPend := some { bank, form, neg, mask, toPantry := toP, base, next := 0, second := false, fresh := true } } :
          MatrixUnit).settle) ∧
    (m.queue = .swap :: q → m.cycled = false → m.loadRun = none → m.loadPend = none → m.loaded = false →
      exec (.swapExecute p) s =
        one ({ m with queue := q, activeD1 := !m.activeD1, shadowOk := false } : MatrixUnit).settle) ∧
    (m.loadRun = none → m.loaded = false → m.loadPend = some j → j.fresh = false → exec (.dloadBegin p) s =
      one { m with loadPend := none, loadRun := some j }) ∧
    (m.loadRun = some j → j.cyc < j.accesses → s.mem.cleanAt (pantryAddr p a) 256 →
      (Eff.start s.hw s.mem).deckCycle p = Eff.start (s.hw.updBody p fun b => { b with mx := { m with
        loadRun := some { j with
          image := j.image ++ (List.range 256).map fun i =>
            (s.mem.byte (pantryAddr p (a + i)), (s.mem.state (pantryAddr p (a + i))).bad) } } }) s.mem) ∧
    (m.loadRun = some j → j.cyc = j.accesses + 5 → exec (.dloadComplete p) s =
      one { m.setShadow (m.shadowDeck.load j.rows j.width j.mx j.perRow j.image) with
        loadRun := none, shadowOk := true, loaded := true })

/-- R100, R106, R110, R122, R135: the decision of the matrix unit in one issued cycle, after the writes, the
drainer, the loads and the first pass of the sequencer. A step that may start takes its bank, its clear flag and
E_acc with it and counts as active; a cycle in which the drainer, the ramp, the Deck, the bank or the feed holds
the step back counts as that freeze, and no step starts. It comes once in a cycle. R100, R110, R123: a step that
is due writes all the cells of its bank in one cycle, each from its old value, and no cell of the other bank; a
clear step latches its E_acc for the bank. A cycle in which the drainer is backed up writes nothing. -/
def Obligations.MatrixCycle : Prop :=
  (∀ (s : State) (p : CoreIx) (q : List MxOp) (bank clear : Bool) (j0 n started : Nat) (w : Walk) (pl : Plane),
    s.unitFree p →
    let b := s.before p
    let m := b.mx.settle
    let c := { b with mx := m }
    b.mx.cycled = false → b.mx.beforeDue = false → b.readyDue = false →
    ∃ t, exec (.matrixStepStart p) s = .next t ∧ t.mem = s.mem ∧
      (∀ c, c ≠ p.val → t.hw.core c = s.hw.core c) ∧
      let m' := (t.before p).mx
      m'.cycled = true ∧ (t.before p).s = b.s ∧ (t.before p).v = b.v ∧ m'.acc = m.acc ∧ m'.deck0 = m.deck0 ∧
      m'.deck1 = m.deck1 ∧
      (b.mx.drainCan = .backup → m' = { b.mx with cycled := true, frzDrain := b.mx.frzDrain + 1 }) ∧
      (b.mx.drainCan ≠ .backup →
        (cycleState c = .starts → m.queue = .mma bank clear j0 n started :: q → b.walk = some w → w.front = some pl →
          m'.active = m.active + 1 ∧ m'.flights.length = m.flights.length + 1 ∧
          ∃ f, m'.flights.getLast? = some f ∧ f.bank = bank ∧ f.clear = (clear && started == 0) ∧ f.eacc = m.eacc ∧
            f.age = 0) ∧
        (cycleState c ≠ .starts → m'.flights.length = m.flights.length) ∧
        (cycleState c = .active → m'.active = m.active + 1) ∧
        (cycleState c = .feedFreeze → m'.frzFeed = m.frzFeed + 1) ∧
        (cycleState c = .deckFreeze → m'.frzDeck = m.frzDeck + 1) ∧
        (cycleState c = .bankFreeze → m'.frzBank = m.frzBank + 1) ∧
        (cycleState c = .rampFreeze → m'.frzRamp = m.frzRamp + 1) ∧
        (cycleState c = .idle → m'.active = m.active ∧ m'.frzFeed = m.frzFeed ∧ m'.frzDeck = m.frzDeck ∧
          m'.frzBank = m.frzBank ∧ m'.frzDrain = m.frzDrain ∧ m'.frzRamp = m.frzRamp))) ∧
  (∀ (s : State) (p : CoreIx) (f : StepFlight) (fs : List StepFlight), s.unitFree p →
    let b := s.before p
    let m := b.mx
    (m.drainCan = .backup → exec (.matrixStepWrite p) s = .next (s.withBody p b)) ∧
    (m.cycled = false → m.drainCan ≠ .backup →
    m.flights = f :: fs → writeLatency f.afmt f.wfmt ≤ f.age + 1 →
    ∃ t, exec (.matrixStepWrite p) s = .next t ∧ t.mem = s.mem ∧
      let m' := (t.before p).mx
      m'.flights = fs ∧ m'.latch f.bank = (if f.clear then f.eacc else m.latch f.bank) ∧
      m'.latch (!f.bank) = m.latch (!f.bank) ∧
      ∀ a r c, a < 4 → r < 64 → c < 32 →
        m'.cell f.bank a r c = (cellStep m.negate f (m.cell f.bank a r c) r (32 * a + c)
          (m'.latch f.bank).toInt).1 ∧
        m'.cell (!f.bank) a r c = m.cell (!f.bank) a r c))

/-- R115 to R117, R119: the drainer. A drain at work that may read, or one that was pending before this cycle when none is
at work, takes its next row, converted in its form, and moves on; a row whose cycles have passed lands in the Drain Queue
at the end of the cycle, or, of a drain to the Pantry, joins the writes of slot 2 of the cycle. -/
def Obligations.Drainer : Prop :=
  ∀ (s : State) (p : CoreIx) (d : DrainJob) (r : DrainRow) (rs : List DrainRow) (dst : Nat), s.unitFree p →
    let b := s.before p
    let m := b.mx
    (m.drainNow = some d → d.second = false → m.drainCan = .reads →
      ∃ t, exec (.drainRowRead p) s = .next t ∧ t.mem = s.mem ∧
        let m' := (t.before p).mx
        let row := rowLanes d.form (m.latch d.bank).toInt (m.rowCells d)
        (∃ new, m'.rowsOut = m.rowsOut ++ new ∧ new.map DrainRow.lanes = row.1) ∧ m'.drained = true ∧
        (t.before p).arith = b.arith ||| row.2 ∧ m'.acc = m.acc ∧
        (∀ d', m'.drainRun = some d' → d'.next = d.next + 1)) ∧
    (m.cycled = false → m.drainCan ≠ .backup → m.rowsOut = { r with left := 0, dest := none } :: rs →
      exec (.drainRowDeliver p) s =
        .next (s.withBody p { b with mx := { m with rowsOut := rs, landed := m.landed ++ [r.lanes] } })) ∧
    (m.cycled = false → m.drainCan ≠ .backup → m.rowsOut = { r with left := 0, dest := some dst } :: rs →
      b.canIssue = true → r.lanes.bytes.take r.bytes ≠ [] → exec (.drainRowDeliver p) s =
        .next (s.withBody p { b with
          mx := { m with rowsOut := rs }
          writes := b.writes ++ [⟨2, dst, r.lanes.bytes.take r.bytes, false⟩] }))

/-! ### Slot 3 and the end of a bundle (05_core_program.md R172 to R174, R201 to R213) -/

/-- R201, R202: the lane-by-lane syllables of two sources, which end a bundle that issues. A lane turned on takes the
result in the syllable's type, the others keep Vd; typed arithmetic takes 4 cycles in a floating type and 2 in an integer
one, bitwise operations 1. -/
def Obligations.VectorTwoSources : Prop :=
  ∀ (s : State) (p : CoreIx) (t : Fin 4) (d a c : Fin 32) (pg : Fin 8),
    let b := s.before p
    let x (i : Nat) : Word := (b.vr a).lane i
    let y (i : Nat) : Word := (b.vr c).lane i
    let lat : Nat := if t.val < 2 then 4 else 2
    let one (srcs : List Nat) (lat : Nat) (i : Instr) (f : Nat → Lane) : Prop :=
      let r : Syl := { srcs := maskedSrcs d pg srcs, dests := [(keyV d, lat)] }
      s.closes p r → exec i s = .next (s.issued p ((s.sofar p).laneWrite b d pg f) r)
    one [keyV a, keyV c] lat (.vadd p t d a c pg) (fun i => laneAdd (laneTy t) (x i) (y i)) ∧
    one [keyV a, keyV c] lat (.vsub p t d a c pg) (fun i => laneSub (laneTy t) (x i) (y i)) ∧
    one [keyV a, keyV c] lat (.vmul p t d a c pg) (fun i => laneMul (laneTy t) (x i) (y i)) ∧
    one [keyV a, keyV c] lat (.vmax p t d a c pg) (fun i => laneMax (laneTy t) (x i) (y i)) ∧
    one [keyV a, keyV c] lat (.vmin p t d a c pg) (fun i => laneMin (laneTy t) (x i) (y i)) ∧
    one [keyV a, keyV c, keyV d] lat (.vfma p t d a c pg)
      (fun i => laneFma (laneTy t) (x i) (y i) ((b.vr d).lane i)) ∧
    one [keyV a, keyV c] 1 (.vand p d a c pg) (fun i => (x i &&& y i, 0)) ∧
    one [keyV a, keyV c] 1 (.vor p d a c pg) (fun i => (x i ||| y i, 0)) ∧
    one [keyV a, keyV c] 1 (.vxor p d a c pg) (fun i => (x i ^^^ y i, 0)) ∧
    one [keyV a, keyV c] 1 (.vshl p d a c pg) (fun i => (x i <<< ((y i).toNat % 32), 0)) ∧
    one [keyV a, keyV c] 1 (.vshr p false d a c pg) (fun i => (x i >>> ((y i).toNat % 32), 0)) ∧
    one [keyV a, keyV c] 1 (.vshr p true d a c pg) (fun i => ((x i).sshiftRight ((y i).toNat % 32), 0))

/-- R97, R201, R202, R206: the lane-by-lane syllables of one source: absolute value, negation, conversions, the
transcendental functions, requantisation to a format without block scale, and the broadcast of a scalar. -/
def Obligations.VectorOneSource : Prop :=
  ∀ (s : State) (p : CoreIx) (t : Fin 4) (d a : Fin 32) (pg src dst : Fin 8) (fmt : Fin 16) (mode : Fin 4),
    let b := s.before p
    let x (i : Nat) : Word := (b.vr a).lane i
    let one (srcs : List Nat) (lat : Nat) (i : Instr) (f : Nat → Lane) : Prop :=
      let r : Syl := { srcs := maskedSrcs d pg srcs, dests := [(keyV d, lat)] }
      s.closes p r → exec i s = .next (s.issued p ((s.sofar p).laneWrite b d pg f) r)
    one [keyV a] 1 (.vabs p t d a pg) (fun i => laneAbs (laneTy t) (x i)) ∧
    one [keyV a] 1 (.vneg p t d a pg) (fun i => laneNeg (laneTy t) (x i)) ∧
    (src.val ≤ 3 → dst.val ≤ 3 →
      one [keyV a] 3 (.vcvt p src dst d a pg) (fun i => laneCvt src dst (x i))) ∧
    one [keyV a] 6 (.vexp2 p d a pg) (fun i => vexp2 (fp32 (x i))) ∧
    one [keyV a] 6 (.vlog2 p d a pg) (fun i => vlog2 (fp32 (x i))) ∧
    one [keyV a] 6 (.vrcp p d a pg) (fun i => vrcp (fp32 (x i))) ∧
    one [keyV a] 6 (.vrsqrt p d a pg) (fun i => vrsqrt (fp32 (x i))) ∧
    one [keyV a] 10 (.vexp p d a pg) (fun i => vexp (fp32 (x i))) ∧
    one [keyV a] 20 (.vsigm p d a pg) (fun i => vsigm (fp32 (x i))) ∧
    one [keyV a] 28 (.vtanh p d a pg) (fun i => vtanh (fp32 (x i))) ∧
    one [keyS a] 1 (.vbcs p d a pg) (fun _ => (b.sr a, 0)) ∧
    (mode.val ≤ 1 → fmtIsMx fmt = false →
      let r : Syl := { srcs := maskedSrcs d pg [keyV a], dests := [(keyV d, 4)] }
      let f (i : Nat) : Lane :=
        let y := requantFloat (b.rs.mode mode i) (fp32 (x i)) fmt
        (BitVec.ofNat 32 y.1, y.2)
      let t := s.issued p ((s.sofar p).laneWrite b d pg f) r
      s.closes p r → exec (.vfq p d a pg fmt mode) s = .next (t.withHw t.hw.fresh.2))

/-- R201, R202, R207: the syllables that compare, select, move between files, reduce and pack. -/
def Obligations.VectorAcrossLanes : Prop :=
  ∀ (s : State) (p : CoreIx) (t : Fin 4) (q pg : Fin 8) (d a c : Fin 32) (lane : Fin 64) (op word fmt : Fin 16)
    (half : Bool) (r : Lane),
    let b := s.before p
    let n := s.sofar p
    let x (i : Nat) : Word := (b.vr a).lane i
    let one (srcs : List Nat) (key lat : Nat) (i : Instr) (m : CoreBody) : Prop :=
      let y : Syl := { srcs, dests := [(key, lat)] }
      s.closes p y → exec i s = .next (s.issued p m y)
    (∀ code : Fin 16, code.val ≤ 5 → ∃ bits : BitVec 64,
      (∀ i, bits.getLsbD i = ((b.pr pg).getLsbD i &&
        (laneCmp (laneTy t) code (x i) ((b.vr c).lane i)).getD false)) ∧
      one ([keyV a, keyV c] ++ if pg.val = 0 then [] else [keyP pg]) (keyP q) 2 (.vcmp p t q a c pg code)
        (n.setP q bits)) ∧
    one [keyV a, keyV c, keyP pg] (keyV d) 1 (.vsel p d a c pg)
      (n.setV d (Vec.tab fun i => if (b.pr pg).getLsbD i then x i else (b.vr c).lane i)) ∧
    one [keyV a] (keyS d) 2 (.vlane p d a lane) (n.setS d (x lane)) ∧
    one [keyV a] (keyS d) 6 (.vexpmax p d a) (n.setS d (expSummary (b.vr a))) ∧
    (vred (laneTy t) op b.detm (b.vr a) = some r →
      one (maskedSrcs d pg [keyV a]) (keyV d) (if t.val = 0 ∧ op.val = 0 ∧ b.detm = true then 24 else 12)
        (.vred p t op d a pg)
        { n.setV d (Vec.tab fun i => if (b.pr pg).getLsbD i then (if i = 0 then r.1 else 0) else (b.vr d).lane i) with
          arith := n.arith ||| (if (b.pr pg).getLsbD 0 then r.2 else 0) }) ∧
    (vpackOk fmt word half = true →
      one [keyV a, keyV d] (keyV d) 2 (.vpack p d a 0 fmt word half) (n.setV d
        (Vec.ofBytes (overwrite (b.vr d).bytes (vpackBytes fmt word half (b.vr a)).1
          (vpackBytes fmt word half (b.vr a)).2))))

/-- R89, R90, R203 to R207: the requantising syllables with a mode that rounds without the seeds, the container syllables,
and the syllables that take a column of the walk or a row of the Drain Queue. -/
def Obligations.VectorRequantAndStreams : Prop :=
  ∀ (s : State) (p : CoreIx) (d a sx c : Fin 32) (fmt : Fin 16) (half : Bool) (x : Vec) (rest : List Vec) (pl : Plane)
    (j : Nat),
    let b := s.before p
    let n := s.sofar p
    let runs (i : Instr) (srcs : List Nat) (dests : List (Nat × Nat)) (post : CoreBody → Prop) : Prop :=
      s.closes p { srcs, dests } → ∃ m, exec i s = .next (s.issued p m { srcs, dests }) ∧
        (∀ r : Fin 32, r ≠ d → m.vr r = n.vr r) ∧ m.a = n.a ∧ m.p = n.p ∧ m.cnt = n.cnt ∧ m.gen = n.gen ∧
        m.mx.acc = n.mx.acc ∧ post m
    let ctl := b.sr c
    (fld ctl 6 0 ≤ 95 → fld ctl 9 8 ≤ 1 → fld ctl 11 10 = 0 → fld ctl 15 12 ≤ 3 →
      runs (.vrq p d a sx c half) [keyV a, keyV d, keyS sx, keyS c] [(keyV d, 5)] fun m => ∀ i, i < 64 →
        (m.vr d).lane i =
          (if i / 32 = half.toNat then BitVec.ofInt 32 (requantInt (b.rs.mode (fld ctl 9 8) (i % 32))
              (signed 64 (((b.vr a).lane (2 * (i % 32))).toNat + 2 ^ 32 * ((b.vr a).lane (2 * (i % 32) + 1)).toNat))
              (b.sr sx).toInt (fld ctl 6 0) (signed 16 (fld ctl 31 16)) (fld ctl 15 12)).1
           else (b.vr d).lane i)) ∧
    (fmtIsMx fmt = true → runs (.vmxq p d a sx fmt 0) [keyV a] [(keyV d, 8), (keyS sx, 8)] fun m =>
      let block := requantMx ((List.range 32).map fun _ => .rne)
        ((List.range 32).map fun k => fp32 ((b.vr a).lane k)) fmt
      (∀ i, i < 32 → (m.vr d).lane i = BitVec.ofNat 32 (block.1.getD i 0)) ∧
      (sx.val ≠ 0 → fld (m.sr sx) 7 0 = block.2.1)) ∧
    (runs (.v72add p d a c 0) [keyV a, keyV c] [(keyV d, 2)] fun m => ∀ k, k < 16 →
      (m.vr d).container k = ⟨((b.vr a).container k).a + ((b.vr c).container k).a,
        ((b.vr a).container k).poison || ((b.vr c).container k).poison⟩) ∧
    (runs (.v72cvt p d a c 0 1) [keyV a, keyS c] [(keyV d, 4)] fun m => ∀ k, k < 16 →
      (m.vr d).lane k = (drainF32 ((b.vr a).container k) (signed 8 (fld ctl 7 0))).1) ∧
    (runs (.vfixsum p d a c 0) [keyV a, keyV d, keyS c] [(keyV d, 8)] fun m =>
      ((m.vr d).container 0).poison = ((b.vr d).container 0).poison ∧
      ((m.vr d).container 0).a = (List.range 64).foldl (fun acc i => acc + BitVec.ofInt 72
        (match fp32 ((b.vr a).lane i) with
         | .fin neg mant e => sm neg (gridMag .rne mant e (ctl.toInt - 40))
         | _ => 0)) ((b.vr d).container 0).a ∧
      ∀ i, 4 ≤ i → i < 64 → (m.vr d).lane i = (b.vr d).lane i) ∧
    (b.nextColumn = .column pl j → runs (.vwld p d 0) [] [(keyV d, 1)] fun m =>
      m.walk = n.walk.map (fun w => w.take b.genP 1) ∧ ∀ r, r < 64 →
      (m.vr d).lane r = (b.genP.vectorLane ((b.genP.column pl.index j pl.elems).getD r b.genP.padElem)).1) ∧
    (b.mx.drainQueue = x :: rest → n.mx.drainQueue = x :: rest → runs (.vpop p d 0) [] [(keyV d, 1)] fun m =>
      m.mx.drainQueue = rest ∧ ∀ i, i < 64 → (m.vr d).lane i = x.lane i)

/-- R172, R173, R176, R177, R180, R213: what a bundle does when its fourth syllable, here a NOP, has come. A bundle
that stalls leaves the core as it was, one issued cycle later; one that waits does too, and sends only what it
sends while it waits; in the cycle that a branch costs nothing issues. One that traps, with whatever syllables,
has no effect on the core but the trap. R174: "When two syllables of one bundle name the same destination
register, the bundle raises BUNDLE_CONFLICT." With two different slots among its destinations for one register,
and nothing that stalls it or makes it wait, the bundle traps, in the lower of the two slots or in a slot below
it. -/
def Obligations.BundlesThatDoNotIssue : Prop :=
  (∀ (s : State) (p : CoreIx) (now : CoreBody) (x : Bundle) (t : TrapInfo),
    let b := s.before p
    let d := (s.atIssue p).add {}
    let after (c : CoreBody) (outs : List CoreOut) : Host.Outcome State Fault Refusal :=
      .next (s.after ((Eff.start (s.hw.setCore p ⟨c, none⟩) s.mem).bundleEnded p b outs))
    let c := { b with cycle := b.cycle + 1 }
    (s.slotNext p 3 →
      (d.ending = .stalls → exec (.nop p 3 false) s =
        after { c with waitInfo := d.waitInfo, waitThresh := d.waitThresh, dmaStop := d.dmaStop, run := .issuing } []) ∧
      (d.ending = .waits → exec (.nop p 3 false) s =
        after { c with waitInfo := d.waitInfo, waitThresh := d.waitThresh, dmaStop := false,
                       run := if fld d.waitInfo 2 0 = 5 then .halting else .waiting } d.early) ∧
      (d.ending = .dead → exec (.nop p 3 false) s = after { c with dead := false, run := .issuing } []) ∧
      (d.ending = .traps t → exec (.nop p 3 false) s =
        after { c with run := .trapped, trapCause := trapWord false b.pc t.slot t.code, trapAddr := t.addr }
          [.trapped t.slot t.code])) ∧
    (x.ending = .traps t → x.close now =
      ({ x.before with cycle := x.before.cycle + 1, run := .trapped,
                       trapCause := trapWord false x.before.pc t.slot t.code, trapAddr := t.addr },
       [.trapped t.slot t.code]))) ∧
  (∀ (d : Bundle) (key i j l m : Nat), i < j → (key, i, l) ∈ d.dests → (key, j, m) ∈ d.dests →
    d.before.dead = false → d.before.fetchTrap = none → d.stall = false → d.wait ≠ some false → d.wheel = false →
    (⟨i, trapConflict, 0⟩ : TrapInfo) ∈ d.conflicts ∧ (⟨j, trapConflict, 0⟩ : TrapInfo) ∈ d.conflicts ∧
    ∃ t, d.ending = .traps t ∧ (t.slot < i ∨ (t.slot = i ∧ t.code ≤ trapConflict)))

/-- R166: "S0 reads as zero, and a write to it is discarded." and "P0 reads as all ones, and a write to it is
discarded."; a write of another register is read back, and no other register changes. -/
def Obligations.HardWiredRegisters : Prop :=
  ∀ (b : CoreBody) (v : Word) (m : BitVec 64) (r q : Nat),
    b.sr 0 = 0 ∧ b.setS 0 v = b ∧ b.pr 0 = BitVec.allOnes 64 ∧ b.setP 0 m = b ∧
    (r ≠ 0 → (b.setS r v).sr r = v ∧ (b.setP r m).pr r = m) ∧
    (q ≠ r → (b.setS r v).sr q = b.sr q ∧ (b.setP r m).pr q = b.pr q)

/-! ### The units of a core (05_core_program.md R182, R188, R189, R194; 04 R150, R151; 06 R226) -/

/-- R188, R189, R194, 04 R150, R151, 06 R223, R227: the accesses of a core. A load at the head of its queue takes the
Pantry's bytes into its register, usable seven cycles later; a store joins the writes of its cycle, through slot 4, and a
write of an earlier slot that it meets yields to it at the cycle's end; a FILL or COPY starts its accesses, of which cycle
k of a FILL writes chunk k; the next plane of a walk begins when there is room for it, and a plane is ready in the seventh
cycle after its last access, with the elements that the words it read hold. -/
def Obligations.CoreAccesses : Prop :=
  ∀ (s : State) (p : CoreIx) (x : LoadEntry) (y : StoreEntry) (z : DmaEntry) (q : List DmaEntry) (w : Walk)
    (u : PantryWrite) (a n k : Nat) (v : Word), s.unitFree p →
    let b := s.before p
    let size : Nat := if x.vec then 256 else 4
    let data := s.mem.bytes (pantryAddr p x.addr) size
    let key := if x.vec then keyV x.reg else keyS x.reg
    let chunk := (List.replicate (8 * (chunkAt n k).2) (leBytes 4 v.toNat)).flatten
    (b.loadDue = some x → s.mem.cleanAt (pantryAddr p x.addr) size → exec (.loadAccess p) s =
      .next (s.withBody p { (if x.vec then b.setV x.reg (Vec.ofBytes data) else b.setS x.reg (BitVec.ofNat 32 (leNat data)))
        with
          loadQ := b.loadQ.drop 1
          loading := b.loading.erase key
          lastLoad := some b.cycle
          ready := if key = keyS 0 then b.ready else Tbl.put (fun _ => 0) b.ready key (b.cycle + 7) })) ∧
    (b.storeDue = some y → b.canIssue = true → (∀ r ∈ y.runs, r.2 ≠ []) → ∃ t, exec (.storeAccess p) s = .next t ∧
      t.mem = s.mem ∧ s.onlyCore t p ∧
      t.before p = { b with
        storeQ := b.storeQ.drop 1, lastStore := some (b.cycle, y.unit)
        writes := b.writes ++ y.runs.map fun r => (⟨4, r.1, r.2, false⟩ : PantryWrite) }) ∧
    (b.writes = [u] → u.data ≠ [] → u.slot < 8 → s.mem.cleanAt (pantryAddr p u.addr) u.data.length →
      let e := (Eff.start s.hw s.mem).settleWrites p
      (e.hw.body p).writes = [] ∧
      (∀ i (h : i < u.data.length), e.mem.byte (pantryAddr p u.addr + i) = u.data[i]) ∧
      (∀ g, (g < pantryAddr p u.addr ∨ pantryAddr p u.addr + u.data.length ≤ g) → e.mem.byte g = s.mem.byte g)) ∧
    (b.dmaQ = z :: q → z.started = false → (z.kind = .fill a n v ∨ z.kind = .copy a k n) → s.hw.noStart b.ctxId = false →
      exec (.fillCopyStart p) s = .next (s.withBody p { b with dmaQ := { z with started := true } :: q })) ∧
    (b.canIssue = true → (chunkAt n k).2 ≠ 0 → (Eff.start s.hw s.mem).fillCycle p a n v k =
      Eff.start (s.withBody p { b with writes := b.writes ++ [⟨5, a + (chunkAt n k).1, chunk, false⟩] }).hw s.mem) ∧
    (b.walk = some w → w.back = none → w.nextLoad < b.genP.planes → (w.front = none ∨ w.col ≠ 0) →
      exec (.planeLoadBegin p) s = .next (s.withBody p { b with
        walk := some (if w.front = none then { w with front := some (Plane.begin_ w.nextLoad), nextLoad := w.nextLoad + 1, col := 0 }
                      else { w with back := some (Plane.begin_ w.nextLoad), nextLoad := w.nextLoad + 1 }) })) ∧
    (b.walk = some w →
      let one (l : Plane) : Plane :=
        if l.ready = false ∧ l.cyc = b.genP.accesses + 6 then
          { l with ready := true, elems := b.genP.planeElems b ⟨l.words, p⟩ l.index }
        else l
      exec (.planeReady p) s =
        .next (s.withBody p { b with walk := some { w with front := w.front.map one, back := w.back.map one } }))

/-! ### Hatch messages (06_pantry_loft_gather.md R252 to R260) -/

/-- R226, R255: a Hatch write that reaches its owner. One that passes the checks enters the arrival buffer with its
address; of the others, the first check that fails decides the answer: FAULT_FIREWALL for a sender that is not
admitted, STALE_HATCH for a Hatch that is closed or another generation, FAULT_PERMISSION for a write past its
range. What waits on the engine's counters is then evaluated again. R179, R197, R223, R226, R252, R255, R258:
what follows an arrival. Slot 6 writes exactly the bytes of the oldest one whose Hatch still stands, at the end
of the cycle while the core issues, counts it and answers OK; an answer advances the counter of its HPUT and
sets the flag of its status; a notice sets the directory entry, and a CLOSE awaits a reply; a reply to a close
of a core's Hatch is counted off. -/
def Obligations.Hatches : Prop :=
  (∀ (s : State) (n src dst logical part k offset item ctx gen : Nat) (stamp : BitVec 8) (data : List Byte)
    (poison : List Bool) (hput : Option Nat) (age : DWord),
    s.hw.arrivable n = some ⟨src, dst, .write logical part k offset stamp data poison hput item ctx gen age⟩ →
    dst ≠ stopCaller → dst ≠ stopPartner → (s.before dst).arrivals.length < 32 →
    let b := s.before dst
    let x := b.hatch k
    let admitted := s.hw.admits src dst logical x = true
    let current := x.isOpen = true ∧ stamp = x.gen
    let left := s.hw.loft.mesh.eraseIdx n
    let answered (st : Status) : Prop :=
      ∃ t, exec (.hatchArrival n) s = .next t.rechecked ∧ s.quiet t ∧ t.hw.regs = s.hw.regs ∧
        t.hw.loft.mesh = left ++ [⟨dst, src, .answer st hput item ctx gen⟩]
    (admitted → current → offset + 8 ≤ x.words → granulesUp (s.hw.up dst) (32 * (x.base + offset)) 256 = true →
      ∃ t, exec (.hatchArrival n) s = .next t.rechecked ∧ t.mem = s.mem ∧ s.onlyCore t dst ∧ t.hw.regs = s.hw.regs ∧
        t.hw.loft.mesh = left ∧
        t.before dst = { b with
          arrivals := b.arrivals ++ [⟨32 * (x.base + offset), data, poison, k, stamp, src, hput, item, ctx, gen⟩]
          hatches := (b.setHatch k { x with accepted := x.accepted + 1 }).hatches }) ∧
    (¬ admitted → answered Status.faultFirewall) ∧
    (admitted → ¬ current → answered Status.staleHatch) ∧
    (admitted → current → x.words < offset + 8 → answered Status.faultPermission)) ∧
  (∀ (s : State) (p : CoreIx) (a : Arrival) (as : List Arrival) (n src dst cnt item ctx gen key l : Nat) (st : Status)
    (g : BitVec 8) (open_ : Bool) (rs : List (Nat × Nat × BitVec 8)),
    (let b := s.before p
     let x := b.hatch a.hatch
     let done (b : CoreBody) : CoreBody := ((({ b with arrivals := as } : CoreBody).setHatch a.hatch
       { x with accepted := x.accepted - 1 }).countC x.cnt 1)
     b.arrivals = a :: as → x.isOpen = true → x.gen = a.gen →
      ∃ t, exec (.arrivalWrite p) s = .next t ∧ s.onlyCore t p ∧
        t.hw.loft.mesh = s.hw.loft.mesh ++ [⟨p, a.src, .answer Status.ok a.hput a.item a.ctx a.ctxGen⟩] ∧
        (b.canIssue = true → s.hw.held p = false →
          t.mem = s.mem ∧ t.before p = done { b with writes := b.writes ++ slotPieces 6 a.addr a.data a.poison }) ∧
        (b.canIssue = false → b.writes = [] → a.data.length % 32 = 0 → a.addr % 32 = 0 →
          s.putsBytes t (pantryAddr p a.addr) a.data ∧ t.before p = done b)) ∧
    (let b := s.before dst
     s.hw.arrivable n = some ⟨src, dst, .answer st (some cnt) item ctx gen⟩ → dst ≠ stopPartner →
     b.runs ctx gen = true → st ≠ Status.faultFirewall → st ≠ Status.faultPermission →
      ∃ t, exec (.hatchAnswer n) s = .next t ∧ t.mem = s.mem ∧ s.onlyCore t dst ∧
        t.hw.loft.mesh = s.hw.loft.mesh.eraseIdx n ∧
        t.before dst = { b.countC cnt 1 with
          hputs := b.hputs.erase cnt
          flags := b.flags ||| (if st = Status.staleHatch then 4 else if st = Status.undelivered then 8 else 0) }) ∧
    (s.hw.arrivable n = some ⟨src, dst, .notice key g open_⟩ → dst ≠ stopPartner →
      ∃ t, exec (.hatchNotice n) s = .next t ∧ t.mem = s.mem ∧ s.onlyCore t dst ∧
        t.before dst = (s.before dst).setDir key ⟨g, open_⟩ ∧ t.hw.loft.mesh = s.hw.loft.mesh.eraseIdx n ∧
        t.hw.loft.replies = if open_ then s.hw.loft.replies else s.hw.loft.replies ++ [(dst, key, g)]) ∧
    (let o := s.hw.phys (key / 16)
     let x := (s.before o).hatch (key % 16)
     s.hw.loft.replies = (p.val, key, g) :: rs → key < 1024 → s.hw.writesOut p key = false → s.hw.logicalOf p = some l →
     x.closing = true → x.gen = g →
      ∃ t, exec (.hatchCloseReply p key) s = .next t.rechecked ∧ t.mem = s.mem ∧ s.onlyCore t o ∧ t.hw.loft.replies = rs ∧
        t.before o = (s.before o).setHatch (key % 16) { x with awaiting := x.awaiting.erase l }))

/-! ### Core DMA and Gather Units (09_translation_dma_memory_ports.md R376 to R381; 06 R236, R237, R261 to R270) -/

/-- R376, R377: the first core DMA item that may start does so when its descriptor passes the checks and its Pantry
side lies within the bound, and an item whose transfer is complete advances its counter and leaves the queue. 06
R223, R225, R236, R237: a piece from the Loft to the Pantry is served once slot 5 is free, its way is not being
cleared, the partition may read it and its granules are up: the bytes move through slot 5, at the end of the
cycle while the core issues, and nothing else in memory changes. R380, R381: the engine DMA item served first
takes the lowest free channel when its descriptor passes the checks, and an item of which every byte is at its
destination leaves its channel. -/
def Obligations.DmaItems : Prop :=
  (∀ (s : State) (p : CoreIx) (x : DmaEntry) (d : Desc) (id : Nat),
    let b := s.before p
    (s.hw.dmaNextStart p = some x → x.desc = some d → d.ok = true → d.kind ≠ 7 →
      (d.total = 0 ∨ d.hasPantry = false ∨ b.inBound d.pantry (d.extent d.pantryPitch) = true) →
      ∃ t, exec (.coreDmaItemStart p) s = .next t ∧ t.mem = s.mem ∧ s.onlyCore t p ∧ t.hw.regs = s.hw.regs ∧
        t.before p = { b with dmaQ := b.dmaQ.map fun y => if y.id = x.id then { y with started := true } else y }) ∧
    (b.dma id = some x → x.complete = true →
      ∃ t, exec (.coreDmaItemComplete p id) s = .next t ∧ t.mem = s.mem ∧ s.onlyCore t p ∧ t.hw.regs = s.hw.regs ∧
        t.before p = { b.countC x.cnt 1 with dmaQ := b.dmaQ.filter fun y => y.id != id })) ∧
  (∀ (s : State) (p : CoreIx) (x : DmaEntry) (d : Desc) (id : Nat),
    let b := s.before p
    let n := d.piece x.issued
    let w := d.loftWord x.issued
    let a := b.dmaByte d x.issued
    b.dma id = some x → x.desc = some d → x.started = true → x.paused = false → d.kind = 2 → x.issued < d.total →
    n % 32 = 0 → s.hw.loftBusy w = false → s.hw.loftOk b.part w (n / 32) false = true →
    s.hw.slot5Busy p = false → s.hw.unitWaits (.coreDma p id 0) = false → granulesUp (s.hw.up p) a n = true →
    let bs := s.mem.bytes (loftAddr w) n
    let pz := s.mem.poisons (loftAddr w) (n / 32)
    let q := b.dmaQ.map fun y => if y.id = id then { y with issued := y.issued + n, acked := y.acked ++ [(x.issued, n)] } else y
    ∃ t, exec (.loftRequest p id) s = .next t ∧ s.onlyCore t p ∧
      (b.canIssue = true → t.mem = s.mem ∧
        t.before p = { b with dmaQ := q, writes := b.writes ++ slotPieces 5 a bs pz }) ∧
      (b.canIssue = false → b.writes = [] →
        s.putsBytes t (pantryAddr p a) bs ∧ t.before p = { b with dmaQ := q })) ∧
  (∀ (s : State) (c : Nat) (ch : Fin 16) (d : EngineDma),
    (s.hw.engineNext = some d → (List.range 16).find? (fun k => (s.hw.onChannel k).isNone) = some c →
      (edescOf d.desc).ok d.desc = true →
      ∃ t, exec .engineDmaStart s = .next t ∧ s.quiet t ∧ t.hw.regs = s.hw.regs ∧
        t.hw.atu.engineDma = s.hw.atu.engineDma.map fun x =>
          if x.item = d.item then { x with channel := some c } else x) ∧
    (s.hw.onChannel ch = some d → d.paused = false → (edescOf d.desc).total ≤ d.done →
      ∃ t, exec (.engineDmaComplete ch) s = .next t ∧ s.quiet t ∧
        t.hw.atu.engineDma = s.hw.atu.engineDma.filter fun x => x.item != d.item))

/-- R261, R262: a GATHER item's job is read from the Pantry and queued at the unit it names; a unit that runs no job
of the partition starts the next one whose checks pass and whose destination lies within the bound. R223, R226,
R264, R267 to R270: a row that is complete counts in GU_ROWS; an output whose rows are in is written through
slot 6 of the destination core, and its grains are counted there; a job with every output written, or one that
was stopped and has no fetch outstanding, leaves its unit, and its status block is written through slot 5 of its
core. The writes take effect at the end of the cycle while the core issues. -/
def Obligations.GatherUnits : Prop :=
  (∀ (s : State) (p : CoreIx) (gu : Fin 4) (part : Fin 16) (x : DmaEntry) (d : Desc) (id dst : Nat) (j : GatherJob),
    (let b := s.before p
     let a := b.phys d.pantry
     let gjd := s.mem.bytes (pantryAddr p a) 128
     let g := gjdOf gjd
     b.dma id = some x → x.desc = some d → x.started = true → x.paused = false → d.kind = 7 → x.issued = 0 →
     s.hw.noStart b.ctxId = false → s.hw.slot5Busy p = false → granulesUp (s.hw.up p) a 128 = true →
     (s.hw.gatherQ g.gu).length < 64 → s.hw.jobsEnd b.part = false →
      ∃ t new, exec (.gatherJobAccept p id) s = .next t ∧ t.mem = s.mem ∧ s.onlyCore t p ∧
        t.hw.gatherQ g.gu = s.hw.gatherQ g.gu ++ [new] ∧ new.core = p.val ∧ new.dma = id ∧ new.gjd = gjd ∧ new.at_ = a ∧
        new.part = b.part ∧ new.started = false ∧ new.ended = false ∧ new.outDone = [] ∧ new.status = 0) ∧
    (s.hw.runningJob gu part = none →
     (s.hw.gatherQ gu).find? (fun y => y.part == part.val && !y.started && !y.ended) = some j →
     s.hw.job gu j.core j.dma = some j → s.hw.noStart j.ctx = false → j.g.check = none → s.hw.gatherDest j = some dst →
     (s.before dst).inBound j.g.destAddr j.g.extent = true → j.g.indexVa = true → j.g.indexLen ≠ 0 → j.got = [] →
      ∃ t, exec (.gatherJobStart gu part) s = .next t ∧ s.quiet t ∧ t.hw.regs = s.hw.regs ∧
        t.hw.gatherQ gu = (s.hw.gatherQ gu).map fun y => if y.core = j.core ∧ y.dma = j.dma then { y with
          started := true
          segs := [(j.g.indexAddr % 2 ^ 48, j.g.indexLen), (j.g.aux % 2 ^ 48, j.g.auxLen)] } else y)) ∧
  (∀ (s : State) (p : CoreIx) (gu : Fin 4) (dma k dst : Nat) (j : GatherJob) (bs idx aux : List Byte) (z ib ab : Bool)
    (rows : List (Option (List Byte × List Bool))), s.hw.job gu p dma = some j →
    let upd (f : GatherJob → GatherJob) : List GatherJob :=
      (s.hw.gatherQ gu).map fun y => if y.core = p.val ∧ y.dma = dma then f y else y
    (j.planned = true → (j.segs.getD (2 + k) (0, 0)).2 ≠ 0 → j.seg (2 + k) = some (bs, z) →
      ∃ t, exec (.gatherRowReturn gu p dma k) s = .next t ∧ s.quiet t ∧
        t.hw.gatherQ gu = upd (fun y => { y with
          rows := Tbl.put (fun _ => none) y.rows k (some (bs, y.segPoison (2 + k) bs.length))
          got := y.got.filter fun v => v.1 != 2 + k
          flying := y.flying - 1
          fetched := y.fetched + 1 }) ∧
        t.hw.reg64 (Reg.guRows gu) = (s.hw.reg64 (Reg.guRows gu) + 1) % 2 ^ 64) ∧
    (j.planned = true → j.ended = false → j.paused = false → j.outDone.contains k = false → k < j.g.outputs →
     j.rowsOf k = some rows → s.hw.gatherDest j = some dst → j.seg 0 = some (idx, ib) → j.seg 1 = some (aux, ab) →
     let out := (j.g.output idx aux k rows).1
     let a := (s.before dst).phys (j.g.destAddr + k * j.g.destPitch)
     let grains := j.grainsDone (j.outDone ++ [k])
     let pz := if ib || ab then List.replicate (out.length / 32) true else (j.g.output idx aux k rows).2
     let d := s.before dst
     out.length % 32 = 0 → granulesUp (s.hw.up dst) a out.length = true → d.arrivals = [] →
      ∃ t, exec (.gatherOutputWrite gu p dma k) s = .next t ∧ s.onlyCore t dst ∧
        t.hw.gatherQ gu = upd (fun y => { y with outDone := j.outDone ++ [k], grains }) ∧
        (d.canIssue = true → s.hw.held dst = false → t.mem = s.mem ∧
          t.before dst = ({ d with writes := d.writes ++ slotPieces 6 a out pz } : CoreBody).countC j.g.destCnt
            (grains - j.grains)) ∧
        (d.canIssue = false → d.writes = [] →
          s.putsBytes t (pantryAddr dst a) out ∧ t.before dst = d.countC j.g.destCnt (grains - j.grains))) ∧
    (let left := (s.hw.gatherQ gu).filter fun y => !(y.core == p.val && y.dma == dma)
     let c := s.before j.core
     let fin (c : CoreBody) : CoreBody := if c.runs j.ctx j.gen then
       { c with dmaQ := c.dmaQ.map fun y => if y.id = j.dma then { y with jobDone := true } else y } else c
     let ends (i : Instr) (st : Nat) : Prop :=
       s.hw.slot5Busy j.core = false → granulesUp (s.hw.up j.core) (j.at_ + 96) 32 = true →
       ∃ t, exec i s = .next t ∧ s.onlyCore t j.core ∧ t.hw.gatherQ gu = left ∧
       (c.canIssue = true → t.mem = s.mem ∧ t.before j.core =
         fin { c with writes := c.writes ++ [⟨5, j.at_ + 96, j.statusBytes st s.hw.now, false⟩] }) ∧
       (c.canIssue = false → c.writes = [] →
         s.putsBytes t (pantryAddr j.core (j.at_ + 96)) (j.statusBytes st s.hw.now) ∧ t.before j.core = fin c)
     (j.planned = true → j.ended = false → j.paused = false → leadLen j.outDone = j.g.outputs →
       ends (.gatherStatusWrite gu p dma) Status.ok) ∧
     (j.ended = true → s.hw.fetching gu p dma = false → ends (.gatherJobCancel gu p dma) j.status)))

/-! ### Scrubbers, granules and the Loft (06_pantry_loft_gather.md R230 to R234, R240 to R246) -/

/-- R230, R231, R240: a scrubber that is on reads its next unit of a powered granule and keeps the words with one
bit in error for their write-back, which mends them and changes no byte; a slice's scrubber mends its unit at
once. R232, R233, R246: a granule that powers down at its boundary loses its bytes and its UP bit, one that slot
7 has cleared reads zero and is up, and a way that is cleared reads zero in every slice where no write waited
for it; no other byte changes. R242 to R245: the Loft cache. A fill that is complete leaves the outstanding
ones; an invalidation takes the lines it covers out at once and is busy until the last one is done; while one is
in progress a further one is refused. -/
def Obligations.MemoryUpkeep : Prop :=
  (∀ (s : State) (p : CoreIx) (slice : Fin 16) (u n : Nat) (ws : List Nat),
    let word (i : Nat) : Nat := pantryAddr p (32 * i)
    let fix := ((List.range 8).map fun i => 8 * u + i).filter fun i => s.mem.state (word i) = .single
    (s.hw.regBit (Reg.pantryScrub p) 4 = true → (s.hw.scrub p).back = none → s.hw.inJoker p = false →
     (s.before p).run ≠ .off → s.hw.scrubNext p (s.hw.scrub p).next = some u →
      ∃ t, exec (.scrubUnit p) s = .next t ∧ s.quiet t ∧
        t.hw.scrub p = ⟨(u + 1) % 16384, if fix.isEmpty then none else some (u, fix)⟩) ∧
    ((s.hw.scrub p).back = some (u, ws) → s.hw.inJoker p = false →
      ∃ t, exec (.scrubWriteBack p) s = .next t ∧ t.hw.cores = s.hw.cores ∧ t.mem.cells = s.mem.cells ∧
        (t.hw.scrub p).back = none ∧
        (∀ i ∈ ws, s.mem.state (word i) = .single → t.mem.state (word i) = .clean) ∧
        (∀ a, s.mem.state a ≠ .single → t.mem.state a = s.mem.state a)) ∧
    (let at_ := (s.hw.scrub (100 + slice)).next
     let way := at_ / 1024 % 16
     let v := if n = way then at_ % 16384 else 1024 * n
     let w0 := slice * 2 ^ 17 + 8 * v
     s.hw.regBit Reg.loftScrub 4 = true → s.hw.sliceOff slice = false →
     ((List.range 16).map fun i => (way + i) % 16).find? (fun i => s.hw.regFld (Reg.loftWay i) 9 8 == 0) = some n →
      ∃ t, exec (.loftScrubUnit slice) s = .next t ∧ t.hw.cores = s.hw.cores ∧ t.mem.cells = s.mem.cells ∧
        t.hw.scrub (100 + slice) = ⟨(v + 1) % 16384, none⟩ ∧
        (∀ i, i < 8 → t.mem.state (loftAddr (w0 + i)) ≠ .single) ∧
        (∀ a, s.mem.state a ≠ .single → t.mem.state a = s.mem.state a))) ∧
  (∀ (s : State) (p : CoreIx) (k way : Fin 16),
    let lo := pantryAddr p (k * 2 ^ 18)
    let o := Reg.pantryGranuleState p
    let zeroed (t : State) : Prop :=
      (∀ a, lo ≤ a → a < lo + 2 ^ 18 → t.mem.byte a = 0) ∧
      (∀ a, (a < lo ∨ lo + 2 ^ 18 ≤ a) → t.mem.byte a = s.mem.byte a)
    let base (n : Nat) : Nat := loftAddr (n * 2 ^ 17 + way * 8192)
    (s.hw.regBit o (16 + k) = true → s.hw.granuleFree p = true →
      ∃ t, exec (.granulePowerDown p k) s = .next t ∧ zeroed t ∧ t.hw.cores = s.hw.cores ∧ s.onlyRegs t [o] ∧
        t.hw.regBit o k = false ∧ t.hw.regBit o (16 + k) = false) ∧
    (s.hw.loft.granules.contains (16 * p + k) = true → s.hw.inJoker p = false →
      ∃ t, exec (.granuleClearDone p k) s = .next t ∧ zeroed t ∧ t.hw.cores = s.hw.cores ∧ s.onlyRegs t [o] ∧
        t.hw.regBit o k = true ∧ t.hw.loft.granules = s.hw.loft.granules.erase (16 * p + k)) ∧
    (s.hw.loft.clearing.contains way.val = true → s.hw.loft.waiting = [] →
      ∃ t, exec (.loftWayClearDone way) s = .next t ∧ t.hw.cores = s.hw.cores ∧ t.hw.regs = s.hw.regs ∧
        (∀ n a, n < 16 → base n ≤ a → a < base n + 2 ^ 18 → t.mem.byte a = 0) ∧
        (∀ a, (∀ n, n < 16 → a < base n ∨ base n + 2 ^ 18 ≤ a) → t.mem.byte a = s.mem.byte a) ∧
        t.hw.loft.clearing = s.hw.loft.clearing.filter fun x => x != way.val)) ∧
  (∀ (s : State) (part : Fin 16) (range : Bool) (n : Nat) (f : CacheFill) (v : CacheInv),
    let c : Instr := if range then .loftInvRange part else .loftInvPartition part
    let base := s.hw.reg64 Reg.loftInvBase % 2 ^ 48
    let size := s.hw.reg64 Reg.loftInvSize % 2 ^ 48
    let covers (la : Nat) : Bool := !range || (decide (128 * la < base + size) && decide (base < 128 * la + 128))
    (s.hw.loft.fills[n]? = some f → f.ready = true →
      ∃ t, exec (.loftCacheFill n) s = .next t ∧ s.quiet t ∧ t.hw.loft.fills = s.hw.loft.fills.eraseIdx n ∧
        (f.install = false → t.hw.loft.lines = s.hw.loft.lines)) ∧
    (s.serves Reg.loftInvCtrl → s.hw.regBit Reg.loftInvStatus 0 = false → (range = true → size ≠ 0) →
      ∃ t, exec c s = .next t ∧ s.quiet t ∧ s.onlyRegs t [Reg.loftInvStatus] ∧
        t.hw.regBit Reg.loftInvStatus 0 = true ∧
        t.hw.loft.lines = s.hw.loft.lines.filter fun x => !((s.hw.cacheWays part).contains x.way && covers x.la)) ∧
    (s.serves Reg.loftInvCtrl → s.hw.regBit Reg.loftInvStatus 0 = true →
      ∃ t, exec c s = .next t ∧ s.quiet t ∧ s.onlyRegs t [Reg.loftInvStatus] ∧
        t.hw.regBit Reg.loftInvStatus 1 = true ∧ t.hw.loft = s.hw.loft) ∧
    (s.hw.loft.inv[n]? = some v → v.item = none →
      ∃ t, exec (.loftInvDone n) s = .next t ∧ s.quiet t ∧ t.hw.loft.inv = s.hw.loft.inv.eraseIdx n ∧
        t.hw.regBit Reg.loftInvStatus 0 =
          (!(s.hw.loft.inv.eraseIdx n).isEmpty && s.hw.regBit Reg.loftInvStatus 0)))

/-! ### The memory ports and the Fault Ring (09_translation_dma_memory_ports.md R353 to R399) -/

/-- R362 to R364, R373, R389, R391: an access of a unit none of whose records waits, with a free tag, is translated
by its port's buffer, and its request goes out with the leaf's address, or a walk begins at the context's root:
the miss is counted and the first entry is read. R357 to R363: the read of a valid leaf that admits the access
ends its walk: the port's buffer holds it, and the access goes out at the address that the leaf gives. -/
def Obligations.AddressTranslation : Prop :=
  (∀ (s : State) (k : Asker) (e : Eff) (a : Access) (leaf : TbEntry) (tag tag' : Nat) (c : Ctx),
    let h := e.hw
    let port := portOf a.va
    let pa := leafPa leaf.level leaf.leaf a.va
    let first := c.root + 8 * tableIndex 3 a.va
    (Eff.start s.hw s.mem).next k = (e, some a) → a.write = false → a.only = false → h.loftSide a = none →
    h.unitWaits a.who = false → (h.port port).freeTag = some tag →
    ((h.port port).lookup a.ctx a.gen a.va = some leaf → leafAdmits leaf.leaf false = true →
     h.admitted pa a.part false false = true → (a.cache && entryC leaf.leaf) = false →
      ∃ t r q, exec (.addressTranslate k) s = .next t ∧ t.mem = s.mem ∧
        (t.hw.port port).reqs = (h.port port).reqs ++ [r] ∧ r.tag = tag ∧ r.pa = pa ∧ r.bytes = a.bytes ∧
        r.write = false ∧ r.who = a.who ∧ r.fill = none ∧
        t.hw.outs = .request port tag r.base (64 * r.beats) false a.ctx a.gen a.part false q :: h.outs ∧
        t.hw.reg64 (Reg.tbHits port) = (h.reg64 (Reg.tbHits port) + 1) % 2 ^ 64) ∧
    ((h.port port).lookup a.ctx a.gen a.va = none → (h.port port).walkStart a.ctx a.gen a.va = none →
     h.ctx? a.ctx = some c → h.walking a = false → (h.paused a.ctx && !a.nopause) = false →
     (h.atu.walks.filter fun w => w.port == port).length < 64 → h.admitted first a.part false false = true →
     (h.port (portOf first)).freeTag = some tag' →
      ∃ t q w, exec (.addressTranslate k) s = .next t ∧ t.mem = s.mem ∧ w ∈ t.hw.atu.walks ∧ w.acc = a ∧
        w.level = 3 ∧ w.stage = .reading ∧
        t.hw.outs = .request (portOf first) tag' (first / 64 * 64) 64 false a.ctx a.gen a.part false q :: h.outs ∧
        t.hw.reg64 (Reg.tbMisses port) = (h.reg64 (Reg.tbMisses port) + 1) % 2 ^ 64)) ∧
  (∀ (s : State) (port : Fin 8) (tag id : Nat) (data : List Byte) (r : Req) (w : WalkRun),
    let pa := w.table + 8 * tableIndex w.level w.acc.va
    let x : DWord := BitVec.ofNat 64 (leField data (pa % 64) 8)
    let shift := leafShift w.level x
    s.hw.portsReset = false → s.hw.atu.own = [] → w.acc.only = false →
    (s.hw.port port).reqs.find? (fun y => y.tag == tag && !y.write) = some r → r.who = .walk id →
    r.pa = pa / 64 * 64 → r.bytes = 64 → r.beat = 0 → r.fill = none → s.hw.late r = false → data.length = 64 →
    s.hw.atu.walks.find? (fun y => y.id == id) = some w → (∀ y ∈ s.hw.atu.walks, y.stage = .reading) →
    entryV x = true → entryReserved w.level x = false → entryLeaf x = true → leafAdmits x w.acc.write = true →
    s.hw.admitted (leafPa w.level x w.acc.va) w.acc.part false w.acc.write = true → (w.acc.cache && entryC x) = false →
    (s.hw.port w.port).freeTag.isSome = true →
    ∃ t r', exec (.walkReadReturn port tag data false 0) s = .next t ∧ t.mem = s.mem ∧
      (t.hw.port w.port).tb.head? = some ⟨w.acc.ctx, w.acc.gen, w.acc.va / 2 ^ shift, w.level, x, pa⟩ ∧
      (∀ y ∈ t.hw.atu.walks, y.id ≠ id) ∧ r' ∈ (t.hw.port w.port).reqs ∧ r'.who = w.acc.who ∧
      r'.pa = leafPa w.level x w.acc.va ∧ r'.write = w.acc.write)

/-- R392 to R395: the responses. The single beat of a read frees its tag, counts its bytes and hands them to their engine
DMA item; the OK response of a core DMA write frees its tag, counts its bytes and tells the item that they are written; that
of the last write of a transfer of the engine's own lets what depends on it follow. While the ports are in reset no response
is taken. -/
def Obligations.PortResponses : Prop :=
  ∀ (s : State) (port : Fin 8) (tag p id o item : Nat) (data : List Byte) (r : Req) (x : EngineDma) (j : OwnJob),
    let wr : Instr := .kfpWriteResponse port tag 0
    let rd : Instr := .kfpReadResponse port tag 0 data false true 0
    (s.hw.portsReset = true → exec wr s = .next (s.withHw s.hw.ownSettle) ∧ exec rd s = .next s) ∧
    (s.hw.portsReset = false → (∀ y ∈ s.hw.atu.walks, y.stage = .reading) → s.hw.late r = false →
    let left := (s.hw.port port).reqs.filter fun y => y.tag != tag
    let counted (t : State) (reg n : Nat) : Prop := t.hw.reg64 reg = (s.hw.reg64 reg + n) % 2 ^ 64
    (s.hw.atu.own = [] → (s.hw.port port).reqs.find? (fun y => y.tag == tag && !y.write) = some r →
     r.who = .engineDma item o → r.beat = 0 → r.beats = 1 → r.fill = none → 0 < r.bytes → s.hw.engine item = some x →
     (edescOf x.desc).kind ≠ 2 →
      ∃ t, exec rd s = .next t ∧ s.quiet t ∧
        (t.hw.port port).reqs = left ∧ counted t (Reg.kfpRdBytes port) r.bytes ∧
        s.onlyRegs t [Reg.kfpRdBytes port, Reg.kfpRdBytes port + 4] ∧
        t.hw.atu.engineDma = s.hw.atu.engineDma.map fun y => if y.item = item then
          { y with buf := y.buf ++ [(o, sliceBytes data (r.pa % 64) r.bytes, false)] } else y) ∧
    ((s.hw.port port).reqs.find? (fun y => y.tag == tag && y.write) = some r →
      (s.hw.atu.own = [] → r.who = .coreDma p id o →
      ∃ t, exec wr s = .next t ∧ t.mem = s.mem ∧ s.onlyCore t p ∧
        (t.hw.port port).reqs = left ∧ counted t (Reg.kfpWrBytes port) r.bytes ∧
        s.onlyRegs t [Reg.kfpWrBytes port, Reg.kfpWrBytes port + 4] ∧
        t.before p = { s.before p with dmaQ := (s.before p).dmaQ.map fun y =>
          if y.id = id then { y with acked := y.acked ++ [(o, r.bytes)] } else y }) ∧
      (r.who = .own j.id o → s.hw.atu.own = [j] → j.write = true → j.paused = false → j.total ≤ j.issued →
       let j' := { j with acked := j.acked ++ [(o, r.bytes)] }
       let h := (((s.hw.dropReq port tag).dropLines r.pa r.bytes).addReg64 (Reg.kfpWrBytes port) r.bytes).ownAcked j.id o
         r.bytes false
       j.total ≤ j'.done → exec wr s = .next (s.withHw
         (let g := (h.dropOwn j.id).ownGoal j'
          if j.sys then g else g.evictDone j.ctx)))))

/-- R354, R372, R373: the Fault Ring. A record that may be written goes to the slot that TAIL names, as a system
write; with its responses TAIL moves on and the record waits no more; one that the firewall denies, or that may
not have been performed, stops the ring. A HEAD that leaves at most the ring's size unread is taken, any other
sets its error bit. R374, R375: RESUME ends the pause of a paused context and answers OK; RESUME and KILL of a
context that does not exist or is not paused answer CONFIG_CONFLICT, and a KILL of a paused one answers OK.
R365, R366: an invalidation takes the entries of its scope from the buffers of every port and is busy until each
request that was outstanding has its response; while one is at work a further one is refused. -/
def Obligations.FaultsAndInvalidation : Prop :=
  (∀ (s : State) (n : Nat) (f : FaultRec) (v : Word),
    let c := s.hw.reg Reg.faultRingCtrl
    let tail := s.hw.reg Reg.faultTail
    let head := s.hw.reg Reg.faultHead
    let size := 2 ^ ringLog c
    let pa := s.hw.ringBase Reg.faultRingBase + 64 * (tail.toNat % size)
    let d := match f.who with | some w => s.hw.doneOf w | none => f.bytesDone
    let ready := s.hw.atu.faults[n]? = some f ∧ bitOf c 0 = true ∧ (tail - head).toNat < size ∧
      s.hw.faultRecFlies = false ∧
      (∀ g ∈ s.hw.atu.faults.take n, g.unit_ = f.unit_ → g.index ≠ f.index) ∧
      (∀ w, f.who = some w → s.hw.flying w = false)
    let stopped (h : Hw) : Hw := (h.setRegBit Reg.faultRingCtrl 0 false).setRegBit Reg.faultStatus 0 true
    (ready → s.hw.admitted pa 0 true true = true →
      exec (.faultRecordWrite n) s = .next (s.withHw ((s.hw.updAtu fun a =>
        { a with faults := a.faults.map fun g => if g.seq = f.seq then { g with bytesDone := d } else g }).sysWrite pa
          ({ f with bytesDone := d } : FaultRec).bytes (.faultRing f.seq)))) ∧
    (ready → s.hw.admitted pa 0 true true = false →
      exec (.faultRecordWrite n) s = .next (s.withHw (stopped s.hw))) ∧
    (s.hw.faultRingDone f.seq true = stopped s.hw) ∧
    (s.hw.atu.faults.find? (fun g => g.seq == f.seq) = some f →
      let h := s.hw.faultRingDone f.seq false
      h.reg Reg.faultTail = tail + 1 ∧ h.atu.faults = s.hw.atu.faults.filter fun g => g.seq != f.seq) ∧
    (s.serves Reg.faultHead → (tail - v).toNat ≤ size →
      exec (.faultHeadWrite v) s = .next (s.withHw (s.hw.setReg Reg.faultHead v))) ∧
    (s.serves Reg.faultHead → size < (tail - v).toNat →
      ∃ t, exec (.faultHeadWrite v) s = .next t ∧ s.quiet t ∧ s.onlyRegs t [Reg.faultStatus] ∧
        t.hw.regBit Reg.faultStatus 1 = true)) ∧
  (∀ (s : State) (c : Fin 4096) (x : Ctx), s.serves Reg.ctxOp →
    let result (t : State) : Nat := t.hw.regFld Reg.ctxOpStatus 15 0
    (s.hw.ctx? c = some x → x.pause ≠ [] →
      ∃ t y, exec (.ctxResume c) s = .next (t.withHw t.hw.starve) ∧ t.mem = s.mem ∧ result t = Status.ok ∧
        t.hw.ctx? c = some y ∧ y.pause = [] ∧ s.onlyRegs t [Reg.ctxOpStatus]) ∧
    (s.hw.ctx? c = some x → x.pause ≠ [] → ∃ t, exec (.ctxKill c) s = .next t ∧ result t = Status.ok) ∧
    ((∀ y, s.hw.ctx? c = some y → y.pause = []) →
      ∃ t, exec (.ctxResume c) s = .next (t.withHw t.hw.starve) ∧ s.quiet t ∧ result t = Status.conflict ∧
        s.onlyRegs t [Reg.ctxOpStatus]) ∧
    ((∀ y, s.hw.ctx? c = some y → y.pause = []) →
      ∃ t, exec (.ctxKill c) s = .next t ∧ s.quiet t ∧ result t = Status.conflict ∧ s.onlyRegs t [Reg.ctxOpStatus])) ∧
  (∀ (s : State) (c : Fin 4096) (scope : Nat) (v : TbInv),
    let cmd : Instr := if scope = 0 then .tbInvContext c else if scope = 1 then .tbInvRange c else .tbInvAll
    let va := s.hw.reg64 Reg.tbInvVa % 2 ^ 48
    let size := s.hw.reg64 Reg.tbInvSize % 2 ^ 48
    let mine (e : TbEntry) (shift : Nat) : Prop :=
      (scope < 2 → e.ctx = c.val) ∧
      (scope = 1 → e.base * 2 ^ shift < va + size ∧ va < (e.base + 1) * 2 ^ shift)
    (s.serves Reg.tbInvCtrl → s.hw.atu.inv = none → (scope = 1 → size ≠ 0) → s.hw.atu.walks = [] →
      ∃ t, exec cmd s = .next t ∧ s.quiet t ∧ s.onlyRegs t [Reg.tbInvStatus] ∧
        t.hw.regBit Reg.tbInvStatus 0 = true ∧
        (∀ n e, n < 8 → (e ∈ (t.hw.port n).tb ↔ e ∈ (s.hw.port n).tb ∧ ¬ mine e (leafShift e.level e.leaf))) ∧
        (∀ n e, n < 8 → (e ∈ (t.hw.port n).walkCache ↔ e ∈ (s.hw.port n).walkCache ∧ ¬ mine e (12 + 9 * e.level)))) ∧
    (s.serves Reg.tbInvCtrl → s.hw.atu.inv ≠ none →
      ∃ t, exec cmd s = .next t ∧ s.quiet t ∧ t.hw.atu = s.hw.atu ∧ s.onlyRegs t [Reg.tbInvStatus] ∧
        t.hw.regBit Reg.tbInvStatus 1 = true) ∧
    (s.hw.atu.inv = some v → v.waits = [] →
      ∃ t, exec .tbInvDone s = .next t ∧ s.quiet t ∧ t.hw.atu = { s.hw.atu with inv := none } ∧
        s.onlyRegs t [Reg.tbInvStatus] ∧ t.hw.regBit Reg.tbInvStatus 0 = false))

/-! ### Sensor streams (07_streams_and_line_lock.md R273 to R307) -/

/-- R279, R280, R282, R284: LPI packets that the input buffer takes and that pass the checks. A FRAME_START with no
frame open opens its frame at position 0 and counts its time; one of a frame that is not greater than the open
one is late; a FRAME_END of the open frame completes its counter; a LINE at a position still to come is counted
by its state and awaits its turn. R279, R280, rows 1 to 4: a malformed packet, one of a stream that is disabled,
and one that the stream's settings refuse are counted, and nothing else changes. While the input buffer has no
room for a packet it waits, and LPI_READY_LOW counts. -/
def Obligations.LpiPackets : Prop :=
  (∀ (s : State) (port : Fin 6) (data : List Byte) (kind par : Nat),
    let n := 16 * port + leField data 1 1
    let f : Word := BitVec.ofNat 32 (leField data 4 4)
    let y := leField data 8 4
    let h := s.hw
    let line := h.lineState n data .last
    h.unitUp (16 + port) = true → h.boot.rstPhase = none → h.lpiFits port (data.length / 16) = true →
    lpiMalformed data = false → leField data 0 1 = kind →
    h.scEn n = true → h.scSrc n = 0 → h.scKind n ≠ 1 → leField data 2 1 = h.scFmt n → y < h.scPositions n →
    let counted (t : State) (o : Nat) : Prop := (t.hw.reg o).toNat = min (2 ^ 32 - 1) ((h.reg o).toNat + 1)
    (kind = 2 → h.openParity n = none →
      let p := f.toNat % 2
      ∃ t : State, exec (.lpiFrameStart port data .last) s = .next t.rechecked ∧ s.quiet t ∧
        t.hw.regFld (gateReg n p) 17 16 = 1 ∧ t.hw.regFld (gateReg n p) 15 0 = 0 ∧ t.hw.reg (gateReg n p + 4) = f ∧
        t.hw.regFld (gateReg n (1 - p)) 17 16 = 0 ∧ t.hw.reg64 (Reg.scOpenTime n) = h.now.toNat ∧
        (t.hw.stream n).pend = [] ∧ (t.hw.stream n).lastFrame = some f) ∧
    (kind = 2 → h.frameCase n f ≠ .fresh →
      ∃ t : State, exec (.lpiFrameStart port data .last) s = .next t.rechecked ∧ s.quiet t ∧ counted t (Reg.scCntLate n) ∧
        s.onlyRegs t [Reg.scCntLate n] ∧ t.hw.streams = h.streams) ∧
    (kind = 3 → h.frameCase n f = .openAt par → h.gatePos n par < h.scPositions n →
      ∃ t : State, exec (.lpiFrameEnd port data .last) s = .next t.rechecked ∧ t.hw.cores = h.cores ∧
        t.hw.regFld (gateReg n par) 17 16 = 2 ∧ t.hw.regFld (gateReg n par) 15 0 = h.scPositions n) ∧
    (kind = 1 → h.lateAt n f y = false →
      ∃ (t : State) (m : LineMeta), exec (.lpiLine port data .last) s = .next t.rechecked ∧ t.hw.cores = h.cores ∧
        (t.hw.stream n).pend.getLast? = some m ∧ m.pos = y ∧ m.frame = f ∧ m.state = line.1 ∧
        m.bytes = line.2.length ∧ (t.hw.stream n).highest = some y ∧
        (h.frameCase n f = .openAt par → counted t (stateCounter n line.1)))) ∧
  (∀ (s : State) (port : Fin 6) (data : List Byte),
    let n := 16 * port + leField data 1 1
    let h := s.hw
    let beats := data.length / 16
    let refused (o : Nat) : Prop := ∃ t : State, exec (.lpiLine port data .last) s = .next t.rechecked ∧ s.quiet t ∧
      (t.hw.reg o).toNat = min (2 ^ 32 - 1) ((h.reg o).toNat + 1) ∧ s.onlyRegs t [o] ∧ t.hw.streams = h.streams
    h.unitUp (16 + port) = true → h.boot.rstPhase = none → leField data 0 1 ≠ 2 → leField data 0 1 ≠ 3 →
    (h.lpiFits port beats = false → exec (.lpiLine port data .last) s = .next
      (s.withHw ((h.addReg64 (Reg.lpiReadyLow port) 1).setOffer port beats)).rechecked) ∧
    (h.lpiFits port beats = true → lpiMalformed data = true → refused (Reg.lpiCntMalformed port)) ∧
    (h.lpiFits port beats = true → lpiMalformed data = false → h.scEn n = false → refused (Reg.lpiCntNoctx port)) ∧
    (h.lpiFits port beats = true → lpiMalformed data = false → h.scEn n = true →
      (h.scSrc n ≠ 0 ∨ h.scKind n = 1 ∨ leField data 2 1 ≠ h.scFmt n ∨ h.scPositions n ≤ leField data 8 4) →
      refused (Reg.scCntDiscard n)))

/-- R284, R285, R288: positions resolve. The oldest accepted position of a stream into the Loft writes exactly its
status word and moves the counter on; a position whose deadline has come, and for which nothing was accepted,
resolves as a hole, and before its deadline nothing happens. What waits on the counters is then evaluated again.
R286, R300, R301: a datagram that a filter rule matches counts as its hit; one for a sequence stream that takes
it is matched, and one that the stream, its checks or the port's buffer refuse is discarded, counted as matched
by a stream that its rule names. -/
def Obligations.StreamPositions : Prop :=
  (∀ (s : State) (n : Fin 96) (p : Nat) (m : LineMeta),
    let h := s.hw
    let r := h.stream n
    let y := h.gatePos n p
    let moved (t : State) : Prop := t.hw.regFld (gateReg n p) 15 0 = y + 1 ∧
      t.hw.regFld (gateReg n p) 17 16 = (if y + 1 = h.scPositions n then 2 else 1)
    let period := h.regFld (Reg.scLinePeriod n) 23 0
    let due := h.reg64 (Reg.scOpenTime n) + (y + 1) * period + h.regFld (Reg.scSlack n) 23 0
    let w := h.statusWord n y % 2 ^ 21
    h.openParity n = some p → y < h.scPositions n → r.holeTo ≤ y + 1 →
    (r.pend = [m] → m.pos = y → m.state ≠ stHole → h.scLoft n = true → h.sliceOff (loftSlice w) = false →
     h.loftBusy w = false →
      ∃ t : State, exec (.positionResolve n) s = .next t.rechecked ∧ t.hw.cores = h.cores ∧
        s.putsBytes t (loftAddr w) (m.word m.state (h.scPositions n)) ∧ moved t ∧ s.onlyRegs t [gateReg n p] ∧
        (t.hw.stream n).pend = []) ∧
    (r.pend = [] → r.sector = none → period ≠ 0 → due ≤ h.now.toNat →
      ∃ t : State, exec (.positionDeadline n) s = .next t.rechecked ∧ t.hw.cores = h.cores ∧ moved t ∧
        (t.hw.reg (Reg.scCntHole n)).toNat = min (2 ^ 32 - 1) ((h.reg (Reg.scCntHole n)).toNat + 1)) ∧
    (period = 0 ∨ h.now.toNat < due → exec (.positionDeadline n) s = .next s.rechecked)) ∧
  (∀ (s : State) (link : Fin 2) (data : List Byte) (ts : DWord) (g : Datagram) (r : Nat),
    let h := s.hw
    let n := h.regFld (Reg.frCtrl link r) 6 0
    let o := h.reg (Reg.frOffsets link r)
    let size := if h.regBit (Reg.frCtrl link r) 12 then 4 else 2
    let counted (t : State) (c : Nat) : Prop := (t.hw.reg c).toNat = min (2 ^ 32 - 1) ((h.reg c).toNat + 1)
    h.regBit (Reg.lnkStatus link) 0 = true → datagramOf data = some g → h.filterOf link g = some r →
    (h.scEn n = true → h.scSrc n = link + 1 → h.scKind n = 2 → g.sumsOk = true → fld o 15 0 + size ≤ g.payload.length →
     fld o 31 16 ≤ g.payload.length → h.lpiHeld (n / 16) + ceilDiv (g.payload.length - fld o 31 16) 16 ≤ 16384 →
      ∃ t : State, exec (.streamUdpPacket link data ts) s = .next t.rechecked ∧ t.hw.cores = h.cores ∧ counted t (Reg.frHits link r) ∧
        (t.hw.stream n).matched = (h.stream n).matched + 1) ∧
    (let takes := h.scEn n = true ∧ h.scSrc n = link + 1 ∧ h.scKind n ≠ 0
     ¬ takes ∨ g.sumsOk = false ∨ g.payload.length < fld o 15 0 + size ∨ g.payload.length < fld o 31 16 ∨
       16384 < h.lpiHeld (n / 16) + ceilDiv (g.payload.length - fld o 31 16) 16 →
      ∃ t : State, exec (.streamUdpPacket link data ts) s = .next t.rechecked ∧ s.quiet t ∧ counted t (Reg.frHits link r) ∧
        counted t (Reg.scCntDiscard n) ∧ s.onlyRegs t [Reg.frHits link r, Reg.scCntDiscard n] ∧
        (takes → (t.hw.stream n).matched = (h.stream n).matched + 1)))

/-! ### The commands of a queue (08_caller_and_queues.md R317 to R334, R347, R348) -/

/-- R323, R326, R333: NOP, SIGNAL, TIMESTAMP, WAIT and GATE. A command that completes makes its item's record OK and the
front end goes on behind it; SIGNAL and TIMESTAMP, once every earlier item has completed, send their value to memory and
hold the front end until the write is acknowledged, which completes them; a WAIT or GATE whose condition does not hold yet
holds the front end. -/
def Obligations.QueueSimpleCommands : Prop :=
  ∀ (s : State) (q : Fin 1024) (x : Queue) (p bs : List Byte) (f : Frame), x.frames = [f] → f.buf = none →
    (s.takes q x p →
    let op := leField p 0 1
    let i := s.hw.caller.nextItem
    let tag : DWord := BitVec.ofNat 64 (leField p 8 8)
    let va := leField p 16 8
    let sent (t : State) (value : Nat) (publish : Option Nat) : Prop := ∃ y r, t.hw.queue? q = some y ∧
      y.hold = some .write ∧ y.holdItem = some i ∧ t.hw.item? i = some r ∧ r.queue = q.val ∧ r.state = .dispatched ∧
      t.hw.atu.own = s.hw.atu.own ++ [{ ownWrite 3 q x.ctx x.part va (leBytes 8 value) tag (.fence q i publish) with
        id := s.hw.atu.nextOwn }]
    let done (t : State) : Prop := t.finished i q tag Status.ok 0 ∧ t.behind q f 1
    let fence := leField p 32 1 = 0 ∧ vaOk p 16 8 = true ∧ leField p 33 1 = 0 ∧ tailZero p 34 = true
    let gate := leField p 16 1 < 96 ∧ leField p 17 1 < 2 ∧ zeroAt p 18 2 = true ∧ tailZero p 24 = true ∧
      s.hw.assigned (leField p 16 1) x.ctx x.part = true
    let level : Word := BitVec.ofNat 32 (leField p 20 4)
    (op = 1 → tailZero p 16 = true →
      ∃ t, exec (.cmdNop q (.data p)) s = .next t ∧ s.quiet t ∧ done t ∧ t.hw.outs = s.hw.outs) ∧
    (op = 4 → vaOk p 16 8 = true → tailZero p 32 = true → s.hw.earlierDone q x = true →
      ∃ t, exec (.signal q (.data p)) s = .next t ∧ s.quiet t ∧ sent t (leField p 24 8) (some (leField p 24 8))) ∧
    (op = 14 → vaOk p 16 8 = true → tailZero p 24 = true → s.hw.earlierDone q x = true →
      ∃ t, exec (.timestamp q (.data p)) s = .next t ∧ s.quiet t ∧ sent t s.hw.now.toNat none) ∧
    (op = 3 → fence → bs.length = 8 → leField p 24 8 ≤ leField bs 0 8 →
      ∃ t, exec (.cmdWait q (.data p) (.data bs)) s = .next t ∧ s.quiet t ∧ done t) ∧
    (op = 3 → fence → bs.length = 8 → leField bs 0 8 < leField p 24 8 →
      ∃ t, exec (.cmdWait q (.data p) (.data bs)) s = .next t ∧ s.quiet t ∧ t.holding q i (.fence va (leField p 24 8))) ∧
    (op = 5 → gate → s.hw.gateOpen (leField p 16 1) (leField p 17 1) level = true →
      ∃ t, exec (.gate q (.data p)) s = .next t ∧ s.quiet t ∧ done t) ∧
    (op = 5 → gate → s.hw.gateOpen (leField p 16 1) (leField p 17 1) level = false →
      ∃ t, exec (.gate q (.data p)) s = .next t ∧ s.quiet t ∧
        t.holding q i (.gate (leField p 16 1) (leField p 17 1) level))) ∧
    (∀ (i : Nat) (r : Item) (j : OwnJob) (publish : Option Nat), s.hw.queue? q = some x → x.hold = some .write →
      x.holdItem = some i → x.loops = [] → x.plan = none → s.hw.item? i = some r → r.queue = q.val → r.quiet = false →
      r.state ≠ .done → (publish = none ∨ s.hw.ageSlots q = []) →
      let t := s.withHw (s.hw.fenceDone j q i publish)
      t.finished i q r.tag (if j.dataErr then Status.ecc else Status.ok) 0 ∧
      ∃ y, t.hw.queue? q = some y ∧ y.hold = none ∧ y.holdItem = none ∧ y.frames = [f])

/-- R315, R327 to R329: COND records its test and skips what follows when it fails; LOOP opens its body with its count;
CALL runs a nested buffer, and RETURN leaves it: the CALL completes too, and the ring goes on. -/
def Obligations.QueueControlCommands : Prop :=
  ∀ (s : State) (q : Fin 1024) (x : Queue) (p bs : List Byte) (f g : Frame) (j rest : Nat) (r : Item), s.takes q x p →
    let op := leField p 0 1
    let i := s.hw.caller.nextItem
    let tag : DWord := BitVec.ofNat 64 (leField p 8 8)
    let ring := x.frames = [f] ∧ f.buf = none
    let top (t : State) (h : Frame) : Prop := ∃ y, t.hw.queue? q = some y ∧ y.hold = none ∧ y.frames.head? = some h
    let next : Frame := { f with pos := (f.pos + 1) % 2 ^ 32 }
    let test := condHolds (leField p 40 1) (leField bs 0 8) (leField p 24 8) (leField p 32 8)
    (op = 6 → ring → vaOk p 16 8 = true → leField p 40 1 < 4 → zeroAt p 41 1 = true → tailZero p 44 = true →
      ∃ t, exec (.cond q (.data p) (.data bs)) s = .next t ∧ s.quiet t ∧
        t.finished i q tag Status.ok (BitVec.ofNat 32 test.toNat) ∧
        top t { next with skip := if test then 0 else leField p 42 2 }) ∧
    (op = 7 → ring → leField p 16 8 = 0 → tailZero p 30 = true → leField p 28 2 ≠ 0 → leField p 24 4 ≠ 0 →
      ∃ t y, exec (.cmdLoop q (.data p) (.data bs) rest) s = .next t ∧ s.quiet t ∧
        t.finished i q tag Status.ok (BitVec.ofNat 32 (leField p 24 4)) ∧ t.hw.queue? q = some y ∧
        y.loops = [⟨0, next.pos, leField p 28 2, leField p 24 4, 0, leField p 28 2⟩] ∧ y.frames = [next]) ∧
    (op = 8 → ring → vaOk p 16 64 = true → tailZero p 28 = true → leField p 24 4 ≠ 0 →
      ∃ t y, exec (.call q (.data p)) s = .next t ∧ s.quiet t ∧ t.hw.queue? q = some y ∧
        y.frames = [⟨some (leField p 16 8, leField p 24 4), 0, 0, some i⟩, next]) ∧
    (op = 9 → x.frames = [g, f] → g.buf ≠ none → g.item = some j → f.buf = none → x.batch = [] → tailZero p 16 = true →
     s.hw.item? j = some r → r.queue = q.val → r.quiet = false → r.state ≠ .done →
      ∃ t, exec (.cmdReturn q (.data p)) s = .next t ∧ s.quiet t ∧ t.finished i q tag Status.ok 0 ∧
        t.finished j q r.tag Status.ok 0 ∧ top t f)

/-- R318, R330 to R332: LAUNCH, DMA and CACHE_INV hand their items to their units, a CACHE_INV of a range to
the translation of its pages; HATCH_OPEN opens a Loft Hatch over words
that the partition owns, and HATCH_CLOSE holds the front end while replies are missing. -/
def Obligations.QueueDispatchCommands : Prop :=
  ∀ (s : State) (q : Fin 1024) (x : Queue) (p m d : List Byte) (f : Frame), s.takes q x p → x.frames = [f] →
    f.buf = none →
    let op := leField p 0 1
    let i := s.hw.caller.nextItem
    let tag : DWord := BitVec.ofNat 64 (leField p 8 8)
    let k := leField p 16 1
    let hatch := s.hw.loftHatch k
    let started (t : State) (n : Nat) : Prop := (∃ r, t.hw.item? i = some r ∧ r.queue = q.val ∧ r.tag = tag ∧
      r.state = .dispatched) ∧ t.behind q f n
    (op = 2 → launchBad ⟨q, x, p ++ m, x.major, leField p 1 1 % 16, 0⟩ = false →
     (kdescChecks d (p ++ m) (((s.hw.ctx? x.ctx).map Ctx.cellarStride).getD 0)).status = none →
     (leField d 24 4).testBit 1 = false → (s.hw.keep x.part).retired = false →
      ∃ t job, exec (.launch q (.data p) (.data m) (.data d)) s = .next t ∧ s.quiet t ∧ started t (packetsOf p) ∧
        t.hw.caller.launches = s.hw.caller.launches ++ [job] ∧ job.item = i ∧ job.ctx = x.ctx ∧ job.part = x.part ∧
        job.prio = x.prio ∧ job.codeVa = leField d 0 8 ∧ job.bundles = leField d 8 2 ∧ job.entry = leField d 10 2 ∧
        job.words = leField d 12 4 ∧ job.carries = carriesOf (p ++ m)) ∧
    (op = 10 → vaOk p 16 1 = true → tailZero p 24 = true →
      ∃ t e, exec (.dma q (.data p) (.data d)) s = .next t ∧ s.quiet t ∧ started t 1 ∧
        t.hw.atu.engineDma = s.hw.atu.engineDma ++ [e] ∧ e.item = i ∧ e.queue = q.val ∧ e.desc = d ∧ e.channel = none ∧
        e.prio = x.prio) ∧
    (op = 11 → vaOk p 16 128 = true → leField p 24 8 % 128 = 0 → leField p 32 1 = 0 → tailZero p 33 = true →
      ∃ t, exec (.cacheInv q (.data p)) s = .next t ∧ s.quiet t ∧ started t 1 ∧
        t.hw.loft.inv = s.hw.loft.inv ++ [⟨x.part, none, some i⟩] ∧
        t.hw.loft.lines = s.hw.loft.lines.filter fun l => !(s.hw.cacheWays x.part).contains l.way) ∧
    (op = 11 → vaOk p 16 128 = true → leField p 24 8 % 128 = 0 → leField p 24 8 ≠ 0 → leField p 32 1 = 1 →
     tailZero p 33 = true →
      ∃ t, exec (.cacheInv q (.data p)) s = .next t ∧ s.quiet t ∧ started t 1 ∧ t.hw.loft = s.hw.loft ∧
        t.hw.atu.own = s.hw.atu.own ++ [{ ownRead 3 q x.ctx x.part [⟨leField p 16 8, leField p 24 8, [], []⟩] with
          goal := .invalidate i, tag, id := s.hw.atu.nextOwn }]) ∧
    (op = 12 → k < 64 → leField p 17 1 < 2 → zeroAt p 18 2 = true → leField p 20 4 < 2 ^ 21 → leField p 24 4 ≤ 8192 →
     zeroAt p 28 4 = true → tailZero p 40 = true → hatch.isOpen = false →
     s.hw.hatchRange x.part (leField p 20 4) (leField p 24 4) = true →
      ∃ t, exec (.hatchOpen q (.data p)) s = .next t ∧ s.quiet t ∧ t.finished i q tag Status.ok 0 ∧ t.behind q f 1 ∧
        t.hw.loftHatch k = ⟨true, x.ctx, x.part, leField p 20 4, leField p 24 4, BitVec.ofNat 64 (leField p 32 8),
          leField p 17 1 == 1, hatch.gen, 0, 0, false, []⟩) ∧
    (op = 13 → k < 64 → tailZero p 17 = true → hatch.isOpen = true → hatch.ctx = x.ctx →
     let waits := s.hw.closers (hatch.senders.toNat % 2 ^ s.hw.inService) hatch.partner
     waits ≠ [] →
      ∃ t, exec (.hatchClose q (.data p)) s = .next t ∧ s.quiet t ∧ t.holding q i (.hatchClose k) ∧
        t.hw.loftHatch k = { hatch with closing := true, awaiting := waits })

/-- R324, R347, R348: BATCH composes its first step and sends the composition to memory; with its acknowledgement the step
buffer runs; when a step's items
have completed its sequences are written back, and at the last step its record says how many finished; WAIT_POLL
completes a fence WAIT whose threshold has been reached. -/
def Obligations.BatchesAndPolls : Prop :=
  ∀ (s : State) (q : Fin 1024) (x : Queue) (p d tab bs : List Byte) (f : Frame) (b : Batch) (rest : List Batch)
    (i va thr : Nat) (r : Item) (c : Ctx),
    let new : Batch := ⟨s.hw.caller.nextItem, leField d 0 8, leField d 12 2, leField d 14 2, leField d 16 8, leField d 24 4,
      leField d 28 4, leField d 32 8, leField d 40 2, seqsOf tab (leField d 8 4), 0, 0, [], none, 0⟩
    let sent (t : State) (c part va : Nat) (bytes : List Byte) (tag : DWord) (goal : OwnGoal) : Prop :=
      t.hw.atu.own = s.hw.atu.own ++ [{ ownWrite 3 q c part va bytes tag goal with id := s.hw.atu.nextOwn }]
    (s.takes q x p → x.frames = [f] → f.buf = none → leField p 0 1 = 15 → vaOk p 16 64 = true → tailZero p 24 = true →
     (bdescChecks d).status = none → leField d 8 4 ≠ 0 → leField d 28 4 ≠ 0 → leField d 24 4 ≠ 0 → new.compose ≠ [] →
      ∃ t y, exec (.batch q (.data p) (.data d) (.data tab)) s = .next t ∧ s.quiet t ∧ t.hw.queue? q = some y ∧
        y.hold = some .write ∧ y.holdItem = some new.item ∧ y.frames = [{ f with pos := (f.pos + 1) % 2 ^ 32 }] ∧
        sent t x.ctx x.part new.compVa (new.table new.compose) (BitVec.ofNat 64 (leField p 8 8)) (.composition q) ∧
        y.batch.head? = some { new with
          segments := new.compose
          rotor := (((new.compose.filter Segment.decode).getLast?).map fun g => g.seq + 1).getD 0 }) ∧
    (s.hw.queue? q = some x → x.hold = some .write → x.batch = b :: rest → b.packets ≠ 0 →
      ∃ y, (s.hw.compositionDone q false).queue? q = some y ∧ y.hold = none ∧ y.holdItem = none ∧
        y.frames = ⟨some (b.bufVa, b.packets), 0, 0, some b.item⟩ :: x.frames) ∧
    (s.hw.queue? q = some x → x.hold = some .batch → x.batch = b :: rest →
     (∀ y ∈ s.hw.itemsOf q, y.enclosing.contains b.item = true → y.state = .done) → s.hw.noStart x.ctx = false →
     s.hw.resident x.ctx = true → b.bad = none → b.maxSteps ≤ b.step + 1 → s.hw.item? b.item = some r → r.queue = q.val →
     r.quiet = false → r.state ≠ .done →
      ∃ t, exec (.batchStepDone q) s = .next t ∧ s.quiet t ∧
        sent t x.ctx x.part b.seqVa (b.update.1.map Seq.bytes).flatten r.tag .nothing ∧
        t.finished b.item q r.tag Status.ok (BitVec.ofNat 32 (b.finished + b.update.2))) ∧
    (s.hw.queue? q = some x → x.hold = some (.fence va thr) → x.holdItem = some i → x.destroying = none →
     s.hw.ctx? x.ctx = some c → c.slot.isSome = true → c.evicting = false → s.hw.noStart x.ctx = false →
     x.frames = [f] → f.buf = none → x.loops = [] → x.plan = none →
     s.hw.item? i = some r → r.queue = q.val → r.quiet = false → r.state ≠ .done → bs.length = 8 →
     thr ≤ leField bs 0 8 →
      ∃ t y, exec (.waitPoll q (.data bs)) s = .next t ∧ s.quiet t ∧ t.finished i q r.tag Status.ok 0 ∧
        t.hw.queue? q = some y ∧ y.hold = none ∧ y.frames = [f])

/-! ### The Caller (08_caller_and_queues.md R308 to R351) -/

/-- R308, R309, R343, R346: the admin operations on a booted engine with a granted ABI. A reserved OP is INVALID_PACKET. Each checks its argument or
descriptor, refuses what exists or is missing with CONFIG_CONFLICT, and has its effect; a write of ADMIN_OP while one runs
is ignored. -/
def Obligations.AdminOperations : Prop :=
  ∀ (s : State) (d : List Byte) (cmd : Instr) (x : Ctx) (y : Queue) (v : Word), s.serves Reg.adminOp →
    let h := s.hw
    let o := Reg.adminStatus
    let read := h.arg0 < 2 ^ 48 ∧ d.length = 64 ∧ h.admitted h.arg0 0 true false = true
    let ended (t : State) (st : Status) : Prop := t.hw.regBit o 31 = false ∧ t.hw.regFld o 15 0 = st
    (h.regBit o 31 = true → h.caller.adminDue = none →
      cmd ∈ [Instr.ctxCreate (.data d), .ctxDestroy, .queueCreate (.data d), .queueDestroy, .ctxEvict] →
      exec cmd s = .next (s.withHw (h.setRegBit o 30 true))) ∧
    (h.regBit o 31 = false → (fld v 7 0 = 0 ∨ 5 < fld v 7 0) →
      ∃ t, exec (.registerWrite (BitVec.ofNat 23 Reg.adminOp) 15 v 1) s = .next t ∧ s.quiet t ∧ s.onlyRegs t [o] ∧
        ended t Status.invalidPacket) ∧
    (h.regBit o 31 = false → h.caller.adminDue = none → h.adminReady = true →
      (read → ctxDescBad d = false → h.ctx? (leField d 0 2) = none →
        ∃ t g, exec (.ctxCreate (.data d)) s = .next t ∧ s.quiet t ∧ s.onlyRegs t [o] ∧ ended t Status.ok ∧
          t.hw.ctx? (leField d 0 2) = some (ctxOf d g)) ∧
      (read → ctxDescBad d = false → (h.ctx? (leField d 0 2)).isSome = true →
        ∃ t, exec (.ctxCreate (.data d)) s = .next t ∧ s.quiet t ∧ s.onlyRegs t [o] ∧ ended t Status.conflict ∧
          t.hw.caller = h.caller) ∧
      (h.arg0 < 4096 → h.ctx? h.arg0 = some x → x.plan = false → h.queuesOf h.arg0 = [] →
        ∃ t, exec .ctxDestroy s = .next t ∧ t.mem = s.mem ∧ ended t Status.ok ∧ t.hw.ctx? h.arg0 = none) ∧
      (read → (∀ c ∈ h.queueDescCodes d, c.1 = false) → h.queue? (leField d 0 2) = none →
       h.ctx? (leField d 2 2) = some x → x.plan = false → h.partEn (leField d 4 1) = true → h.partPlan (leField d 4 1) = false →
        ∃ t, exec (.queueCreate (.data d)) s = .next t ∧ s.quiet t ∧ s.onlyRegs t [o] ∧ ended t Status.ok ∧
          t.hw.queue? (leField d 0 2) = some (queueOf d)) ∧
      (h.arg0 < 1024 → h.queue? h.arg0 = some y → y.plan = none → y.destroying = none → h.ctx? y.ctx = some x →
       x.evicting = false →
        ∃ t z, exec .queueDestroy s = .next t ∧ t.mem = s.mem ∧ t.hw.regBit o 31 = true ∧ t.hw.queue? h.arg0 = some z ∧
          z.frames = [] ∧ z.hold = none ∧ z.destroying.isSome = true) ∧
      (h.arg0 < 4096 → h.ctx? h.arg0 = some x → x.plan = false → x.slot.isSome = true →
       (∃ i ∈ h.ctxItems h.arg0, i.state ≠ .waiting) →
        ∃ t z, exec .ctxEvict s = .next t ∧ s.quiet t ∧ s.onlyRegs t [o] ∧ t.hw.regBit o 31 = true ∧
          t.hw.ctx? h.arg0 = some z ∧ z.evicting = true ∧ z.slot = x.slot))

/-- R311 to R313, R324, R341, R343, R345, R351: the doorbells. A TAIL within the ring and ahead of the last one is taken and
the condition that holds the front end is evaluated again; a context that is not resident takes the lowest free slot. A
record HEAD within what has been written is taken, and the queue's held records are tried again; other writes set their
error bits. -/
def Obligations.Doorbells : Prop :=
  ∀ (s : State) (q : Fin 1024) (v : Word) (cls : Fin 5) (x : Queue) (c : Ctx) (n : Nat), s.hw.queue? q = some x →
    let ok := (v - x.head).toNat ≤ 2 ^ x.ringLog ∧ (v - x.tail).toNat < 2 ^ 31
    let recOk := (x.recTail - v).toNat ≤ 2 ^ x.recLog ∧ (v - x.recHead).toNat < 2 ^ 31
    let taken (t : State) : Prop := s.quiet t ∧ ∃ z, t.hw.queue? q = some z ∧ z.tail = v ∧ (x.hold = none → z = { x with tail := v })
    (s.serves (Reg.dbTail q) → x.plan = none → x.destroying = none → ok → s.hw.resident x.ctx = true →
      ∃ t, exec (.dbTailWrite q v) s = .next t ∧ taken t ∧ s.onlyRegs t ([Reg.resStatus, Reg.irqPend, Reg.irqPend + 4] ++
        if x.hold.isSome then [Reg.callerTricks, Reg.callerTricks + 4] else [])) ∧
    (s.serves (Reg.dbTail q) → x.plan = none → x.destroying = none → ok → s.hw.ctx? x.ctx = some c → c.slot = none →
     c.resetMark = false → s.hw.freeSlot = some n →
      ∃ t z, exec (.dbTailWrite q v) s = .next t ∧ taken t ∧ t.hw.ctx? x.ctx = some z ∧ z.slot = some n) ∧
    (s.serves (Reg.dbTail q) → x.plan = none → x.destroying = none → ok → s.hw.resident x.ctx = true → x.loops = [] →
     s.hw.noStart x.ctx = false → (s.hw.ctx? x.ctx).map Ctx.evicting = some false →
     ∀ (d : Hold) (i : Nat) (r : Item), x.hold = some d → x.holdItem = some i → s.hw.item? i = some r → r.queue = q.val →
      r.state ≠ .done → r.quiet = false → s.hw.holdDone d (.data []) = some Status.ok →
      ∃ t, exec (.dbTailWrite q v) s = .next t ∧ t.finished i q r.tag Status.ok 0 ∧
        ∃ z, t.hw.queue? q = some z ∧ z.hold = none ∧ z.holdItem = none) ∧
    (s.serves (Reg.dbTail q) → (x.plan ≠ none ∨ x.destroying ≠ none ∨ ¬ ok) →
      ∃ t, exec (.dbTailWrite q v) s = .next t ∧ s.quiet t ∧ t.hw.regs = s.hw.regs ∧
        t.hw.queue? q = some { x with tailErr := true }) ∧
    (s.serves (Reg.dbRecHead q) → x.plan = none → recOk →
      ∃ t, exec (.dbRecHeadWrite q v cls) s = .next t ∧ s.quiet t ∧ t.hw.regs = s.hw.regs ∧
        t.hw.queue? q = some { x with recHead := v } ∧ ∀ y ∈ t.hw.caller.items, y.queue = q.val → y.held = false) ∧
    (s.serves (Reg.dbRecHead q) → x.plan = none → ¬ recOk →
      ∃ t, exec (.dbRecHeadWrite q v cls) s = .next t ∧ s.quiet t ∧ t.hw.regs = s.hw.regs ∧
        t.hw.queue? q = some { x with recHeadErr := true })

/-- R319 to R322, R337 to R340, 05 R167, 06 R232, R249, R250, 12 R497: a kernel on its partition. The best candidate is
chosen and placed; the carry regions of the context that it displaces go to that context's Cellar; once they are there the
switch clears that context's words outside the rings of enabled streams, and, once a restore that is due has been made, the
code is loaded; the kernel starts on every core with its registers set; and it ends when every core has halted. A Redeal
copy starts on its own partition. -/
def Obligations.Kernels : Prop :=
  ∀ (s : State) (part : Fin 16) (j : LaunchJob) (k : Kernel) (b cycles : Nat) (code : List (BitVec 128 × Bool))
    (images : List (List (List Byte × List Bool))) (c : Nat) (x : Ctx) (r : Item) (m : Primary),
    let h := s.hw
    let cores := h.partPhys part
    let keep := h.keep part
    let free := h.noStart k.job.ctx = false
    (h.mayChoose part = true → h.choice part = some j → h.place part j = some b → j.kflags.testBit 1 = false →
      ∃ t z, exec (.kernelSelect part) s = .next t ∧ s.quiet t ∧ s.onlyRegs t [Reg.partRun part] ∧
        t.hw.kernel? part = some z ∧ z.job = j ∧ z.pbase = b ∧ z.phase = 0 ∧ z.kind = .plain ∧
        t.hw.regBit (Reg.partRun part) 30 = false ∧ t.hw.regFld (Reg.partRun part) 11 0 = j.ctx % 4096 ∧
        t.hw.caller.launches = h.caller.launches.filter fun l => l.item != j.item) ∧
    (h.spillDue part = some c → h.ctx? c = some x →
      ∃ t, exec (.cellarSpill part cycles) s = .next t ∧ s.quiet t ∧ (t.hw.keep part).carries = [] ∧
        t.hw.carried part c = h.carried part c + cycles ∧
        ∀ l ∈ h.partCores part, ∃ o ∈ t.hw.atu.own, o.unit_ = 6 ∧ o.index = 64 * part + l ∧ o.ctx = c ∧ o.write = true) ∧
    (h.kernel? part = some k → k.phase = 0 → free → h.outgoingDone part = true → k.cleared = false →
     h.switches part k = true → keep.lastCtx = some c → keep.hi ≤ 131072 →
      ∃ t z, exec (.contextSwitch part code cycles) s = .next t ∧ t.hw.kernel? part = some z ∧ z.cleared = true ∧
        z.job = k.job ∧ (t.hw.keep part).lastCtx = some k.job.ctx ∧ (t.hw.keep part).gone = false ∧
        (∀ p ∈ cores, ∀ l, h.logicalOf p = some l → ∀ w, keep.lo ≤ w → w < keep.hi →
          (∀ g ∈ h.ringsOn l fun _ => true, ¬ (g.1 ≤ w ∧ w < g.2)) →
          ∀ i, i < 32 → t.mem.byte (pantryAddr p (32 * w + i)) = 0) ∧
        (∀ a, (∀ p ∈ cores, ¬ (pantryAddr p (32 * keep.lo) ≤ a ∧ a < pantryAddr p (32 * keep.hi))) →
          t.mem.byte a = s.mem.byte a)) ∧
    (h.kernel? part = some k → k.phase = 0 → k.restoreDue = true → free →
      ∃ t z, exec (.cellarRestore part images cycles) s = .next t ∧ t.hw.cores = h.cores ∧ t.hw.kernel? part = some z ∧
        z.restoreDue = false ∧ z.restored = true ∧ z.phase = 0 ∧
        t.hw.carried part k.job.ctx = h.carried part k.job.ctx + cycles) ∧
    (h.kernel? part = some k → k.phase = 0 → free → h.outgoingDone part = true → k.cleared = true → k.restoreDue = false →
     code.length = k.job.bundles →
      ∃ t z, exec (.contextSwitch part code cycles) s = .next t ∧ t.mem = s.mem ∧ t.hw.kernel? part = some z ∧
        z.phase = 1 ∧ z.job = k.job ∧ (∀ p, p ∉ cores → t.hw.core p = h.core p) ∧
        (∀ p ∈ cores, h.codeHeld p k.job = false → ∀ i (lt : i < code.length),
          Tbl.get (fun _ => 0) (t.before p).istore i = code[i].1)) ∧
    (h.kernel? part = some k → k.phase = 1 → k.kind = .plain → free → cores.Nodup →
      ∃ t z, exec (.kernelStart part) s = .next t ∧ t.hw.kernel? part = some z ∧ z.phase = 2 ∧
        ((∀ p ∈ cores, ∀ g, g < 16 → h.regBit (Reg.pantryGranuleState p) (16 + g) = true →
          regionHas k.pbase k.job.words g = true) → t.mem = s.mem) ∧
        t.hw.regBit (Reg.partRun part) 29 = true ∧
        ∀ n (lt : n < (h.partCores part).length),
          let p := h.phys (h.partCores part)[n]
          (t.before p).run = .issuing ∧ (t.before p).pc = k.job.entry ∧ (t.before p).pbase = k.pbase ∧
          (t.before p).pbound = k.job.words ∧ (t.before p).ibound = k.job.bundles ∧ (t.before p).flags = 0 ∧
          (t.before p).sr 1 = BitVec.ofNat 32 (h.partCores part)[n] ∧ (t.before p).sr 2 = BitVec.ofNat 32 n ∧
          (t.before p).sr 3 = BitVec.ofNat 32 (h.partCores part).length) ∧
    (h.kernel? part = some k → k.phase = 2 → k.kind = .plain → k.jobsCancelled = false → h.classAHeld = false →
     h.partSafety part = false →
     (∀ p ∈ cores, (s.before p).run = .idle ∧ (s.before p).loaded = true ∧ (s.before p).flags = 0) →
     h.item? k.job.item = some r → r.quiet = false → r.state ≠ .done →
      ∃ t z, exec (.kernelEnd part) s = .next t ∧ t.mem = s.mem ∧ t.hw.kernel? part = none ∧
        t.hw.regBit (Reg.partRun part) 30 = true ∧ t.hw.item? k.job.item = some z ∧ z.state = .done ∧
        z.status = Status.ok) ∧
    (h.mayChoose part = true → h.nextCopy part = some m → h.noStart m.job.ctx = false → h.place part m.job = some b →
      ∃ t z rot, exec (.redealCopyStart part) s = .next t ∧ s.quiet t ∧ t.hw.kernel? part = some z ∧ z.job = m.job ∧
        z.pbase = b ∧ z.kind = .copy m.id rot)

/-- R344, R345, R351: the oldest record of a queue is sent to the slot that its TAIL names, in a write that no fault of which
pauses the context, and the record leaves when the write is acknowledged; one at a time is on its way; while its ring
is full a host queue's records are held; a plan queue at a boundary runs its buffer, or, still at work, skips it and counts
an overrun. -/
def Obligations.RecordsAndPlans : Prop :=
  ∀ (s : State) (q : Fin 1024) (x : Queue) (i : Item) (c : Ctx) (va n g : Nat), s.hw.queue? q = some x →
    let h := s.hw
    let full := 2 ^ x.recLog ≤ (x.recTail - x.recHead).toNat
    let due := h.caller.planDue.contains q.val = true ∧ h.classAHeld = false ∧ x.plan = some (va, n, g) ∧
      (h.keep x.part).retired = false ∧ h.partHeldBack x.part = false
    (h.oldestDone q = some i → i.held = false → h.recordFlies q = false → ¬ full →
      ∃ t, exec (.recordWrite q) s = .next t ∧ s.quiet t ∧ t.hw.queue? q = some x ∧ t.hw.caller.items = h.caller.items ∧
        t.hw.atu.own = h.atu.own ++ [{ ownWrite 5 q x.ctx x.part (x.recVa + 32 * (x.recTail.toNat % 2 ^ x.recLog)) i.record
          i.tag (.record q) with nopause := true, id := h.atu.nextOwn }]) ∧
    (h.recordFlies q = true → exec (.recordWrite q) s = .next s) ∧
    (h.oldestDone q = some i → i.final = false → x.destroying = none → h.ctx? x.ctx = some c → c.evicting = false →
      ∃ z, (h.recordDone q false).queue? q = some z ∧ z.recTail = x.recTail + 1 ∧
        (∀ y ∈ (h.recordDone q false).caller.items, y.id ≠ i.id)) ∧
    (h.oldestDone q = some i →
      (h.recordDone q true).queue? q = some x ∧
        ∀ y ∈ (h.recordDone q true).caller.items, y.queue = q.val → y.state = .done → y.held = true) ∧
    (h.oldestDone q = some i → i.held = false → h.recordFlies q = false → full → x.plan = none →
      ∃ t, exec (.recordWrite q) s = .next t ∧ s.quiet t ∧ t.hw.outs = h.outs ∧ t.hw.queue? q = some x ∧
        (∀ y ∈ t.hw.caller.items, y.queue = q.val → y.state = .done → y.held = true)) ∧
    (due → x.frames = [] → 0 < n → (∀ y ∈ h.itemsOf q, y.state = .done) →
      ∃ t z, exec (.planRun q) s = .next t ∧ s.quiet t ∧ t.hw.queue? q = some z ∧
        z.frames = [⟨some (va, n), 0, 0, none⟩] ∧ t.hw.caller.planDue = h.caller.planDue.erase q.val) ∧
    (due → x.frames ≠ [] →
      ∃ t, exec (.planRun q) s = .next t ∧ s.quiet t ∧
        (t.hw.reg Reg.planOverrun).toNat = min (2 ^ 32 - 1) ((h.reg Reg.planOverrun).toNat + 1))

/-! ### The Power Manager (14_power_management.md R550 to R568) -/

/-- R550 to R555, R557: operating points. With an idle handshake and no session a lower point is switched to at once, with
eight hold cycles in every powered core, and its voltage asked for; a higher one waits for its voltage and is switched to
when the regulator acknowledges; no acknowledgement for 1 ms is a regulator fault; an alert drops to OP0 until it is
released; a droop sets its bit until the stretch ends. -/
def Obligations.OperatingPoints : Prop :=
  ∀ (s : State) (op : Nat),
    let h := s.hw
    let st := Reg.pwrStatus
    let cur (t : State) : Nat := t.hw.regFld st 2 0
    h.boot.good = true →
    (h.session = false → h.power.hand = .idle → h.power.next = none → h.regFault = false →
      (h.desired < h.curOp →
        ∃ t, exec .opChange s = .next t ∧ t.mem = s.mem ∧ cur t = h.desired ∧ t.hw.power.hand = .asked ∧
          t.hw.power.vid = h.vidOf h.desired ∧ (∀ p, p < 68 → h.coreUp p = true →
            (t.before p).mx.hold = (s.before p).mx.hold + 8 ∧ (t.before p).v = (s.before p).v)) ∧
      (h.curOp < h.desired →
        ∃ t, exec .opChange s = .next t ∧ s.quiet t ∧ cur t = h.curOp ∧ t.hw.power.hand = .asked ∧
          t.hw.power.vid = h.vidOf h.desired ∧ t.hw.power.goal = .raise h.desired)) ∧
    (h.power.hand = .asked → h.power.goal = .raise op → op < 8 →
      ∃ t, exec (.pwrAck true) s = .next t ∧ t.mem = s.mem ∧ cur t = op ∧ t.hw.power.hand = .acked ∧
        t.hw.power.inForce = h.power.vid) ∧
    (h.power.hand = .acked → h.power.next = none →
      ∃ t, exec (.pwrAck false) s = .next t ∧ s.quiet t ∧ t.hw.regs = h.regs ∧ t.hw.power.hand = .idle) ∧
    (h.power.hand = .asked → h.power.since + 1000000 ≤ h.elapsed →
      ∃ t, exec .pwrAckTimeout s = .next t ∧ s.quiet t ∧ t.hw.regBit st 11 = true ∧ t.hw.power.hand = .idle) ∧
    (∃ t, exec .pwrAlert s = .next t ∧ t.mem = s.mem ∧ t.hw.regBit st 12 = true ∧ cur t = 0 ∧ t.hw.regFld st 6 4 = 0) ∧
    (∃ t, exec .alertRelease s = .next t ∧ s.quiet t ∧ t.hw.regBit st 12 = false) ∧
    (∃ t, exec .droopDetect s = .next t ∧ s.quiet t ∧ t.hw.regBit st 13 = true ∧ cur t = h.curOp) ∧
    (∃ t, exec .droopStretchEnd s = .next t ∧ s.quiet t ∧ t.hw.regBit st 13 = false ∧ cur t = h.curOp)

/-- R556, R559, R563 to R568: measurements. A sample sets the sensors' readings, and a sensor at its trip point for the
first time drops to OP0 and is class A; a low ageing margin raises the trims of the running point and above, or at their
limit lowers OP_LIMIT; an estimate sets each enabled partition's power and the uncore's; a frame's bubbles are
hold cycles of the partition's cores; LEARN_CLEAR empties the learning table. -/
def Obligations.PowerMeasurements : Prop :=
  ∀ (s : State) (temps : List (BitVec 16)) (events : List (List Nat)) (part : Fin 16),
    let h := s.hw
    let trip : Int := h.regFld Reg.pwrTherm 23 16
    let trim (m : Nat) : Nat := h.regFld (Reg.pwrVid m) 15 8
    let now (i : Nat) : Nat := ((temps.getD i 0).toNat + h.power.offsets.getD i 0) % 2 ^ 16
    let cap (n : Nat) : Nat := min (2 ^ 18 - 1) n
    h.boot.good = true →
    (temps.length = 17 →
      ∃ t, exec (.thermalSample temps) s = .next t ∧ t.mem = s.mem ∧
        (∀ i, i < 17 → (t.hw.reg (Reg.pwrTemp i)).toNat = now i) ∧
        (h.sensorsAt trip = [] → (∃ i, i < 17 ∧ 16 * trip ≤ signed 16 (now i)) →
          t.hw.regFld Reg.pwrStatus 2 0 = 0 ∧ t.hw.classAHeld = true)) ∧
    (trim h.curOp < 10 →
      ∃ t, exec (.ageingCheck true) s = .next t ∧ s.quiet t ∧ t.hw.coffer.due.contains 2 = true ∧
        ∀ m, m < 8 → t.hw.regFld (Reg.pwrVid m) 15 8 = if h.curOp ≤ m ∧ trim m < 10 then trim m + 1 else trim m) ∧
    (10 ≤ trim h.curOp →
      ∃ t, exec (.ageingCheck true) s = .next t ∧ s.quiet t ∧ t.hw.regFld Reg.pwrStatus 10 8 = h.curOp - 1) ∧
    (∃ t, exec (.powerEstimate events) s = .next t ∧ s.quiet t ∧
      (t.hw.reg Reg.pwrEstUncore).toNat = cap (h.staticUncore + h.dynamic (events.getD 16 [])) ∧
      ∀ p, p < 16 → (t.hw.reg (Reg.pwrPest p)).toNat =
        if h.partEn p then cap (h.staticOf (some p) + h.dynamic ((events.getD p []).take 6)) else 0) ∧
    (h.partEn part = true → (h.partPhys part).Nodup →
      let b := if h.regBit Reg.pwrCtrl 0 then Tbl.get (fun _ => 0) h.power.bubbles part else 0
      b < 8 →
      ∃ t, exec (.bubbleFrameStart part) s = .next t ∧ t.mem = s.mem ∧ t.hw.regFld (Reg.pwrWork part) 26 24 = b ∧
        t.hw.reg64 (Reg.pwrBubble part) = (h.reg64 (Reg.pwrBubble part) + 8 * b) % 2 ^ 64 ∧
        ∀ p ∈ h.partPhys part, (t.before p).mx.hold = (s.before p).mx.hold + BitVec.ofNat 64 (8 * b)) ∧
    (s.serves Reg.pwrCtrl →
      ∃ t, exec .learnClear s = .next t ∧ s.quiet t ∧ t.hw.regs = h.regs ∧ t.hw.power.learn = [])

/-- R560, R561: a domain that has powered up leaves the transition: a core is idle with every byte of its Pantry zero; of
the other domains its UP bit is set, and a Loft slice reads zero. Nothing else in memory changes. -/
def Obligations.DomainsComeUp : Prop :=
  ∀ (s : State) (d : Fin 128), s.hw.power.rising.contains d.val = true →
    let lo := if d.val < 100 then pantryAddr d 0 else loftAddr ((d - 100) * 2 ^ 17)
    ∃ t, exec (.domainPowerUpDone d) s = .next t ∧ t.hw.power.rising = s.hw.power.rising.filter (· != d.val) ∧
      (d.val < 116 → (∀ a, lo ≤ a → a < lo + 2 ^ 22 → t.mem.byte a = 0) ∧
        ∀ a, (a < lo ∨ lo + 2 ^ 22 ≤ a) → t.mem.byte a = s.mem.byte a) ∧
      (116 ≤ d.val → t.mem = s.mem) ∧
      (d.val < 68 → t.hw.core d = ⟨{ CoreBody.reset with run := .idle }, none⟩ ∧ t.hw.coreUp d = true ∧ s.onlyCore t d) ∧
      (100 ≤ d.val → t.hw.unitUp (d - 100) = true ∧ t.hw.cores = s.hw.cores ∧ s.onlyRegs t [Reg.pwrUnitUp])

/-! ### The Dealer (10_dealer_time_base.md R401 to R431) -/

/-- R401, R403, R405, R406, R408: a tick adds the increment, and one ordered step, to the time, and only the
increment to the elapsed time; an INCR that was written applies behind it. R405 to R407, R410: software
adjustments of a running Dealer. Within their bounds they are ordered; outside, they only set their error bits.
A new time source is in force at once and logged. -/
def Obligations.DealerAdjustments : Prop :=
  (∀ (s : State) (x : Int) (rest : List Adjust),
    let d := s.hw.dealer
    let ticked (time : Nat) (left : List Adjust) : Prop := ∃ t, exec .dealerTick s = .next t ∧
      t.hw.dealer.time = time ∧ t.hw.dealer.elapsed = (d.elapsed + d.incr) % elapsedWrap ∧
      t.hw.dealer.incr = d.incrNext.getD d.incr ∧ t.hw.dealer.incrNext = none ∧ t.hw.dealer.adjust = left
    d.running = true → s.hw.tickWaits = false →
    (d.adjust = [] → ticked ((d.time + d.incr) % timeWrap) []) ∧
    (d.adjust = .step x :: rest → 0 ≤ ((d.time + d.incr) % timeWrap : Nat) + x * 2 ^ 32 →
      ticked (((((d.time + d.incr) % timeWrap : Nat) + x * 2 ^ 32).toNat) % timeWrap) rest)) ∧
  (∀ (s : State) (v : BitVec 36) (delta : Word) (src : BitVec 2), s.hw.dealer.running = true →
    let h := s.hw
    let inBounds := h.incrOf Reg.calIncrMin ≤ v.toNat ∧ v.toNat ≤ h.incrOf Reg.calIncrMax
    let max := h.regFld Reg.calStepMax 30 0
    let ns := h.regFld Reg.loadNs 29 0
    let old := h.regFld Reg.timeSource 1 0
    let orders (c : Instr) (d : Dealer) : Prop := exec c s = .next (s.withHw (h.updDealer fun _ => d))
    let refused (c : Instr) (bit : Nat) : Prop := exec c s = .next (s.withHw (h.setRegBit Reg.adjStatus bit true))
    (s.serves Reg.incr → inBounds → orders (.incrWrite v) { h.dealer with incrNext := some v.toNat }) ∧
    (s.serves Reg.incr → ¬ inBounds → refused (.incrWrite v) 0) ∧
    (s.serves Reg.adjStep → delta.toInt.natAbs ≤ max →
      orders (.adjStep delta) { h.dealer with adjust := h.dealer.adjust ++ [.step delta.toInt] }) ∧
    (s.serves Reg.adjStep → max < delta.toInt.natAbs → refused (.adjStep delta) 1) ∧
    (s.serves Reg.loadCtrl → ns ≤ 999999999 →
      orders .timeLoad { h.dealer with adjust := h.dealer.adjust ++ [.load (h.reg64 Reg.loadSec % 2 ^ 48) ns] }) ∧
    (s.serves Reg.loadCtrl → 999999999 < ns → refused .timeLoad 3) ∧
    (s.serves Reg.timeSource → old ≠ src.toNat →
      ∃ t, exec (.timeSourceWrite src) s = .next t ∧ s.quiet t ∧ s.logged t Ledger.source src.toNat old ∧
        t.hw.regFld Reg.timeSource 1 0 = src.toNat ∧ t.hw.regFld Reg.dlrStatus 5 4 = src.toNat))

/-- R404, R409, R412, R413, R417, R418, R430: the start of the Dealer with a valid seal sector, stamps, boundaries and
edges that are due, and the monitor of DCLK. -/
def Obligations.DealerEvents : Prop :=
  ∀ (s : State) (g : Fin 8) (n : Fin 16) (mirror : Option (List (List Byte × List Byte))) (p : Pulse) (ps : List Pulse),
    let h := s.hw
    let d := h.dealer
    let stamped (t : State) (reg : Nat → Nat) (kind time : Nat) : Prop := t.hw.dealer.stampSeq = d.stampSeq + 1 ∧
      ∀ k, k < 8 → t.hw.reg (reg k) = BitVec.ofNat 32 (leField (h.stampBytes kind time) (4 * k) 4)
    let delayed := (d.time + timeWrap - h.regFld Reg.calPpsInDelay 15 0 * 2 ^ 32) % timeWrap
    (h.boot.aon = true → d.running = false → d.sealValid = true → d.sealLost = [] → d.ledgerBad = [] → d.openMark = false →
      ∃ t, exec .dealerStart s = .next t ∧ s.quiet t ∧ t.hw.dealer.running = true ∧
        t.hw.dealer.startCount = d.startCount + 1 ∧ (t.hw.dealer.gen 0).running = true ∧ (t.hw.dealer.gen 0).count = 0 ∧
        s.logged t Ledger.restart (d.startCount + 1).toNat t.hw.calCrc.toNat) ∧
    (s.serves (Reg.stamp 0) → d.running = true →
      ∃ t, exec .stampRead s = .next t ∧ s.quiet t ∧ stamped t Reg.stamp 0 d.time ∧ t.hw.rdata = t.hw.reg (Reg.stamp 0) ∧
        s.onlyRegs t ((List.range 8).map Reg.stamp)) ∧
    (d.running = true → d.ppsLast = none →
      ∃ t, exec .ppsInEdge s = .next t ∧ s.quiet t ∧ stamped t Reg.ppsStamp 1 delayed ∧
        t.hw.dealer.ppsLast = some d.elapsed) ∧
    (d.genDue g = true →
      ∃ t, exec (.epochBoundary g mirror) s = .next t ∧ (t.hw.dealer.gen g).count = (d.gen g).count + 1 ∧
        (t.hw.dealer.gen g).lastElapsed = d.elapsed ∧ t.hw.dealer.dtbEpoch = d.dtbEpoch ||| BitVec.ofNat 8 (2 ^ g.val) ∧
        (h.genSettings g = ((d.gen g).period, (d.gen g).phase, (d.gen g).align) →
          (t.hw.dealer.gen g).next = (d.gen g).next + (d.gen g).period)) ∧
    (d.pulse n = p :: ps → p.edge ≤ d.elapsed →
      ∃ t, exec (.fsyncPulse n) s = .next t ∧ s.quiet t ∧ s.onlyRegs t [Reg.fsCount n] ∧ t.hw.dealer.pulse n = ps ∧
        t.hw.dealer.active n = some (d.elapsed + p.width) ∧ t.hw.reg (Reg.fsCount n) = h.reg (Reg.fsCount n) + 1) ∧
    (d.ppsDue = true →
      ∃ t, exec .ppsOutEdge s = .next t ∧ s.quiet t ∧ t.hw.regs = h.regs ∧ t.hw.dealer.ppsDue = false ∧
        t.hw.dealer.ppsOut = some (d.elapsed + h.regFld Reg.ppsOutCtrl 23 0 * 1000 * 2 ^ 32)) ∧
    (h.boot.good = true →
      ∃ t, exec (.dclkMonitor true) s = .next t ∧ s.quiet t ∧ t.hw.regBit Reg.dclkMon 31 = true ∧ t.hw.classAHeld = true)

/-- R420 to R423, R426, R428: the seal. UNSEAL with the permit pin stores the next Seal Counter, logs and opens; SEAL and
the timeout log and close; a sealed-class write of a calibration register applies at the next tick while unsealed, and
is counted while sealed; the count of a second that has passed is logged; a Ledger entry reads by its SEQ. -/
def Obligations.DealerSeal : Prop :=
  ∀ (s : State) (op : BitVec 16) (reason : BitVec 8) (offset : BitVec 16) (v : Word) (permit verify : Bool)
    (sec n o : Nat) (e : List Byte), s.hw.dealer.running = true →
    let h := s.hw
    let d := h.dealer
    let isSealed := h.regBit Reg.dlrStatus 0 = true
    let result (t : State) : Nat := (t.hw.reg Reg.sealResult).toNat
    let o1 := offset.toNat
    (s.serves Reg.sealCtrl → isSealed → d.sealCount ≠ 0xFFFFFFFF →
      ∃ t, exec (.unseal op reason true true) s = .next t ∧ s.quiet t ∧ t.hw.regBit Reg.dlrStatus 0 = false ∧
        result t = 0 ∧ t.hw.dealer.sealCount = d.sealCount + 1 ∧ t.hw.reg Reg.dlrSealCount = d.sealCount + 1 ∧
        s.logged t Ledger.unsealed (op.toNat * 2 ^ 16 + reason.toNat) (d.sealCount + 1).toNat) ∧
    (s.serves Reg.sealCtrl → (¬ isSealed ∨ permit = false) →
      ∃ t, exec (.unseal op reason permit verify) s = .next t ∧ s.quiet t ∧ result t = 0x70 ∧
        t.hw.dealer.ledger = d.ledger ∧ t.hw.regBit Reg.dlrStatus 0 = h.regBit Reg.dlrStatus 0) ∧
    (s.serves Reg.sealCtrl → ¬ isSealed →
      ∃ t, exec (.seal true) s = .next t ∧ s.quiet t ∧ t.hw.regBit Reg.dlrStatus 0 = true ∧ result t = 0 ∧
        s.logged t Ledger.sealing h.calCrc.toNat 0) ∧
    (s.serves Reg.sealCtrl → isSealed → exec (.seal verify) s = .next (s.withHw (h.setReg Reg.sealResult 0x70))) ∧
    (d.sealDue = true → ¬ isSealed →
      ∃ t, exec (.sealTimeout true) s = .next t ∧ s.quiet t ∧ t.hw.regBit Reg.dlrStatus 0 = true ∧
        s.logged t Ledger.sealing h.calCrc.toNat 1) ∧
    (s.serves (0x50000 + o1) → 0x118 ≤ o1 → o1 < 0x12C → o1 % 4 = 0 →
      (¬ isSealed → exec (.calWrite offset v) s = .next (s.withHw (h.updDealer fun x =>
        { x with calNext := x.calNext ++ [(o1, v)] }))) ∧
      (isSealed → d.refused = none → exec (.calWrite offset v) s = .next (s.withHw (h.updDealer fun x =>
        { x with refused := some (h.elapsed / 10 ^ 9, 1, o1) })))) ∧
    (d.refused = some (sec, n, o) → sec < d.elapsed / unitSec →
      ∃ t, exec .refusedSummary s = .next t ∧ s.quiet t ∧ t.hw.dealer.refused = none ∧ s.logged t Ledger.refused o n) ∧
    (s.serves (Reg.ledgerData 0) → d.entry (h.reg Reg.ledgerIdx) = some e →
     d.ledgerBad.contains (h.reg Reg.ledgerIdx) = false →
      ∃ t, exec .ledgerDataRead s = .next t ∧ s.quiet t ∧ t.hw.reg Reg.ledgerRdStatus = 1 ∧
        t.hw.rdata = t.hw.reg (Reg.ledgerData 0) ∧
        ∀ k, k < 8 → t.hw.reg (Reg.ledgerData k) = BitVec.ofNat 32 (leField e (4 * k) 4))

/-! ### The link ports (11_links_and_partnership.md R433 to R452, R465 to R467) -/

/-- R434 to R439, R442: frames on a port that is up and injects nothing. A received frame is dropped and counted, or taken
by the 802.1AS agent or written to the host ring's buffer; transmission selection sends the head of the class it grants; a
ring's descriptor becomes a frame of its class or is written back, and HEAD advances when the write-back is acknowledged;
ring tails; the port's state; and the lanes that a mode leaves unused are zero. -/
def Obligations.LinkFrames : Prop :=
  ∀ (s : State) (n : Fin 2) (d : List Byte) (ts : BitVec 72) (fec : Nat × Nat) (descs : List MemAnswer) (ring : Fin 8) (desc buf bs : List Byte)
    (v : Word) (f : TxFrame) (c : Nat) (own : OwnJob) (irq : Bool),
    let h := s.hw
    let l := h.link n
    let queue (x : LinkPort) (k : Nat) : List TxFrame := Tbl.get (fun _ => []) x.queues k
    let count (t : State) (i k : Nat) : Prop := t.hw.reg64 (Reg.lnkCnt n i) = (h.reg64 (Reg.lnkCnt n i) + k) % 2 ^ 64
    let rx : Instr := .rxFrame n d true ts fec descs
    let size := d.length + 4
    let fits := 64 ≤ size ∧ size ≤ h.regFld (Reg.lnkMaxframe n) 13 0 + (if frameTagged d then 4 else 0)
    let control := beField d 12 2 = 0x8808 ∨ frameType d = 0x8808
    let type := beField (frameBody d) 0 1 % 16
    let mode := h.regFld (Reg.lnkCtrl n) 6 5
    let forAgent := frameStacked d = false ∧ frameType d = 0x88F7 ∧ d.take 6 = asMulticast ∧ beField (frameBody d) 4 1 = 0 ∧
      (mode ≠ 0 ∧ type = 2 ∨ mode = 2 ∧ type ∈ [0, 3, 8, 10])
    let forHost := (frameType d ≠ 0x88F7 ∨ type ∉ [0, 2, 3, 8, 10]) ∧ ((datagramOf d).bind fun g => h.filterOf n g) = none
    let head := h.reg (Reg.rxrHead n)
    let next := head + BitVec.ofNat 32 (h.ringPending n 8)
    let txHead := h.reg (Reg.txrHead n ring)
    let txNext := txHead + BitVec.ofNat 32 (h.ringPending n ring)
    let ctx := h.regFld (Reg.lnkHostctx n) 11 0
    let part := h.regFld (Reg.lnkHostctx n) 19 16
    let unusedZero (t : State) : Prop := (t.hw.link n).lanes.length = 4 ∧
      ∀ k, k < 4 → lanesUsed (h.regFld (Reg.lnkCtrl n) 1 0) ≤ k → (t.hw.link n).lanes[k]? = some 0
    let len := leField desc 8 2
    let g := h.settle n
    (h.linkUp n = true → h.regBit (Reg.injCtrl n) 0 = false →
      (∃ t, exec (.rxFrame n d false ts fec descs) s = .next t ∧ s.quiet t ∧ count t 2 1 ∧ t.hw.links = h.links ∧
        (h.linkFec n = true → count t 9 fec.1 ∧ count t 10 fec.2)) ∧
      (¬ fits → ∃ t, exec rx s = .next t ∧ s.quiet t ∧ count t 3 1 ∧ t.hw.links = h.links) ∧
      (fits → control → ∃ t, exec rx s = .next t ∧ s.quiet t ∧ count t 4 1 ∧ t.hw.links = h.links) ∧
      (fits → ¬ control → h.addressed n d = false →
        ∃ t, exec rx s = .next t ∧ s.quiet t ∧ count t 5 1 ∧ t.hw.links = h.links) ∧
      (fits → ¬ control → h.addressed n d = true → frameType d ≠ h.regFld Reg.htpCfg 15 0 → forAgent →
        ∃ t, exec rx s = .next t ∧ s.quiet t ∧ (∀ i, i < 9 → count t i 0) ∧ (t.hw.link n).asIn = l.asIn ++ [(frameBody d, ts.toNat)]) ∧
      (fits → ¬ control → h.addressed n d = true → frameType d ≠ h.regFld Reg.htpCfg 15 0 → forHost →
        (h.regBit (Reg.rxrCtrl n) 0 = false ∨ next = h.reg (Reg.rxrTail n) →
          ∃ t, exec rx s = .next t ∧ s.quiet t ∧ count t 6 1 ∧ t.hw.atu = h.atu) ∧
        (h.regBit (Reg.rxrCtrl n) 0 = true → next ≠ h.reg (Reg.rxrTail n) → h.hostOk n = true → frameStacked d = false →
         descs.head? = some (.data bs) → bs.length = 32 → leField bs 0 8 < 2 ^ 48 → leField bs 0 8 % 64 = 0 →
         leField bs 8 2 % 64 = 0 → d.length ≤ leField bs 8 2 → leField bs 8 2 ≤ 9664 → zeroAt bs 10 6 = true →
          ∃ t back, exec rx s = .next t ∧ s.quiet t ∧ count t 0 1 ∧ count t 1 d.length ∧ t.hw.reg (Reg.rxrHead n) = head ∧
            t.hw.atu.own = h.atu.own ++ [{ ownWrite 1 (32 + n.val) ctx part (leField bs 0 8) d 0
              (.ring n 8 true (some (h.ringSlot (Reg.rxrBase n) (Reg.rxrCtrl n) next.toNat + 16, back))) with
                id := h.atu.nextOwn }]))) ∧
    (s.withHw (h.ringDone own n 8 irq none)).hw.reg (Reg.rxrHead n) = head + 1 ∧
    (s.withHw (h.ringDone own n ring irq none)).hw.reg (Reg.txrHead n ring) = txHead + 1 ∧
    (h.linkUp n = true → h.regBit (Reg.injCtrl n) 0 = false → h.session = false → h.loft.mesh = [] → h.partner.closes = [] →
     (g.link n).sending = none → g.txClass n = some (c, f) →
      let sent := f.data ++ List.replicate (60 - f.data.length) 0
      ∃ t, exec (.txFrame n ts) s = .next t ∧ s.quiet t ∧ count t 7 1 ∧ count t 8 sent.length ∧
        (t.hw.link n).sending = some c ∧ unusedZero t ∧ (f.src = .htp → queue (t.hw.link n) c = (queue l c).drop 1 ∧
          t.hw.outs = .frame n c sent false :: h.outs)) ∧
    (s.serves (Reg.txrTail n ring) → (v - txHead).toNat ≤ 2 ^ h.regFld (Reg.txrCtrl n ring) 7 4 →
      exec (.txrTailWrite n ring v) s = .next (s.withHw (h.setReg (Reg.txrTail n ring) v))) ∧
    (s.serves (Reg.rxrTail n) → (v - head).toNat ≤ 2 ^ h.regFld (Reg.rxrCtrl n) 7 4 →
      exec (.rxrTailWrite n v) s = .next (s.withHw (h.setReg (Reg.rxrTail n) v))) ∧
    (h.regBit (Reg.txrCtrl n ring) 0 = true → txNext ≠ h.reg (Reg.txrTail n ring) → h.hostOk n = true → h.classAHeld = false →
     (∀ x ∈ queue l ring, x.src.rank ≠ 2) → desc.length = 32 → leField desc 10 2 = 0 → leField desc 0 8 < 2 ^ 48 →
     zeroAt desc 14 2 = true →
      (len + 4 ≤ h.regFld (Reg.lnkMaxframe n) 13 0 → len ≠ 0 → frameType (sliceBytes buf 0 len) ≠ 0x8808 →
        ∃ t x, exec (.txDescriptor n ring desc buf) s = .next t ∧ s.quiet t ∧ t.hw.regs = h.regs ∧ x.data = sliceBytes buf 0 len ∧
          ∃ q, queue (t.hw.link n) ring = q ++ [x]) ∧
      (len = 0 →
        ∃ t back, exec (.txDescriptor n ring desc buf) s = .next t ∧ s.quiet t ∧ t.hw.links = h.links ∧ t.hw.regs = h.regs ∧
          t.hw.atu.own = h.atu.own ++ [{ ownWrite 1 (16 + 8 * n.val + ring.val) ctx part
            (h.ringSlot (Reg.txrBase n ring) (Reg.txrCtrl n ring) txNext.toNat + 16) back 0 (.ring n ring false none) with
              id := h.atu.nextOwn }])) ∧
    (h.linkUp n = true → h.partner.path = none →
      ∃ t, exec (.linkDown n false true true) s = .next t ∧ s.quiet t ∧ t.hw.linkUp n = false ∧ count t 11 1 ∧
        t.hw.regBit (Reg.asStatus n) 2 = false ∧ (t.hw.link n).queues = l.queues) ∧
    (h.regBit (Reg.lnkCtrl n) 3 = true → h.unitUp (22 + n) = true →
      ∃ t, exec (.linkUp n) s = .next t ∧ s.quiet t ∧ t.hw.linkUp n = true ∧ s.onlyRegs t [Reg.lnkStatus n] ∧ unusedZero t)

/-- R444, R445, R447, R450 to R452, R465, R467: a gate list whose start has come becomes the one in operation, and an entry
that has ended gives way to the next; the 802.1AS messages that are due join class 7, a Pdelay_Req is answered and a
one-step Sync gives the offset; injection needs its permit; a frame held for 100 µs goes out. The layout of the messages is
the model's choice (log entry 30). -/
def Obligations.LinkAgents : Prop :=
  ∀ (s : State) (n : Fin 2) (v : Word) (g : GateList) (m : List Byte) (ts : Nat) (rest : List (List Byte × Nat))
    (f : HeldFrame) (fs : List HeldFrame) (desc : MemAnswer),
    let h := s.hw
    let l := h.link n
    let a := l.as_
    let now := h.dealer.time
    let queue (x : LinkPort) (k : Nat) : List TxFrame := Tbl.get (fun _ => []) x.queues k
    let sends (c : Instr) (type seq : Nat) : Prop := ∃ t x, exec c s = .next t ∧ s.quiet t ∧ queue (t.hw.link n) 7 = [x] ∧
      x.src.rank = 0 ∧ x.data.take 6 = asMulticast ∧ beField (x.data.drop 14) 0 1 = 0x10 + type ∧
      beField (x.data.drop 14) 30 2 = seq % 2 ^ 16
    let mode := h.regFld (Reg.lnkCtrl n) 6 5
    let unset := h.regBit Reg.dlrStatus 1
    let held (x : LinkPort) : List HeldFrame := Tbl.get (fun _ => []) x.held 0
    (l.gclNext = some g → g.cycleAt ≤ now →
      ∃ t, exec (.gclEntryAdvance n) s = .next t ∧ s.quiet t ∧ s.onlyRegs t [Reg.gclStatus n] ∧
        (t.hw.link n).gcl = some (g.begin_ 0 g.cycleAt) ∧ (t.hw.link n).gclNext = none ∧
        t.hw.regBit (Reg.gclStatus n) 31 = false) ∧
    (l.gclNext = none → l.gcl = some g → g.endsAt ≤ now → g.gap = none →
      ∃ t, exec (.gclEntryAdvance n) s = .next t ∧ s.quiet t ∧ s.onlyRegs t [Reg.gclStatus n] ∧
        (t.hw.link n).gcl = some (if g.entry + 1 < g.entries.length ∧ g.endsAt < g.cycleAt + g.cycle
          then g.begin_ (g.entry + 1) g.endsAt
          else GateList.begin_ { g with cycleAt := g.cycleAt + g.cycle } 0 (g.cycleAt + g.cycle))) ∧
    (queue l 7 = [] → h.linkUp n = true →
      (mode = 1 → unset = false → a.lastSync = none → sends (.asSyncSend n) 0 a.syncSeq) ∧
      (mode = 1 → unset = false → a.lastAnnounce = none → sends (.asAnnounceSend n) 11 a.announceSeq) ∧
      (mode = 1 → unset = true → a.lastSync = none →
        ∃ t, exec (.asSyncSend n) s = .next t ∧ s.quiet t ∧ t.hw.links = h.links ∧ t.hw.regBit (Reg.asStatus n) 1 = true) ∧
      (mode = 2 → a.lastPdelay = none → sends (.asPdelaySend n) 2 a.pdelaySeq)) ∧
    (l.asIn = (m, ts) :: rest →
      (queue l 7 = [] → beField m 0 1 % 16 = 2 → sends (.asMessageReceive n) 3 (beField m 30 2)) ∧
      (mode = 2 → beField m 0 1 % 16 = 0 → (beField m 6 2).testBit 9 = false →
        let origin := ptpTimeOf m 34 + ptpCorr m
        ∃ t, exec (.asMessageReceive n) s = .next t ∧ s.quiet t ∧ (t.hw.link n).asIn = rest ∧
          t.hw.reg64 (Reg.asOffset n) = wrap 64 ((h.asRx n ts : Int) - (origin + a.delay)) ∧
          t.hw.regFld (Reg.asStatus n) 31 16 = beField m 30 2)) ∧
    (s.serves (Reg.injCtrl n) → bitOf v 0 = true →
      ∃ t, exec (.injEnable n v) s = .next t ∧ s.quiet t ∧ t.hw.regBit (Reg.injCtrl n) 0 = h.injPermit ∧
        t.hw.regBit (Reg.lnkStatus n) 4 = h.injPermit ∧
        (h.injPermit = false → t.hw.regBit (Reg.injStatus n) 0 = true)) ∧
    (held l = f :: fs → f.since + 100000 ≤ h.elapsed →
      ∃ t, exec (.reorderHoldExpiry n false desc) s = .next t ∧ s.quiet t ∧ t.hw.regs = h.regs ∧ held (t.hw.link n) = fs ∧
        t.hw.outs = .frame n 0 f.data false :: h.outs)

/-! ### HTP and the Partnership (11_links_and_partnership.md R453 to R479; 14_power_management.md R569 to R571) -/

/-- R456 to R463: the oldest accepted HTP frame. OPEN and OPEN_ACK bring the session up under the frame's number, an
acknowledgement drops the frames that it covers, and the timers send OPEN, ACK and the unacknowledged frames, or lose the
session. DATA awaits one status per piece, ANSWER answers the piece that was sent, a CLOSE notice of a core's Hatch awaits every
core, and its reply ends the Partner's part of a close. -/
def Obligations.PartnerSession : Prop :=
  ∀ (s : State) (b : List Byte) (rest : List (List Byte)) (k : Nat) (x : HtpFrame) (xs : List HtpFrame) (y : PieceOut) (u : Nat),
    let h := s.hw
    let p := h.partner
    let front (type : Nat) : Prop := p.inbox = b :: rest ∧ leField b 0 1 % 16 = type
    let no (t : State) : Nat := t.hw.regFld Reg.ptnStatus 15 8
    let ack := leField b 8 4
    let covers (f : HtpFrame) : Bool := decide (1 ≤ (ack + 2 ^ 32 - f.seq) % 2 ^ 32 ∧ (ack + 2 ^ 32 - f.seq) % 2 ^ 32 < 2 ^ 31)
    let seq := leField b 16 4
    let n := leField b 14 1
    let cores := (List.range h.inService).map h.phys
    let key := partnerKey (leField b 17 1) (leField b 18 1)
    let gen := BitVec.ofNat 8 (leField b 19 1)
    let opening := leField b 16 1 = 0
    let expired (start : Nat) : Prop := h.session = true ∧ p.unacked = x :: xs ∧ p.timer = some start ∧
      start + h.regFld Reg.htpRto 15 0 * 1000 ≤ h.elapsed
    let lost := h.regFld Reg.htpRetry 7 0 ≤ p.retries + 1
    let own := h.phys (hatchKey (leField b 17 1) (leField b 18 1) / 16)
    let slot := hatchKey (leField b 17 1) (leField b 18 1) % 16
    let hatch := (h.body own).hatch slot
    (front HtpType.opening → h.session = false → h.regFld Reg.ptnStatus 5 4 ≠ 1 → h.peerPath = some k →
      ∃ t, exec .htpOpen s = .next t ∧ s.quiet t ∧ t.hw.partner.inbox = rest ∧ t.hw.session = true ∧ no t = leField b 1 1 ∧
        t.hw.partner.path = some k) ∧
    (front HtpType.openAck → h.regFld Reg.ptnStatus 5 4 = 1 → leField b 1 1 = h.sessionNo →
      ∃ t, exec .htpOpenAck s = .next t ∧ s.quiet t ∧ t.hw.partner.inbox = rest ∧ t.hw.session = true ∧ no t = h.sessionNo) ∧
    (front HtpType.ack → p.unacked = x :: xs → covers x = true → p.waiting = [] →
      ∃ t, exec .htpAck s = .next t ∧ s.quiet t ∧ t.hw.regs = h.regs ∧ t.hw.partner.inbox = rest ∧
        t.hw.partner.unacked = p.unacked.filter (fun f => !covers f) ∧ t.hw.partner.retries = 0) ∧
    (h.partnered = true → h.session = false → p.lastOpen = none → h.peerPath = some k → h.regFld Reg.ptnStatus 5 4 = 0 →
      ∃ t, exec .htpOpenTimer s = .next t ∧ s.quiet t ∧ t.hw.regFld Reg.ptnStatus 5 4 = 1 ∧
        no t = (if h.sessionNo = 255 then 1 else h.sessionNo + 1) ∧ t.hw.partner.path = some k ∧ s.counts t (Reg.ptnCnt 0)) ∧
    (h.session = true → p.ackDue = true → p.path = some k →
      ∃ t, exec .htpAckTimer s = .next t ∧ s.quiet t ∧ t.hw.partner.ackDue = false ∧ s.counts t (Reg.ptnCnt 0)) ∧
    (expired u → ¬ lost →
      ∃ t, exec .htpRtoExpiry s = .next t ∧ s.quiet t ∧ t.hw.partner.unacked = p.unacked ∧ t.hw.partner.retries = p.retries + 1 ∧
        t.hw.session = true ∧
        (t.hw.reg (Reg.ptnCnt 1)).toNat = min (2 ^ 32 - 1) ((h.reg (Reg.ptnCnt 1)).toNat + p.unacked.length)) ∧
    (expired u → lost → (∀ k, k < 16 → h.ptnWaiters k = []) →
      ∃ t, exec .htpRtoExpiry s = .next t ∧ t.mem = s.mem ∧ t.hw.session = false ∧ t.hw.partner.path = none ∧
        t.hw.partner.unacked = [] ∧ t.hw.partner.pieces = [] ∧ s.counts t (Reg.ptnCnt 2)) ∧
    (front HtpType.data →
      ∃ t, exec .htpData s = .next t ∧ s.quiet t ∧ t.hw.regs = h.regs ∧ t.hw.partner.inbox = rest ∧
        t.hw.partner.answers = p.answers ++ [(leField b 4 4, List.replicate n none)] ∧
        t.hw.loft.mesh.length = h.loft.mesh.length + n) ∧
    (front HtpType.answer → p.pieces.find? (fun z => z.1 == seq) = some (seq, [y]) → p.closes = [] → p.waiting = [] →
      ∃ t, exec .htpAnswer s = .next t ∧ s.quiet t ∧ t.hw.regs = h.regs ∧ t.hw.partner.inbox = rest ∧
        t.hw.partner.pieces = p.pieces.filter (fun z => z.1 != seq) ∧
        t.hw.loft.mesh = h.loft.mesh ++ [⟨stopPartner, y.src, .answer (leField b 32 2) y.hput y.item y.ctx y.gen⟩]) ∧
    (front HtpType.notice → coreTarget (leField b 17 1) (leField b 18 1) = true →
     (opening ∨ p.closes = [] ∧ p.waiting = [] ∧ 0 < h.inService) →
      ∃ t, exec .htpNotice s = .next t ∧ s.quiet t ∧ t.hw.regs = h.regs ∧ t.hw.partner.inbox = rest ∧
        t.hw.loft.mesh = h.loft.mesh ++ cores.map (fun q => ⟨stopPartner, q, .notice key gen (leField b 16 1 == 0)⟩) ∧
        t.hw.partner.closes = p.closes ++ (if opening then [] else [(key, gen, cores)])) ∧
    (front HtpType.noticeReply → coreTarget (leField b 17 1) (leField b 18 1) = true → hatch.closing = true → hatch.gen = gen →
      ∃ t, exec .htpNoticeReply s = .next t ∧ t.mem = s.mem ∧ s.onlyCore t own ∧ t.hw.regs = h.regs ∧ t.hw.partner.inbox = rest ∧
        (t.hw.body own).hatch slot = { hatch with awaiting := hatch.awaiting.erase 64 })

/-- R469 to R479 and 14 R569 to R571: what frames of an up session do. The first heartbeat sets the epoch offset; data of a
mirror entry goes to the unused bank, and MIRROR_COMMIT with matching sizes, counts and CRC makes it the committed bank; the
Partner's arrival at a Cut is held, and the Cut releases at the later arrival plus CUT_LEAD; TAKEOVER is noted; and the
exchange of operating points follows the Partner's desire, proposal, readiness, confirmation and alert. -/
def Obligations.PartnerFrames : Prop :=
  ∀ (s : State) (b entry : List Byte) (rest : List (List Byte)) (table : List (List Byte)) (m : MirrorEntry)
    (seen : List (Nat × Nat)) (bytes : List Byte) (part barrier : Fin 16) (cut : CutRun) (ours theirs : Int) (w : Proposal),
    let h := s.hw
    let p := h.partner
    let front (type : Nat) : Prop := p.inbox = b :: rest ∧ leField b 0 1 % 16 = type
    let exchange (kind : Nat) : Prop := front HtpType.opExchange ∧ leField b 16 1 = kind
    let ep := h.ownEpoch (leField b 16 4)
    let data := sliceBytes b 32 (leField b 12 2)
    let i := leField b 20 2
    let ctx := h.regFld Reg.mirrorCtx 11 0
    let own : Word := BitVec.ofNat 32 h.epoch
    let cores := h.partPhys part
    let op := leField b 17 1
    let number := leField b 20 4
    (front HtpType.heartbeat → p.beaten = false →
      ∃ t, exec .heartbeat s = .next t ∧ t.mem = s.mem ∧ t.hw.partner.inbox = rest ∧
        t.hw.reg Reg.ptnEpochOffset = BitVec.ofNat 32 (leField b 32 4) - own ∧ t.hw.partner.beat = true ∧
        t.hw.partner.beaten = true ∧ (leField b 37 1 = 1 → t.hw.partner.failedBeat = true)) ∧
    (front HtpType.mirror → h.role = 2 → p.mirrorIn = none → h.mirrorEntry entry = some m → i < h.mirrorCount →
     leField b 24 8 = 0 → data.length ≤ m.framed → 0 < min data.length m.bytes →
      ∃ t, exec (.mirror entry) s = .next t ∧ s.quiet t ∧ t.hw.regs = h.regs ∧ t.hw.partner.inbox = rest ∧
        t.hw.atu.own = h.atu.own ++ [{ ownWrite 1 49 ctx (h.regFld Reg.mirrorCtx 19 16) (if h.mirrorBank then m.dstB else m.dstA)
          (data.take (min data.length m.bytes)) 0 .mirror with id := h.atu.nextOwn }] ∧
        t.hw.partner.mirrorIn = some (ep, [(i, data.length)], data, false)) ∧
    (front HtpType.mirrorCommit → h.underWay (fun g => g == .mirror) = false → h.role = 2 → p.mirrorIn = some (ep, seen, bytes, false) →
     (∀ j, j < h.mirrorCount → ∃ e, h.mirrorEntry (table.getD j []) = some e ∧ e.framed = mirrorGot seen j) →
     leField b 20 4 = h.mirrorCount → leField b 24 4 = bytes.length → leField b 28 4 = (crc32 bytes).toNat →
      ∃ t, exec (.mirrorCommit table) s = .next t ∧ s.quiet t ∧ t.hw.partner.inbox = rest ∧
        t.hw.reg Reg.ptnMirror = BitVec.ofNat 32 ep ∧ t.hw.regBit Reg.ptnMirrorInfo 0 = h.mirrorBank ∧
        t.hw.regBit Reg.ptnMirrorInfo 1 = true ∧ t.hw.partner.mirrorIn = none) ∧
    (s.serves Reg.ptnCtrl → exec .takeoverWrite s = .next (s.withHw (h.setRegBit Reg.ptnCtrl 31 true))) ∧
    (front HtpType.cutArrive →
      ∃ t, exec .cutArrive s = .next t ∧ s.quiet t ∧ t.hw.partner.inbox = rest ∧
        (leField b 18 2, signed 64 (leField b 24 8) * (2 ^ 32 : Nat) + leField b 20 4) ∈
          t.hw.cutOthers (leField b 16 1) (leField b 17 1)) ∧
    (cores ≠ [] → cores.Nodup →
     (∀ c ∈ cores, ∃ w, (s.before c).cut = some w ∧ w.id = barrier.val ∧ w.x = true ∧ w.release = none) →
     h.cutRun part barrier = some cut → cut.launch = none → cut.own = some ours →
     cut.others.find? (fun y => y.1 == cut.use) = some (cut.use, theirs) →
      let at_ := max ours theirs + (h.regFld Reg.cutLead 19 0 * 2 ^ 32 : Nat)
      (at_ ≤ h.cutTime →
        ∃ t, exec (.cutPtnRelease part barrier) s = .next t ∧ t.mem = s.mem ∧
          (∀ c ∈ cores, ∀ w, (s.before c).cut = some w →
            (t.before c).cut = some { w with release := some (h.releaseClock part barrier) }) ∧
          (∀ c, c ∉ cores → t.hw.core c = h.core c)) ∧
      (h.cutTime < at_ → exec (.cutPtnRelease part barrier) s = .next s)) ∧
    (exchange 0 → ∃ t, exec .opDesire s = .next t ∧ s.quiet t ∧ t.hw.partner.inbox = rest ∧
      t.hw.power.partner = some op ∧ t.hw.power.heldByPartner = false) ∧
    (exchange 1 → ¬ (h.power.inForce < h.vidOf op ∧ h.curOp < op) →
      ∃ t, exec .opPropose s = .next t ∧ s.quiet t ∧ t.hw.partner.inbox = rest ∧
        t.hw.power.proposal = some ⟨number, op, leField b 24 8, false, true, false, false⟩) ∧
    (h.power.proposal = some w → w.n = number → w.confirmed = false →
      (exchange 2 → h.leads = false →
        ∃ t, exec .opReady s = .next t ∧ s.quiet t ∧ t.hw.partner.inbox = rest ∧
          t.hw.power.proposal = some { w with ready := true }) ∧
      (exchange 2 → h.leads = true → w.volt = true → h.cutNs + 20000 ≤ w.tsw →
        ∃ t, exec .opReady s = .next t ∧ s.quiet t ∧ t.hw.partner.inbox = rest ∧
          t.hw.power.proposal = some { w with ready := true, confirmed := true }) ∧
      (exchange 3 → h.cutNs < w.tsw →
        ∃ t, exec .opConfirm s = .next t ∧ s.quiet t ∧ t.hw.partner.inbox = rest ∧
          t.hw.power.proposal = some { w with confirmed := true })) ∧
    (exchange 4 → ∃ t, exec .opAlert s = .next t ∧ t.mem = s.mem ∧ t.hw.partner.inbox = rest ∧
      t.hw.power.heldByPartner = true ∧ t.hw.curOp = 0)

/-! ### The Safety Monitor (12_functional_safety.md R484 to R518) -/

/-- R485, R488, R493, R501, R509, R510, R512, R514, R518: Joker segments, Redeal comparison, class A, the safety rings,
verdicts, SAFE_ERR and validation injection. A segment that is due begins on the core that serves the index at wheel
position 0, holds it for 512 cycles and, when its signature is right, counts as matched; a comparison without mismatch only
ends its primary; the first class A cause stops SAFE_ERR and is recorded; a record is sent to its ring while there is room,
and TAIL advances when memory has it; a verdict that is ready is given; an injection is made with the permit and denied
without it. -/
def Obligations.SafetyMonitor : Prop :=
  ∀ (s : State) (l : Fin 64) (k p : Nat) (part : Fin 16) (x : Primary) (code : BitVec 8) (detail : Half) (verdict : Bool)
    (r : List Byte) (rs : List (List Byte)) (v : Word) (run : VerdictRun) (target : BitVec 7) (segment : Fin 8) (slot : Fin 32),
    let h := s.hw
    let j := h.joker l
    let held := h.classAHeld
    let o := safetyRing verdict
    let tail := h.reg o.2.2.2
    let pa := h.ringBase o.1 + 32 * (tail.toNat % 2 ^ ringLog (h.reg o.2.1))
    let waiting (y : Safety) : List (List Byte) := if verdict then y.verdictWait else y.ageWait
    let failsAs (t : State) (cause : Nat) : Prop := t.hw.classAHeld = true ∧ t.hw.safety.safe0 = false ∧ t.hw.safety.safe1 = false ∧
      t.hw.regBit Reg.smStatus 30 = false ∧ (t.hw.reg Reg.smCause).toNat = 2 ^ 31 + cause ∧ t.hw.reg64 Reg.smTime = h.now.toNat
    let permit := h.regBit Reg.smInjCtrl 31
    let injects (c : Instr) (y : Safety) : Prop := (permit = true → exec c s = .next (s.withHw (h.updSafety fun _ => y))) ∧
      (permit = false → exec c s = .next (s.withHw (h.setRegBit Reg.smInjStatus 1 true)))
    (l.val < h.inService → h.coreUp (h.phys l) = true → j.running = none → j.begun < 8 → h.jokerTime l j.begun = true →
     ((s.before (h.phys l)).canIssue = true → (s.before (h.phys l)).clock % 8 = 0) →
      ∃ t, exec (.jokerSegmentStart l) s = .next t ∧ t.mem = s.mem ∧ s.onlyCore t (h.phys l) ∧ s.onlyRegs t [] ∧
        (t.before (h.phys l)).mx.hold = (s.before (h.phys l)).mx.hold + 512 ∧
        t.hw.joker l = { j with begun := j.begun + 1, running := some (j.begun, h.phys l) }) ∧
    (j.running = some (k, p) → h.safety.injJoker = [] →
      ∃ t, exec (.jokerSegmentEnd l 0) s = .next t ∧ s.quiet t ∧ s.onlyRegs t [Reg.jkStatus] ∧
        t.hw.joker l = { j with running := none, matched := j.matched + 1 }) ∧
    (h.caller.primaries.find? (fun y => y.part == part.val && y.ended && y.copy.isSome) = some x → h.safety.injRedeal = [] →
     x.mismatches false = [] →
      ∃ t, exec (.redealCompare part) s = .next t ∧ s.quiet t ∧ s.onlyRegs t [Reg.rdStatus] ∧
        t.hw.caller.primaries = h.caller.primaries.filter (fun y => y.id != x.id)) ∧
    (h.boot.good = true → held = false → (h.checking = true → h.regBit Reg.lfcStatus 31 = true) →
      (1 ≤ code.toNat → code.toNat ≤ 12 → ∃ t, exec (.classAReaction code detail) s = .next t ∧ s.quiet t ∧
        failsAs t (code.toNat * 2 ^ 16 + detail.toNat)) ∧
      (∃ t, exec .safeErrReadbackFail s = .next t ∧ s.quiet t ∧ failsAs t (0x0A * 2 ^ 16)) ∧
      (permit = true → s.serves Reg.smInjCtrl →
        ∃ t, exec .injectClassA s = .next t ∧ s.quiet t ∧ failsAs t (0x0C * 2 ^ 16) ∧
          t.hw.regBit Reg.smInjStatus 0 = true)) ∧
    (waiting h.safety = r :: rs → h.regBit o.2.1 0 = true → ringRoom tail (h.reg o.2.2.1) (ringLog (h.reg o.2.1)) = true →
     h.admitted pa 0 true true = true → h.underWay (fun g => g == .safetyRing verdict) = false →
      ∃ t y, exec (.safetyRingWrite verdict) s = .next t ∧ s.quiet t ∧ t.hw.regs = h.regs ∧ t.hw.safety = h.safety ∧
        y ∈ t.hw.atu.own ∧ y.goal = .safetyRing verdict ∧ y.sys = true ∧ y.write = true ∧ y.parts = [⟨pa, r.length, r, []⟩]) ∧
    (waiting h.safety = r :: rs →
      let t := s.withHw (h.safetyRingDone verdict false)
      s.quiet t ∧ waiting t.hw.safety = rs ∧ t.hw.reg o.2.2.2 = tail + 1) ∧
    (s.serves Reg.ageHead → (tail - v).toNat ≤ 2 ^ ringLog (h.reg o.2.1) →
      exec (.safetyRingHeadWrite verdict v) s = .next (s.withHw (h.setReg o.2.2.1 v))) ∧
    (s.serves Reg.ageHead → 2 ^ ringLog (h.reg o.2.1) < (tail - v).toNat →
      exec (.safetyRingHeadWrite verdict v) s = .next (s.withHw (h.setRegBit o.2.1 15 true))) ∧
    (h.safety.verdicts.find? (fun y => y.part == part.val) = some run → h.verdictReady run = true →
      ∃ t, exec (.verdictWrite part) s = .next t ∧ s.quiet t ∧ s.onlyRegs t [Reg.verdict part] ∧
        t.hw.safety.verdictWait = h.safety.verdictWait ++ [h.verdictBytes run] ∧
        (t.hw.reg (Reg.verdict part)).toNat = run.result * 2 ^ 30 + run.epoch % 2 ^ 16) ∧
    (h.regBit Reg.smStatus 30 = true →
      exec .safeErrToggle s = .next (s.withHw (h.updSafety fun y => { y with safe0 := !y.safe0, safe1 := y.safe0 }))) ∧
    (h.regBit Reg.smStatus 30 = false → exec .safeErrToggle s = .next s) ∧
    (s.serves Reg.smInjCtrl →
      injects (.injectJoker target segment)
        { h.safety with injJoker := h.safety.injJoker ++ [(target.toNat, segment.val, h.epoch + 1)] } ∧
      injects (.injectRedeal part) { h.safety with injRedeal := h.safety.injRedeal ++ [part.val] } ∧
      injects (.injectAge slot) { h.safety with injAge := h.safety.injAge ++ [slot.val] })

/-! ### The Coffer and COMMIT (15_coffer_boot_configuration.md R573 to R602; 13_faults_reset_recovery.md R539, R540) -/

/-- R539, R540, R579 to R585: STORE sessions, the staging buffer, the engine's own stores and the windows of the error log
and the crash dump. While an operation runs or an engine's store is due, a STORE operation is refused. OPEN erases the
target copy, CHUNK programs a sector from the staging buffer and verifies it, CLOSE makes the copy the active one, ABORT
ends the session. -/
def Obligations.CofferStores : Prop :=
  ∀ (s : State) (kind : BitVec 4) (i : Byte) (word : Fin 1024) (v : Word) (x : StoreSession) (own : Fin 8) (verify : Bool),
    let h := s.hw
    let c := h.coffer
    let st (t : State) : Nat := t.hw.regFld Reg.cofStatus 15 0
    let n := kind.toNat
    let len := h.regFld Reg.cofStoreLen 17 0
    let target := (h.storeTarget n).1
    let skip := if i.toNat = 0 then 64 else 0
    (s.serves Reg.elogCtrl →
      exec .elogSave s = .next (s.withHw (h.updCoffer fun y => { y with due := if y.due.contains 5 then y.due else y.due ++ [5] }))) ∧
    (s.serves (Reg.elogData 0) →
      let e := (h.caller.elog.find? fun y => leField y 0 4 == (h.reg Reg.elogIdx).toNat).getD []
      ∃ t, exec .elogDataRead s = .next t ∧ s.quiet t ∧ s.onlyRegs t ((List.range 8).map Reg.elogData) ∧
        t.hw.rdata = t.hw.reg (Reg.elogData 0) ∧
        ∀ k, k < 8 → t.hw.reg (Reg.elogData k) = BitVec.ofNat 32 (leField e (4 * k) 4)) ∧
    (s.serves Reg.dumpData →
      ∃ t, exec .dumpDataRead s = .next t ∧ s.quiet t ∧ s.onlyRegs t [Reg.dumpIdx] ∧ t.hw.rdata = h.dumpWord ∧
        (t.hw.reg Reg.dumpIdx).toNat = (h.regFld Reg.dumpIdx 13 0 + 1) % 16384) ∧
    (s.serves Reg.dumpStatus → exec .dumpRearm s = .next (s.withHw (h.setReg Reg.dumpStatus 0))) ∧
    (s.serves (Reg.cofStage word) →
      exec (.stageWrite word v false) s = .next (s.withHw (h.setReg (Reg.cofStage word) v)) ∧
      exec (.stageWrite word v true) s = .next (s.withHw (h.setRegBit Reg.cofStatus 28 true))) ∧
    (s.serves Reg.cofStoreCtrl → c.due ≠ [] →
      ∀ cmd ∈ [Instr.storeOpen kind false, .storeChunk i false verify, .storeClose false verify, .storeAbort false],
        exec cmd s = .next (s.withHw (h.setRegBit Reg.cofStatus 29 true))) ∧
    (s.serves Reg.cofStoreCtrl → c.due = [] → h.bootDone = true →
      (c.session = none → n ∈ [0, 3, 4, 7] → len ≠ 0 → len ≤ (cofferKind n).limit → h.wornCopy n target = false →
        ∃ t, exec (.storeOpen kind false) s = .next t ∧ s.quiet t ∧ st t = Status.ok ∧
          t.hw.coffer.session = some ⟨n, target, (h.storeTarget n).2, len, []⟩ ∧
          ∀ a, (copySectors n target).contains (a / 4096) = true → t.hw.coffer.read a 1 = [0xFF]) ∧
      (c.session = some x → i.toNat < x.reach → i.toNat ∉ x.chunks →
        let a := x.base + 4096 * i.toNat + skip
        (∃ t, exec (.storeChunk i false true) s = .next t ∧ s.quiet t ∧ st t = Status.ok ∧
          t.hw.coffer.session = some { x with chunks := i.toNat :: x.chunks } ∧
          t.hw.coffer.read a (4096 - skip) = h.staging.drop skip ∧
          ∀ b, b < a ∨ a + 4096 - skip ≤ b → t.hw.coffer.read b 1 = c.read b 1) ∧
        (∃ t, exec (.storeChunk i false false) s = .next t ∧ s.quiet t ∧ st t = Status.ecc ∧ t.hw.coffer.session = none)) ∧
      (c.session = some x → (∀ k, k < x.reach → k ∈ x.chunks) →
        (c.bad (x.base + 64) x.length = false →
          ∃ t, exec (.storeClose false true) s = .next t ∧ s.quiet t ∧ st t = Status.ok ∧ t.hw.coffer.session = none ∧
            t.hw.coffer.read x.base 64 = h.copyHeader x.kind x.seq (c.read (x.base + 64) x.length)) ∧
        (∃ t, exec (.storeClose false false) s = .next t ∧ s.quiet t ∧ st t = Status.ecc ∧ t.hw.coffer.session = none ∧
          t.hw.coffer.bytes = c.bytes)) ∧
      (c.session = some x →
        ∃ t, exec (.storeAbort false) s = .next t ∧ s.quiet t ∧ st t = Status.ok ∧ t.hw.coffer.session = none ∧
          t.hw.coffer.bytes = c.bytes)) ∧
    (own.val ∈ c.due →
      ∃ t, exec (.engineStore own verify) s = .next t ∧ s.quiet t ∧ t.hw.coffer.due = c.due.erase own.val) ∧
    (own.val ∉ c.due → exec (.engineStore own verify) s = .next s)

/-- R595, R596, R600: GO captures every shadow value for the next boundary, REVERT gives every shadow its committed value,
and both are refused while a set is captured; a set that is due and in conflict with nothing is committed. -/
def Obligations.CommitProtocol : Prop :=
  ∀ (s : State) (at_ : Bool) (c : Captured), s.serves Reg.commitCtrl →
    let h := s.hw
    let refused (cmd : Instr) : Prop := exec cmd s = .next (s.withHw (h.setRegBit Reg.commitStatus 30 true))
    (h.captured = none → h.bootDone = true →
      ∃ t x, exec (.commitGo false) s = .next t ∧ s.quiet t ∧ s.onlyRegs t [Reg.commitStatus] ∧
        t.hw.regBit Reg.commitStatus 31 = true ∧ t.hw.captured = some x ∧ x.regs = h.shadow ∧ x.target = none) ∧
    (h.captured ≠ none → refused (.commitGo at_) ∧ refused .commitRevert) ∧
    (h.captured = none →
      ∃ t, exec .commitRevert s = .next t ∧ s.quiet t ∧ t.hw.regs = h.regs ∧
        ∀ o, t.hw.shadowReg o &&& BitVec.ofNat 32 (rwsMask o) = h.reg o &&& BitVec.ofNat 32 (rwsMask o)) ∧
    (h.captured = some c → c.due = true → conflicts { h with captured := none } (Hw.withSet { h with captured := none } c.regs) ≠ [] →
      ∃ t, exec .commitEffect s = .next t ∧ s.quiet t ∧ t.hw.captured = none ∧ t.hw.regBit Reg.commitStatus 31 = false ∧
        t.hw.regFld Reg.commitStatus 15 0 = Status.conflict ∧ t.hw.regBit Reg.commitConflict 31 = true) ∧
    (h.captured = some c → c.due = true → conflicts { h with captured := none } (Hw.withSet { h with captured := none } c.regs) = [] →
      ∃ t, exec .commitEffect s = .next t ∧ t.hw.regBit Reg.commitStatus 31 = false ∧
        t.hw.regFld Reg.commitStatus 15 0 = Status.ok) ∧
    (h.captured = none → exec .commitEffect s = .next s)

/-- R575: of two valid copies of a kind, shown with SEQ and LENGTH, the one with the greater SEQ is active, on equal SEQ copy
A; a copy that alone is valid is active; with neither the kind is absent. -/
def Obligations.ActiveCopy : Prop :=
  ∀ (h : Hw) (kind : Fin 8) (a b : CopyShown) (x y : Nat × Nat),
    let t := h.showKind kind a b
    let state := t.reg (Reg.cofKindState kind)
    let activeB := bitOf state 2
    let length := (t.reg (Reg.cofKindLen kind)).toNat
    (bitOf state 0 = a.isSome ∧ bitOf state 1 = b.isSome) ∧
    (a = some x → b = some y → activeB = decide (x.1 < y.1) ∧ length = (if x.1 < y.1 then y.2 else x.2) % 2 ^ 32) ∧
    (a = some x → b = none → activeB = false ∧ length = x.2 % 2 ^ 32) ∧
    (a = none → b = some y → activeB = true ∧ length = y.2 % 2 ^ 32) ∧
    (a = none → b = none → state = 0 ∧ length = 0)

/-! ### Resets, recovery, retirement and boot (13_faults_reset_recovery.md R526 to R546; 15 R588 to R593) -/

/-- R526, R527, 09 R399, R542 to R544: a context reset of a context without kernels begins, its clear ends it, its
generation goes up once no orphan holds the new value; a retirement waits for its replacement, and a Kitty core or the
core of the highest index takes the retired core's index. -/
def Obligations.ResetsAndRetirement : Prop :=
  ∀ (s : State) (c : Fin 4096) (r : CtxReset) (p : CoreIx) (trigger l k cycles : Nat),
    let h := s.hw
    let bit (t : State) : Bool := t.hw.regBit (Reg.retiredMap (p / 32)) (p % 32)
    let retiring := h.boot.retiring.find? (fun x => x.1 == p.val) = some (p.val, trigger)
    let leaving := h.boot.leaving.find? (fun x => x.1 == p.val) = some (p.val, trigger)
    let top := h.inService - 1
    let free (t : State) (q : Nat) : Prop := t.hw.boot.kittyFree = h.boot.kittyFree.filter (· != q)
    (s.serves Reg.ctxRst → h.regBit Reg.rstStatus 31 = true →
      exec (.ctxRst c) s = .next (s.withHw (h.setRegBit Reg.rstStatus 30 true))) ∧
    (s.serves Reg.ctxRst → h.regBit Reg.rstStatus 31 = false → h.ctx? c = none →
      exec (.ctxRst c) s = .next (s.withHw (h.setRegFld Reg.rstStatus 15 0 Status.conflict))) ∧
    (s.serves Reg.ctxRst → h.regBit Reg.rstStatus 31 = false → (h.ctx? c).isSome = true → h.kernelsOf c = [] →
     h.caller.resets = [] → (∀ q, q < 16 → (h.keep q).retired = false) →
      ∃ t x, exec (.ctxRst c) s = .next t ∧ t.mem = s.mem ∧ t.hw.regBit Reg.rstStatus 31 = true ∧
        t.hw.regFld Reg.rstStatus 15 0 = Status.ok ∧ t.hw.reg Reg.rstSeq = h.reg Reg.rstSeq + 1 ∧ t.hw.caller.resets = [x] ∧
        x.ctx = c.val ∧ x.status = Status.contextReset ∧ x.ended = false) ∧
    (h.caller.resets = [r] → r.ctx = c.val → r.ended = false → r.clears = [] → h.recordsDue c = false →
      ∃ t, exec (.contextResetEnd c) s = .next t ∧ s.quiet t ∧ t.hw.regBit Reg.rstStatus 31 = false ∧
        t.hw.caller.resets = if r.genDone then [] else [{ r with ended := true }]) ∧
    (h.caller.resets = [r] → r.ctx = c.val → r.genDone = false → (h.ctx? c).isSome = true →
      let gen := (h.genOf c + 1) % 16
      (h.orphanHolds c gen = false →
        ∃ t, exec (.generationIncrement c) s = .next t ∧ s.quiet t ∧ t.hw.genOf c = gen) ∧
      (h.orphanHolds c gen = true → exec (.generationIncrement c) s = .next s)) ∧
    (retiring → h.servedBy p = some l → h.atBoundary l = true → h.boot.kittyFree ≠ [] →
      ∃ t, exec (.coreRetire p) s = .next t ∧ s.quiet t ∧ t.hw.regs = h.regs ∧
        t.hw.boot.retiring = h.boot.retiring.filter (fun x => x.1 != p.val) ∧
        t.hw.boot.leaving = h.boot.leaving ++ [(p.val, trigger)]) ∧
    (leaving → h.servedBy p = some l → h.nearestKitty p = some k →
      ∃ t, exec (.kittySubstituted p cycles) s = .next t ∧ t.hw.phys l = k ∧ bit t = true ∧ (t.before p).run = .retired ∧
        free t k ∧ t.hw.inService = h.inService) ∧
    (leaving → h.servedBy p = some l → h.boot.kittyFree = [] → h.atBoundary top = true → 0 < h.inService →
     (∀ q, h.partOf top = some q → h.partPlan q = false ∧ (h.keep q).lastCtx = none) →
      ∃ t, exec (.donorMove p cycles) s = .next t ∧ bit t = true ∧ (t.before p).run = .retired ∧
        t.hw.inService = top ∧ (l ≠ top → t.hw.phys l = h.phys top))

/-- R515, R516, R534 to R538, R588 to R590: ENG_RST with its key on an engine without contexts begins a reset, other values
are ignored; its phases follow each other, the on-chip memory is lost in phase 3, which waits for the reset input; the
Latent Fault Check that passes starts SAFE_ERR, and one that fails is class A; boot phases follow each other; an image whose
fetch fails is fetched once more. -/
def Obligations.BootAndEngineReset : Prop :=
  ∀ (s : State) (key : BitVec 16) (findings : List Finding) (testEn : Bool) (results : BitVec 17) (us ended : Word) (image : MemAnswer),
    let h := s.hw
    let b := h.boot
    let phase (t : State) (n : Nat) : Prop := t.hw.boot.rstPhase = some n
    let ends : Instr := .engineResetPhaseEnd findings testEn us
    let boots (n : Nat) : Prop := ∃ t, exec (.bootPhaseEnd us) s = .next t ∧ t.hw.boot.phase = some (n + 1) ∧
      t.hw.regFld Reg.bootStatus 2 0 = n + 1 ∧ t.hw.reg (Reg.bootPhaseEnd n) = us
    (s.serves Reg.engRst → b.good = true → b.rstPhase = none → h.contexts = [] →
      ∃ t, exec (.engRst 0x5245) s = .next t ∧ s.quiet t ∧ phase t 1 ∧ t.hw.bootDone = false ∧ t.hw.regBit Reg.smStatus 30 = false ∧
        t.hw.safety.safe0 = false ∧ t.hw.safety.safe1 = false) ∧
    (key ≠ 0x5245 ∨ b.rstPhase ≠ none → exec (.engRst key) s = .next s) ∧
    (b.rstPhase = some 1 → h.planRecordsDue = false → ∃ t, exec ends s = .next t ∧ s.quiet t ∧ phase t 2) ∧
    (b.rstPhase = some 2 → h.saved = true →
      ∃ t, exec ends s = .next t ∧ phase t 3 ∧ (∀ p w, p < 68 → w < 2 ^ 22 → t.mem.byte (pantryAddr p 0 + w) = 0) ∧
        ∀ w, w < 2 ^ 26 → t.mem.byte (loftAddr 0 + w) = 0) ∧
    (b.rstPhase = some 3 → b.held = false →
      (b.engLow = true → ∃ t, exec ends s = .next t ∧ s.quiet t ∧ phase t 3 ∧ t.hw.boot.held = true) ∧
      (b.engLow = false → ∃ t, exec ends s = .next t ∧ s.quiet t ∧ phase t 4 ∧ t.hw.regBit Reg.globalStatus 0 = true)) ∧
    (b.rstPhase = some 5 → h.checkPassed = true →
      ∃ t, exec ends s = .next t ∧ s.quiet t ∧ phase t 6 ∧ t.hw.boot.phase = some 1 ∧ t.hw.regFld Reg.bootStatus 2 0 = 1) ∧
    (h.checking = true → h.regBit Reg.lfcStatus 31 = false →
      (∃ t, exec (.latentFaultCheck 0x1FFFF us ended) s = .next t ∧ s.quiet t ∧ t.hw.checkPassed = true ∧ t.hw.reg Reg.lfcTime = us ∧
        t.hw.classAHeld = false ∧ t.hw.regBit Reg.smStatus 30 = true ∧ t.hw.safety.safe0 = true ∧ t.hw.safety.safe1 = false) ∧
      (results ≠ 0x1FFFF → ∃ t, exec (.latentFaultCheck results us ended) s = .next t ∧ s.quiet t ∧ t.hw.checkPassed = false ∧
        t.hw.regFld Reg.lfcStatus 16 0 = results.toNat ∧ t.hw.classAHeld = true ∧ t.hw.boot.stopped = true ∧ t.hw.reg Reg.bootTime = ended)) ∧
    (b.phase = some 1 → b.rstPhase = none → boots 1) ∧
    (b.phase = some 2 → h.checkPassed = true → boots 2) ∧
    (b.phase = some 4 → h.fetchOver = true → boots 4) ∧
    (b.phase = some 4 → h.regBit Reg.bootStatus 12 = false → b.image < h.imageCount →
      (b.again = false → ∃ t, exec (.imageFetchDone image false) s = .next t ∧ s.quiet t ∧ t.hw.boot.again = true ∧
        t.hw.boot.image = b.image ∧ t.hw.regBit Reg.bootStatus 11 = true) ∧
      (b.again = true → ∃ t, exec (.imageFetchDone image false) s = .next t ∧ s.quiet t ∧ t.hw.regBit Reg.bootStatus 12 = true ∧
        t.hw.fetchOver = true))

/-! ### Pins, the test wrapper and bit errors (16_boundary_and_register_map.md R616 to R623; 06 R228) -/

/-- R616 to R622, 06 R228, 15 R574: power rises and falls, the reset inputs, the test wrapper's instruction and an access to
an on-chip memory behind it, and an error in a stored word. When PWR_GOOD falls the cores are without state and the on-chip memory and all registers outside the
Dealer's block are lost, while the Dealer and the Coffer's bytes stay. -/
def Obligations.PinsAndPower : Prop :=
  ∀ (s : State) (testEn : Bool) (code : BitVec 4) (p : CoreIx) (word : Fin 131072) (unit : Fin 2097152) (bundle : Fin 16384)
    (cw : Fin 32768) (more : Bool) (data : BitVec 256),
    let h := s.hw
    let b := h.boot
    let waits := b.good = true ∧ b.rstPhase = none ∧ b.phase = none ∧ h.bootDone = false ∧ b.stopped = false
    (b.aon = false → exec .aonPwrgdRise s = .next (s.withHw (h.updBoot fun x => { x with aon := true }))) ∧
    (b.aon = true → b.good = false →
      ∃ t, exec .aonPwrgdFall s = .next t ∧ s.quiet t ∧ t.hw.boot.aon = false ∧ t.hw.dealer.running = false ∧
        t.hw.dealer.ledger = h.dealer.ledger ∧ t.hw.dealer.sealCount = h.dealer.sealCount) ∧
    (b.aon = true → b.good = false → b.engLow = false →
      ∃ t, exec (.pwrGoodRise testEn) s = .next t ∧ s.quiet t ∧ t.hw.boot.good = true ∧ t.hw.boot.phase = some 0 ∧
        t.hw.boot.testEn = testEn ∧ t.hw.regBit Reg.globalStatus 0 = true) ∧
    (b.good = true →
      ∃ t, exec .pwrGoodFall s = .next t ∧ t.hw.boot.good = false ∧ t.hw.cores = [] ∧ t.hw.dealer = h.dealer ∧
        t.hw.coffer.bytes = h.coffer.bytes ∧
        (∀ o, t.hw.reg o = if dealerOffset o then h.reg o else regReset o) ∧
        (∀ q w, q < 68 → w < 2 ^ 22 → t.mem.byte (pantryAddr q 0 + w) = 0) ∧
        ∀ w, w < 2 ^ 26 → t.mem.byte (loftAddr 0 + w) = 0) ∧
    (b.good = true → b.rstPhase = none → h.contexts = [] → h.bootDone = true →
      ∃ t, exec .engRstNAssert s = .next t ∧ s.quiet t ∧ t.hw.boot.engLow = true ∧ t.hw.boot.rstPhase = some 1 ∧
        t.hw.bootDone = false ∧ t.hw.regBit Reg.globalStatus 1 = true) ∧
    (b.held = true → b.good = true →
      ∃ t, exec .engRstNDeassert s = .next t ∧ s.quiet t ∧ t.hw.boot.engLow = false ∧ t.hw.boot.rstPhase = some 4 ∧
        t.hw.regBit Reg.globalStatus 1 = false) ∧
    (b.held = false → waits →
      ∃ t, exec .engRstNDeassert s = .next t ∧ s.quiet t ∧ t.hw.boot.engLow = false ∧ t.hw.boot.phase = some 0) ∧
    (b.dlrLow = false →
      ∃ t, exec .dlrRstNAssert s = .next t ∧ s.quiet t ∧ t.hw.boot.dlrLow = true ∧ t.hw.dealer.running = false ∧
        (b.good = true → t.hw.classAHeld = true)) ∧
    (b.testEn = true →
      ∃ t, exec (.testWrapperUpdate (.instruction code)) s = .next t ∧ s.quiet t ∧ t.hw.regs = h.regs ∧
        (code = 0 ∨ code = 4 ∨ (code.toNat < 4 ∧ b.held = true) → t.hw.boot.wir = code) ∧
        (4 < code.toNat → t.hw.boot.wir = 0) ∧
        (code ≠ 0 → code.toNat < 4 → b.held = false → t.hw.boot.wir = 0 ∧ t.hw.boot.testRefused = true)) ∧
    (b.testEn = false → exec (.testWrapperUpdate (.instruction code)) s = .next s) ∧
    (b.testEn = true → b.wir = 4 → b.good = true → 5 ∈ b.segments →
      let at_ := pantryAddr p (32 * word)
      let read : Instr := .testWrapperUpdate (.access (.read (.pantry p word)))
      let write : Instr := .testWrapperUpdate (.access (.write (.pantry p word) data))
      (b.held = true → ∃ t, exec read s = .next t ∧ s.quiet t ∧ t.hw.outs = .test (s.mem.bytes at_ 32) :: h.outs) ∧
      (b.held = true → ∃ t, exec write s = .next t ∧ t.hw = h ∧ s.putsBytes t at_ (leBytes 32 data.toNat)) ∧
      (b.held = false → ∀ c ∈ [read, write], exec c s = .next (s.withHw (h.updBoot fun x => { x with testRefused := true })))) ∧
    (exec .testWrapperReset s = .next (s.withHw (h.updBoot fun x => { x with wir := 0, testRefused := false, segments := [], cells := [] }))) ∧
    (let hit (target : BitTarget) (g : Nat) : Prop := ∃ t, exec (.bitError target) s = .next t ∧ t.hw = h ∧
       (∀ a, t.mem.byte a = s.mem.byte a) ∧
       t.mem.state g = (match s.mem.state g, more with | .clean, false => .single | _, _ => .uncorrectable)
     hit (.pantry p word more) (pantryAddr p (32 * word)) ∧ hit (.loft unit more) (loftAddr unit)) ∧
    (∃ t, exec (.bitError (.code p bundle)) s = .next t ∧ t.mem = s.mem ∧ s.onlyCore t p ∧ bundle.val ∈ (t.before p).isBad) ∧
    (∃ t, exec (.bitError (.coffer cw more)) s = .next t ∧ s.quiet t ∧ t.hw.regs = h.regs ∧ t.hw.coffer.bytes = h.coffer.bytes ∧
      Tbl.get (fun _ => 0) t.hw.coffer.errs cw = if more ∨ Tbl.get (fun _ => 0) h.coffer.errs cw ≠ 0 then 2 else 1)

/-! ### The register port (00_scope.md R10 to R25; 16_boundary_and_register_map.md R608 to R612) -/

/-- R17 to R19: a read of less than a word returns zero and changes nothing; an offset that no register occupies reads zero, and a write to it changes no register but the log of a denied
access. The _LO word of a 64-bit pair reads its own word and captures the word behind it; the _HI word reads what was
captured last. -/
def Obligations.ReservedOffsetsAndPairs : Prop :=
  ∀ (s : State) (o : BitVec 23) (be : BitVec 4) (v : Word) (cls : BitVec 3) (r : Sys2Proof.RegRow),
    let h := s.hw
    let log := [Reg.regFwLog, Reg.regFwCnt]
    let snap (t : State) (x : Nat) : Word := Tbl.get (fun _ => 0) t.hw.snaps x
    (be ≠ 15 ∨ o.toNat % 4 ≠ 0 → h.boot.aon = true → exec (.pairLoRead o be cls) s = .next (s.withHw { h with rdata := 0 })) ∧
    (regRow o.toNat = none → h.boot.aon = true →
      (∃ t, exec (.pairLoRead o be cls) s = .next t ∧ s.quiet t ∧ t.hw.rdata = 0 ∧ s.onlyRegs t log ∧ t.hw.shadow = h.shadow) ∧
      (∃ t, exec (.registerWrite o be v cls) s = .next t ∧ s.quiet t ∧ s.onlyRegs t log ∧ t.hw.shadow = h.shadow ∧
        t.hw.staged = h.staged)) ∧
    (regRow o.toNat = some r → o.toNat % 4 = 0 → s.serves o.toNat → deniedAccess false o.toNat cls.toNat = false →
      (r.pair = .lo →
        ∃ t, exec (.pairLoRead o 15 cls) s = .next t ∧ s.quiet t ∧ t.hw.rdata = h.value o.toNat ∧
          snap t (o.toNat + 4) = h.value (o.toNat + 4)) ∧
      (r.pair = .hi →
        ∃ t, exec (.pairLoRead o 15 cls) s = .next t ∧ s.quiet t ∧ t.hw.rdata = snap s o.toNat ∧ t.hw.regs = h.regs))

/-- R13: a write to ABI_REQ while a host queue is registered only sets NEG_REJECTED. -/
def Obligations.AbiRequestWithQueues : Prop :=
  ∀ (s : State) (v : Word), s.serves Reg.abiReq → s.hw.hostQueues = true →
    ∃ t, exec (.abiReqWrite v) s = .next t ∧ s.quiet t ∧ s.onlyRegs t [Reg.abiAck] ∧
      t.hw.reg Reg.abiAck = setBit (s.hw.reg Reg.abiAck) 17 true

/-- R11, R18, R20, R23, R612: accesses that are not whole words are ignored; an RW register takes its writable bits, an RWS
register its shadow; a pair is written as its _HI word is; ABI_REQ without queues is granted a version; the vector on
offer leaves as a message and the lowest pending one is offered next; IRQ_TEST pends one. -/
def Obligations.RegisterWrites : Prop :=
  ∀ (s : State) (o : BitVec 23) (be : BitVec 4) (v w : Word) (cls : BitVec 3) (vec : BitVec 6) (n : Nat),
    let h := s.hw
    let base := Reg.faultRingBase
    let at_ (x : Nat) : BitVec 23 := BitVec.ofNat 23 x
    let pend := h.reg64 Reg.irqPend
    (be ≠ 15 ∨ o.toNat % 4 ≠ 0 → exec (.registerWrite o be v cls) s = .next s) ∧
    (s.serves Reg.hangCtrl →
      ∃ t, exec (.registerWrite (at_ Reg.hangCtrl) 15 v 1) s = .next t ∧ s.quiet t ∧ s.onlyRegs t [Reg.hangCtrl] ∧
        t.hw.reg Reg.hangCtrl = mixMask 0x8100FFFF (h.reg Reg.hangCtrl) v ∧ t.hw.shadow = h.shadow) ∧
    (s.serves Reg.pwrOpReq →
      ∃ t, exec (.registerWrite (at_ Reg.pwrOpReq) 15 v 2) s = .next t ∧ s.quiet t ∧ s.onlyRegs t [] ∧
        t.hw.shadowReg Reg.pwrOpReq = mixMask 7 (h.shadowReg Reg.pwrOpReq) v) ∧
    (s.serves base → s.serves (base + 4) →
      (∃ t, exec (.registerWrite (at_ base) 15 v 1) s = .next t ∧ s.quiet t ∧ t.hw.regs = h.regs ∧ t.hw.stagedLo base = v) ∧
      (∃ t, exec (.pairHiWrite (at_ (base + 4)) w 1) s = .next t ∧ s.quiet t ∧ s.onlyRegs t [base, base + 4] ∧
        t.hw.reg base = mixMask 0xFFFFF000 (h.reg base) (h.stagedLo base) ∧
        t.hw.reg (base + 4) = mixMask 0xFFFF (h.reg (base + 4)) w)) ∧
    (s.serves Reg.abiReq → h.hostQueues = false →
      ∃ t, exec (.abiReqWrite v) s = .next t ∧ s.quiet t ∧ s.onlyRegs t [Reg.abiReq, Reg.abiAck] ∧
        t.hw.reg Reg.abiAck = abiGrant v) ∧
    (h.boot.good = true → pend.testBit n = true →
     (h.irqOffer = some n ∨ h.irqOffer = none ∧ lowestVector pend = some n) →
      ∃ t, exec .irqMessage s = .next t ∧ s.quiet t ∧ t.hw.outs = .irq n :: h.outs ∧ t.hw.reg64 Reg.irqPend = pend - 2 ^ n ∧
        t.hw.reg Reg.irqSent = h.reg Reg.irqSent + 1 ∧ t.hw.irqOffer = lowestVector (pend - 2 ^ n)) ∧
    (s.serves Reg.irqTest →
      ∃ t, exec (.irqTest vec) s = .next t ∧ s.quiet t ∧ t.hw.outs = h.outs ∧
        t.hw.reg64 Reg.irqPend = pend ||| 2 ^ vec.toNat ∧
        t.hw.irqOffer = (h.irqOffer <|> lowestVector (pend ||| 2 ^ vec.toNat)))
end

