-- ==== Sys2Proof/Laws/State.lean ====
section
/-!
SUPPORT. What each update of the hardware leaves: one lemma per field and update, and the same for the effect and the
state.
-/
namespace Sys2Proof.Machine

open Sys2Proof

/-! ### updCaller -/

@[simp] theorem Hw.updCaller_regs (h : Hw) (f : Caller → Caller) : (h.updCaller f).regs = h.regs := rfl
@[simp] theorem Hw.updCaller_shadow (h : Hw) (f : Caller → Caller) : (h.updCaller f).shadow = h.shadow := rfl
@[simp] theorem Hw.updCaller_captured (h : Hw) (f : Caller → Caller) : (h.updCaller f).captured = h.captured := rfl
@[simp] theorem Hw.updCaller_snaps (h : Hw) (f : Caller → Caller) : (h.updCaller f).snaps = h.snaps := rfl
@[simp] theorem Hw.updCaller_staged (h : Hw) (f : Caller → Caller) : (h.updCaller f).staged = h.staged := rfl
@[simp] theorem Hw.updCaller_cores (h : Hw) (f : Caller → Caller) : (h.updCaller f).cores = h.cores := rfl
@[simp] theorem Hw.updCaller_serves (h : Hw) (f : Caller → Caller) : (h.updCaller f).serves = h.serves := rfl
@[simp] theorem Hw.updCaller_loft (h : Hw) (f : Caller → Caller) : (h.updCaller f).loft = h.loft := rfl
@[simp] theorem Hw.updCaller_caller (h : Hw) (f : Caller → Caller) : (h.updCaller f).caller = f h.caller := rfl
@[simp] theorem Hw.updCaller_atu (h : Hw) (f : Caller → Caller) : (h.updCaller f).atu = h.atu := rfl
@[simp] theorem Hw.updCaller_dealer (h : Hw) (f : Caller → Caller) : (h.updCaller f).dealer = h.dealer := rfl
@[simp] theorem Hw.updCaller_streams (h : Hw) (f : Caller → Caller) : (h.updCaller f).streams = h.streams := rfl
@[simp] theorem Hw.updCaller_offers (h : Hw) (f : Caller → Caller) : (h.updCaller f).offers = h.offers := rfl
@[simp] theorem Hw.updCaller_safety (h : Hw) (f : Caller → Caller) : (h.updCaller f).safety = h.safety := rfl
@[simp] theorem Hw.updCaller_coffer (h : Hw) (f : Caller → Caller) : (h.updCaller f).coffer = h.coffer := rfl
@[simp] theorem Hw.updCaller_boot (h : Hw) (f : Caller → Caller) : (h.updCaller f).boot = h.boot := rfl
@[simp] theorem Hw.updCaller_power (h : Hw) (f : Caller → Caller) : (h.updCaller f).power = h.power := rfl
@[simp] theorem Hw.updCaller_links (h : Hw) (f : Caller → Caller) : (h.updCaller f).links = h.links := rfl
@[simp] theorem Hw.updCaller_partner (h : Hw) (f : Caller → Caller) : (h.updCaller f).partner = h.partner := rfl
@[simp] theorem Hw.updCaller_rdata (h : Hw) (f : Caller → Caller) : (h.updCaller f).rdata = h.rdata := rfl
@[simp] theorem Hw.updCaller_irqOffer (h : Hw) (f : Caller → Caller) : (h.updCaller f).irqOffer = h.irqOffer := rfl
@[simp] theorem Hw.updCaller_outs (h : Hw) (f : Caller → Caller) : (h.updCaller f).outs = h.outs := rfl
@[simp] theorem Hw.updCaller_free (h : Hw) (f : Caller → Caller) : (h.updCaller f).free = h.free := rfl

/-! ### updLoft -/

@[simp] theorem Hw.updLoft_regs (h : Hw) (f : Loft → Loft) : (h.updLoft f).regs = h.regs := rfl
@[simp] theorem Hw.updLoft_shadow (h : Hw) (f : Loft → Loft) : (h.updLoft f).shadow = h.shadow := rfl
@[simp] theorem Hw.updLoft_captured (h : Hw) (f : Loft → Loft) : (h.updLoft f).captured = h.captured := rfl
@[simp] theorem Hw.updLoft_snaps (h : Hw) (f : Loft → Loft) : (h.updLoft f).snaps = h.snaps := rfl
@[simp] theorem Hw.updLoft_staged (h : Hw) (f : Loft → Loft) : (h.updLoft f).staged = h.staged := rfl
@[simp] theorem Hw.updLoft_cores (h : Hw) (f : Loft → Loft) : (h.updLoft f).cores = h.cores := rfl
@[simp] theorem Hw.updLoft_serves (h : Hw) (f : Loft → Loft) : (h.updLoft f).serves = h.serves := rfl
@[simp] theorem Hw.updLoft_loft (h : Hw) (f : Loft → Loft) : (h.updLoft f).loft = f h.loft := rfl
@[simp] theorem Hw.updLoft_caller (h : Hw) (f : Loft → Loft) : (h.updLoft f).caller = h.caller := rfl
@[simp] theorem Hw.updLoft_atu (h : Hw) (f : Loft → Loft) : (h.updLoft f).atu = h.atu := rfl
@[simp] theorem Hw.updLoft_dealer (h : Hw) (f : Loft → Loft) : (h.updLoft f).dealer = h.dealer := rfl
@[simp] theorem Hw.updLoft_streams (h : Hw) (f : Loft → Loft) : (h.updLoft f).streams = h.streams := rfl
@[simp] theorem Hw.updLoft_offers (h : Hw) (f : Loft → Loft) : (h.updLoft f).offers = h.offers := rfl
@[simp] theorem Hw.updLoft_safety (h : Hw) (f : Loft → Loft) : (h.updLoft f).safety = h.safety := rfl
@[simp] theorem Hw.updLoft_coffer (h : Hw) (f : Loft → Loft) : (h.updLoft f).coffer = h.coffer := rfl
@[simp] theorem Hw.updLoft_boot (h : Hw) (f : Loft → Loft) : (h.updLoft f).boot = h.boot := rfl
@[simp] theorem Hw.updLoft_power (h : Hw) (f : Loft → Loft) : (h.updLoft f).power = h.power := rfl
@[simp] theorem Hw.updLoft_links (h : Hw) (f : Loft → Loft) : (h.updLoft f).links = h.links := rfl
@[simp] theorem Hw.updLoft_partner (h : Hw) (f : Loft → Loft) : (h.updLoft f).partner = h.partner := rfl
@[simp] theorem Hw.updLoft_rdata (h : Hw) (f : Loft → Loft) : (h.updLoft f).rdata = h.rdata := rfl
@[simp] theorem Hw.updLoft_irqOffer (h : Hw) (f : Loft → Loft) : (h.updLoft f).irqOffer = h.irqOffer := rfl
@[simp] theorem Hw.updLoft_outs (h : Hw) (f : Loft → Loft) : (h.updLoft f).outs = h.outs := rfl
@[simp] theorem Hw.updLoft_free (h : Hw) (f : Loft → Loft) : (h.updLoft f).free = h.free := rfl

/-! ### updAtu -/

@[simp] theorem Hw.updAtu_regs (h : Hw) (f : Atu → Atu) : (h.updAtu f).regs = h.regs := rfl
@[simp] theorem Hw.updAtu_shadow (h : Hw) (f : Atu → Atu) : (h.updAtu f).shadow = h.shadow := rfl
@[simp] theorem Hw.updAtu_captured (h : Hw) (f : Atu → Atu) : (h.updAtu f).captured = h.captured := rfl
@[simp] theorem Hw.updAtu_snaps (h : Hw) (f : Atu → Atu) : (h.updAtu f).snaps = h.snaps := rfl
@[simp] theorem Hw.updAtu_staged (h : Hw) (f : Atu → Atu) : (h.updAtu f).staged = h.staged := rfl
@[simp] theorem Hw.updAtu_cores (h : Hw) (f : Atu → Atu) : (h.updAtu f).cores = h.cores := rfl
@[simp] theorem Hw.updAtu_serves (h : Hw) (f : Atu → Atu) : (h.updAtu f).serves = h.serves := rfl
@[simp] theorem Hw.updAtu_loft (h : Hw) (f : Atu → Atu) : (h.updAtu f).loft = h.loft := rfl
@[simp] theorem Hw.updAtu_caller (h : Hw) (f : Atu → Atu) : (h.updAtu f).caller = h.caller := rfl
@[simp] theorem Hw.updAtu_atu (h : Hw) (f : Atu → Atu) : (h.updAtu f).atu = f h.atu := rfl
@[simp] theorem Hw.updAtu_dealer (h : Hw) (f : Atu → Atu) : (h.updAtu f).dealer = h.dealer := rfl
@[simp] theorem Hw.updAtu_streams (h : Hw) (f : Atu → Atu) : (h.updAtu f).streams = h.streams := rfl
@[simp] theorem Hw.updAtu_offers (h : Hw) (f : Atu → Atu) : (h.updAtu f).offers = h.offers := rfl
@[simp] theorem Hw.updAtu_safety (h : Hw) (f : Atu → Atu) : (h.updAtu f).safety = h.safety := rfl
@[simp] theorem Hw.updAtu_coffer (h : Hw) (f : Atu → Atu) : (h.updAtu f).coffer = h.coffer := rfl
@[simp] theorem Hw.updAtu_boot (h : Hw) (f : Atu → Atu) : (h.updAtu f).boot = h.boot := rfl
@[simp] theorem Hw.updAtu_power (h : Hw) (f : Atu → Atu) : (h.updAtu f).power = h.power := rfl
@[simp] theorem Hw.updAtu_links (h : Hw) (f : Atu → Atu) : (h.updAtu f).links = h.links := rfl
@[simp] theorem Hw.updAtu_partner (h : Hw) (f : Atu → Atu) : (h.updAtu f).partner = h.partner := rfl
@[simp] theorem Hw.updAtu_rdata (h : Hw) (f : Atu → Atu) : (h.updAtu f).rdata = h.rdata := rfl
@[simp] theorem Hw.updAtu_irqOffer (h : Hw) (f : Atu → Atu) : (h.updAtu f).irqOffer = h.irqOffer := rfl
@[simp] theorem Hw.updAtu_outs (h : Hw) (f : Atu → Atu) : (h.updAtu f).outs = h.outs := rfl
@[simp] theorem Hw.updAtu_free (h : Hw) (f : Atu → Atu) : (h.updAtu f).free = h.free := rfl

/-! ### updSafety -/

@[simp] theorem Hw.updSafety_regs (h : Hw) (f : Safety → Safety) : (h.updSafety f).regs = h.regs := rfl
@[simp] theorem Hw.updSafety_shadow (h : Hw) (f : Safety → Safety) : (h.updSafety f).shadow = h.shadow := rfl
@[simp] theorem Hw.updSafety_captured (h : Hw) (f : Safety → Safety) : (h.updSafety f).captured = h.captured := rfl
@[simp] theorem Hw.updSafety_snaps (h : Hw) (f : Safety → Safety) : (h.updSafety f).snaps = h.snaps := rfl
@[simp] theorem Hw.updSafety_staged (h : Hw) (f : Safety → Safety) : (h.updSafety f).staged = h.staged := rfl
@[simp] theorem Hw.updSafety_cores (h : Hw) (f : Safety → Safety) : (h.updSafety f).cores = h.cores := rfl
@[simp] theorem Hw.updSafety_serves (h : Hw) (f : Safety → Safety) : (h.updSafety f).serves = h.serves := rfl
@[simp] theorem Hw.updSafety_loft (h : Hw) (f : Safety → Safety) : (h.updSafety f).loft = h.loft := rfl
@[simp] theorem Hw.updSafety_caller (h : Hw) (f : Safety → Safety) : (h.updSafety f).caller = h.caller := rfl
@[simp] theorem Hw.updSafety_atu (h : Hw) (f : Safety → Safety) : (h.updSafety f).atu = h.atu := rfl
@[simp] theorem Hw.updSafety_dealer (h : Hw) (f : Safety → Safety) : (h.updSafety f).dealer = h.dealer := rfl
@[simp] theorem Hw.updSafety_streams (h : Hw) (f : Safety → Safety) : (h.updSafety f).streams = h.streams := rfl
@[simp] theorem Hw.updSafety_offers (h : Hw) (f : Safety → Safety) : (h.updSafety f).offers = h.offers := rfl
@[simp] theorem Hw.updSafety_safety (h : Hw) (f : Safety → Safety) : (h.updSafety f).safety = f h.safety := rfl
@[simp] theorem Hw.updSafety_coffer (h : Hw) (f : Safety → Safety) : (h.updSafety f).coffer = h.coffer := rfl
@[simp] theorem Hw.updSafety_boot (h : Hw) (f : Safety → Safety) : (h.updSafety f).boot = h.boot := rfl
@[simp] theorem Hw.updSafety_power (h : Hw) (f : Safety → Safety) : (h.updSafety f).power = h.power := rfl
@[simp] theorem Hw.updSafety_links (h : Hw) (f : Safety → Safety) : (h.updSafety f).links = h.links := rfl
@[simp] theorem Hw.updSafety_partner (h : Hw) (f : Safety → Safety) : (h.updSafety f).partner = h.partner := rfl
@[simp] theorem Hw.updSafety_rdata (h : Hw) (f : Safety → Safety) : (h.updSafety f).rdata = h.rdata := rfl
@[simp] theorem Hw.updSafety_irqOffer (h : Hw) (f : Safety → Safety) : (h.updSafety f).irqOffer = h.irqOffer := rfl
@[simp] theorem Hw.updSafety_outs (h : Hw) (f : Safety → Safety) : (h.updSafety f).outs = h.outs := rfl
@[simp] theorem Hw.updSafety_free (h : Hw) (f : Safety → Safety) : (h.updSafety f).free = h.free := rfl

/-! ### updDealer -/

@[simp] theorem Hw.updDealer_regs (h : Hw) (f : Dealer → Dealer) : (h.updDealer f).regs = h.regs := rfl
@[simp] theorem Hw.updDealer_shadow (h : Hw) (f : Dealer → Dealer) : (h.updDealer f).shadow = h.shadow := rfl
@[simp] theorem Hw.updDealer_captured (h : Hw) (f : Dealer → Dealer) : (h.updDealer f).captured = h.captured := rfl
@[simp] theorem Hw.updDealer_snaps (h : Hw) (f : Dealer → Dealer) : (h.updDealer f).snaps = h.snaps := rfl
@[simp] theorem Hw.updDealer_staged (h : Hw) (f : Dealer → Dealer) : (h.updDealer f).staged = h.staged := rfl
@[simp] theorem Hw.updDealer_cores (h : Hw) (f : Dealer → Dealer) : (h.updDealer f).cores = h.cores := rfl
@[simp] theorem Hw.updDealer_serves (h : Hw) (f : Dealer → Dealer) : (h.updDealer f).serves = h.serves := rfl
@[simp] theorem Hw.updDealer_loft (h : Hw) (f : Dealer → Dealer) : (h.updDealer f).loft = h.loft := rfl
@[simp] theorem Hw.updDealer_caller (h : Hw) (f : Dealer → Dealer) : (h.updDealer f).caller = h.caller := rfl
@[simp] theorem Hw.updDealer_atu (h : Hw) (f : Dealer → Dealer) : (h.updDealer f).atu = h.atu := rfl
@[simp] theorem Hw.updDealer_dealer (h : Hw) (f : Dealer → Dealer) : (h.updDealer f).dealer = f h.dealer := rfl
@[simp] theorem Hw.updDealer_streams (h : Hw) (f : Dealer → Dealer) : (h.updDealer f).streams = h.streams := rfl
@[simp] theorem Hw.updDealer_offers (h : Hw) (f : Dealer → Dealer) : (h.updDealer f).offers = h.offers := rfl
@[simp] theorem Hw.updDealer_safety (h : Hw) (f : Dealer → Dealer) : (h.updDealer f).safety = h.safety := rfl
@[simp] theorem Hw.updDealer_coffer (h : Hw) (f : Dealer → Dealer) : (h.updDealer f).coffer = h.coffer := rfl
@[simp] theorem Hw.updDealer_boot (h : Hw) (f : Dealer → Dealer) : (h.updDealer f).boot = h.boot := rfl
@[simp] theorem Hw.updDealer_power (h : Hw) (f : Dealer → Dealer) : (h.updDealer f).power = h.power := rfl
@[simp] theorem Hw.updDealer_links (h : Hw) (f : Dealer → Dealer) : (h.updDealer f).links = h.links := rfl
@[simp] theorem Hw.updDealer_partner (h : Hw) (f : Dealer → Dealer) : (h.updDealer f).partner = h.partner := rfl
@[simp] theorem Hw.updDealer_rdata (h : Hw) (f : Dealer → Dealer) : (h.updDealer f).rdata = h.rdata := rfl
@[simp] theorem Hw.updDealer_irqOffer (h : Hw) (f : Dealer → Dealer) : (h.updDealer f).irqOffer = h.irqOffer := rfl
@[simp] theorem Hw.updDealer_outs (h : Hw) (f : Dealer → Dealer) : (h.updDealer f).outs = h.outs := rfl
@[simp] theorem Hw.updDealer_free (h : Hw) (f : Dealer → Dealer) : (h.updDealer f).free = h.free := rfl

/-! ### updBoot -/

@[simp] theorem Hw.updBoot_regs (h : Hw) (f : Boot → Boot) : (h.updBoot f).regs = h.regs := rfl
@[simp] theorem Hw.updBoot_shadow (h : Hw) (f : Boot → Boot) : (h.updBoot f).shadow = h.shadow := rfl
@[simp] theorem Hw.updBoot_captured (h : Hw) (f : Boot → Boot) : (h.updBoot f).captured = h.captured := rfl
@[simp] theorem Hw.updBoot_snaps (h : Hw) (f : Boot → Boot) : (h.updBoot f).snaps = h.snaps := rfl
@[simp] theorem Hw.updBoot_staged (h : Hw) (f : Boot → Boot) : (h.updBoot f).staged = h.staged := rfl
@[simp] theorem Hw.updBoot_cores (h : Hw) (f : Boot → Boot) : (h.updBoot f).cores = h.cores := rfl
@[simp] theorem Hw.updBoot_serves (h : Hw) (f : Boot → Boot) : (h.updBoot f).serves = h.serves := rfl
@[simp] theorem Hw.updBoot_loft (h : Hw) (f : Boot → Boot) : (h.updBoot f).loft = h.loft := rfl
@[simp] theorem Hw.updBoot_caller (h : Hw) (f : Boot → Boot) : (h.updBoot f).caller = h.caller := rfl
@[simp] theorem Hw.updBoot_atu (h : Hw) (f : Boot → Boot) : (h.updBoot f).atu = h.atu := rfl
@[simp] theorem Hw.updBoot_dealer (h : Hw) (f : Boot → Boot) : (h.updBoot f).dealer = h.dealer := rfl
@[simp] theorem Hw.updBoot_streams (h : Hw) (f : Boot → Boot) : (h.updBoot f).streams = h.streams := rfl
@[simp] theorem Hw.updBoot_offers (h : Hw) (f : Boot → Boot) : (h.updBoot f).offers = h.offers := rfl
@[simp] theorem Hw.updBoot_safety (h : Hw) (f : Boot → Boot) : (h.updBoot f).safety = h.safety := rfl
@[simp] theorem Hw.updBoot_coffer (h : Hw) (f : Boot → Boot) : (h.updBoot f).coffer = h.coffer := rfl
@[simp] theorem Hw.updBoot_boot (h : Hw) (f : Boot → Boot) : (h.updBoot f).boot = f h.boot := rfl
@[simp] theorem Hw.updBoot_power (h : Hw) (f : Boot → Boot) : (h.updBoot f).power = h.power := rfl
@[simp] theorem Hw.updBoot_links (h : Hw) (f : Boot → Boot) : (h.updBoot f).links = h.links := rfl
@[simp] theorem Hw.updBoot_partner (h : Hw) (f : Boot → Boot) : (h.updBoot f).partner = h.partner := rfl
@[simp] theorem Hw.updBoot_rdata (h : Hw) (f : Boot → Boot) : (h.updBoot f).rdata = h.rdata := rfl
@[simp] theorem Hw.updBoot_irqOffer (h : Hw) (f : Boot → Boot) : (h.updBoot f).irqOffer = h.irqOffer := rfl
@[simp] theorem Hw.updBoot_outs (h : Hw) (f : Boot → Boot) : (h.updBoot f).outs = h.outs := rfl
@[simp] theorem Hw.updBoot_free (h : Hw) (f : Boot → Boot) : (h.updBoot f).free = h.free := rfl

/-! ### updCoffer -/

@[simp] theorem Hw.updCoffer_regs (h : Hw) (f : Coffer → Coffer) : (h.updCoffer f).regs = h.regs := rfl
@[simp] theorem Hw.updCoffer_shadow (h : Hw) (f : Coffer → Coffer) : (h.updCoffer f).shadow = h.shadow := rfl
@[simp] theorem Hw.updCoffer_captured (h : Hw) (f : Coffer → Coffer) : (h.updCoffer f).captured = h.captured := rfl
@[simp] theorem Hw.updCoffer_snaps (h : Hw) (f : Coffer → Coffer) : (h.updCoffer f).snaps = h.snaps := rfl
@[simp] theorem Hw.updCoffer_staged (h : Hw) (f : Coffer → Coffer) : (h.updCoffer f).staged = h.staged := rfl
@[simp] theorem Hw.updCoffer_cores (h : Hw) (f : Coffer → Coffer) : (h.updCoffer f).cores = h.cores := rfl
@[simp] theorem Hw.updCoffer_serves (h : Hw) (f : Coffer → Coffer) : (h.updCoffer f).serves = h.serves := rfl
@[simp] theorem Hw.updCoffer_loft (h : Hw) (f : Coffer → Coffer) : (h.updCoffer f).loft = h.loft := rfl
@[simp] theorem Hw.updCoffer_caller (h : Hw) (f : Coffer → Coffer) : (h.updCoffer f).caller = h.caller := rfl
@[simp] theorem Hw.updCoffer_atu (h : Hw) (f : Coffer → Coffer) : (h.updCoffer f).atu = h.atu := rfl
@[simp] theorem Hw.updCoffer_dealer (h : Hw) (f : Coffer → Coffer) : (h.updCoffer f).dealer = h.dealer := rfl
@[simp] theorem Hw.updCoffer_streams (h : Hw) (f : Coffer → Coffer) : (h.updCoffer f).streams = h.streams := rfl
@[simp] theorem Hw.updCoffer_offers (h : Hw) (f : Coffer → Coffer) : (h.updCoffer f).offers = h.offers := rfl
@[simp] theorem Hw.updCoffer_safety (h : Hw) (f : Coffer → Coffer) : (h.updCoffer f).safety = h.safety := rfl
@[simp] theorem Hw.updCoffer_coffer (h : Hw) (f : Coffer → Coffer) : (h.updCoffer f).coffer = f h.coffer := rfl
@[simp] theorem Hw.updCoffer_boot (h : Hw) (f : Coffer → Coffer) : (h.updCoffer f).boot = h.boot := rfl
@[simp] theorem Hw.updCoffer_power (h : Hw) (f : Coffer → Coffer) : (h.updCoffer f).power = h.power := rfl
@[simp] theorem Hw.updCoffer_links (h : Hw) (f : Coffer → Coffer) : (h.updCoffer f).links = h.links := rfl
@[simp] theorem Hw.updCoffer_partner (h : Hw) (f : Coffer → Coffer) : (h.updCoffer f).partner = h.partner := rfl
@[simp] theorem Hw.updCoffer_rdata (h : Hw) (f : Coffer → Coffer) : (h.updCoffer f).rdata = h.rdata := rfl
@[simp] theorem Hw.updCoffer_irqOffer (h : Hw) (f : Coffer → Coffer) : (h.updCoffer f).irqOffer = h.irqOffer := rfl
@[simp] theorem Hw.updCoffer_outs (h : Hw) (f : Coffer → Coffer) : (h.updCoffer f).outs = h.outs := rfl
@[simp] theorem Hw.updCoffer_free (h : Hw) (f : Coffer → Coffer) : (h.updCoffer f).free = h.free := rfl

/-! ### updPower -/

@[simp] theorem Hw.updPower_regs (h : Hw) (f : Power → Power) : (h.updPower f).regs = h.regs := rfl
@[simp] theorem Hw.updPower_shadow (h : Hw) (f : Power → Power) : (h.updPower f).shadow = h.shadow := rfl
@[simp] theorem Hw.updPower_captured (h : Hw) (f : Power → Power) : (h.updPower f).captured = h.captured := rfl
@[simp] theorem Hw.updPower_snaps (h : Hw) (f : Power → Power) : (h.updPower f).snaps = h.snaps := rfl
@[simp] theorem Hw.updPower_staged (h : Hw) (f : Power → Power) : (h.updPower f).staged = h.staged := rfl
@[simp] theorem Hw.updPower_cores (h : Hw) (f : Power → Power) : (h.updPower f).cores = h.cores := rfl
@[simp] theorem Hw.updPower_serves (h : Hw) (f : Power → Power) : (h.updPower f).serves = h.serves := rfl
@[simp] theorem Hw.updPower_loft (h : Hw) (f : Power → Power) : (h.updPower f).loft = h.loft := rfl
@[simp] theorem Hw.updPower_caller (h : Hw) (f : Power → Power) : (h.updPower f).caller = h.caller := rfl
@[simp] theorem Hw.updPower_atu (h : Hw) (f : Power → Power) : (h.updPower f).atu = h.atu := rfl
@[simp] theorem Hw.updPower_dealer (h : Hw) (f : Power → Power) : (h.updPower f).dealer = h.dealer := rfl
@[simp] theorem Hw.updPower_streams (h : Hw) (f : Power → Power) : (h.updPower f).streams = h.streams := rfl
@[simp] theorem Hw.updPower_offers (h : Hw) (f : Power → Power) : (h.updPower f).offers = h.offers := rfl
@[simp] theorem Hw.updPower_safety (h : Hw) (f : Power → Power) : (h.updPower f).safety = h.safety := rfl
@[simp] theorem Hw.updPower_coffer (h : Hw) (f : Power → Power) : (h.updPower f).coffer = h.coffer := rfl
@[simp] theorem Hw.updPower_boot (h : Hw) (f : Power → Power) : (h.updPower f).boot = h.boot := rfl
@[simp] theorem Hw.updPower_power (h : Hw) (f : Power → Power) : (h.updPower f).power = f h.power := rfl
@[simp] theorem Hw.updPower_links (h : Hw) (f : Power → Power) : (h.updPower f).links = h.links := rfl
@[simp] theorem Hw.updPower_partner (h : Hw) (f : Power → Power) : (h.updPower f).partner = h.partner := rfl
@[simp] theorem Hw.updPower_rdata (h : Hw) (f : Power → Power) : (h.updPower f).rdata = h.rdata := rfl
@[simp] theorem Hw.updPower_irqOffer (h : Hw) (f : Power → Power) : (h.updPower f).irqOffer = h.irqOffer := rfl
@[simp] theorem Hw.updPower_outs (h : Hw) (f : Power → Power) : (h.updPower f).outs = h.outs := rfl
@[simp] theorem Hw.updPower_free (h : Hw) (f : Power → Power) : (h.updPower f).free = h.free := rfl

/-! ### updPartner -/

@[simp] theorem Hw.updPartner_regs (h : Hw) (f : Partner → Partner) : (h.updPartner f).regs = h.regs := rfl
@[simp] theorem Hw.updPartner_shadow (h : Hw) (f : Partner → Partner) : (h.updPartner f).shadow = h.shadow := rfl
@[simp] theorem Hw.updPartner_captured (h : Hw) (f : Partner → Partner) : (h.updPartner f).captured = h.captured := rfl
@[simp] theorem Hw.updPartner_snaps (h : Hw) (f : Partner → Partner) : (h.updPartner f).snaps = h.snaps := rfl
@[simp] theorem Hw.updPartner_staged (h : Hw) (f : Partner → Partner) : (h.updPartner f).staged = h.staged := rfl
@[simp] theorem Hw.updPartner_cores (h : Hw) (f : Partner → Partner) : (h.updPartner f).cores = h.cores := rfl
@[simp] theorem Hw.updPartner_serves (h : Hw) (f : Partner → Partner) : (h.updPartner f).serves = h.serves := rfl
@[simp] theorem Hw.updPartner_loft (h : Hw) (f : Partner → Partner) : (h.updPartner f).loft = h.loft := rfl
@[simp] theorem Hw.updPartner_caller (h : Hw) (f : Partner → Partner) : (h.updPartner f).caller = h.caller := rfl
@[simp] theorem Hw.updPartner_atu (h : Hw) (f : Partner → Partner) : (h.updPartner f).atu = h.atu := rfl
@[simp] theorem Hw.updPartner_dealer (h : Hw) (f : Partner → Partner) : (h.updPartner f).dealer = h.dealer := rfl
@[simp] theorem Hw.updPartner_streams (h : Hw) (f : Partner → Partner) : (h.updPartner f).streams = h.streams := rfl
@[simp] theorem Hw.updPartner_offers (h : Hw) (f : Partner → Partner) : (h.updPartner f).offers = h.offers := rfl
@[simp] theorem Hw.updPartner_safety (h : Hw) (f : Partner → Partner) : (h.updPartner f).safety = h.safety := rfl
@[simp] theorem Hw.updPartner_coffer (h : Hw) (f : Partner → Partner) : (h.updPartner f).coffer = h.coffer := rfl
@[simp] theorem Hw.updPartner_boot (h : Hw) (f : Partner → Partner) : (h.updPartner f).boot = h.boot := rfl
@[simp] theorem Hw.updPartner_power (h : Hw) (f : Partner → Partner) : (h.updPartner f).power = h.power := rfl
@[simp] theorem Hw.updPartner_links (h : Hw) (f : Partner → Partner) : (h.updPartner f).links = h.links := rfl
@[simp] theorem Hw.updPartner_partner (h : Hw) (f : Partner → Partner) : (h.updPartner f).partner = f h.partner := rfl
@[simp] theorem Hw.updPartner_rdata (h : Hw) (f : Partner → Partner) : (h.updPartner f).rdata = h.rdata := rfl
@[simp] theorem Hw.updPartner_irqOffer (h : Hw) (f : Partner → Partner) : (h.updPartner f).irqOffer = h.irqOffer := rfl
@[simp] theorem Hw.updPartner_outs (h : Hw) (f : Partner → Partner) : (h.updPartner f).outs = h.outs := rfl
@[simp] theorem Hw.updPartner_free (h : Hw) (f : Partner → Partner) : (h.updPartner f).free = h.free := rfl

/-! ### setReg -/

@[simp] theorem Hw.setReg_regs (h : Hw) (o : Nat) (v : Word) : (h.setReg o v).regs = Tbl.put regReset h.regs o v := rfl
@[simp] theorem Hw.setReg_shadow (h : Hw) (o : Nat) (v : Word) : (h.setReg o v).shadow = h.shadow := rfl
@[simp] theorem Hw.setReg_captured (h : Hw) (o : Nat) (v : Word) : (h.setReg o v).captured = h.captured := rfl
@[simp] theorem Hw.setReg_snaps (h : Hw) (o : Nat) (v : Word) : (h.setReg o v).snaps = h.snaps := rfl
@[simp] theorem Hw.setReg_staged (h : Hw) (o : Nat) (v : Word) : (h.setReg o v).staged = h.staged := rfl
@[simp] theorem Hw.setReg_cores (h : Hw) (o : Nat) (v : Word) : (h.setReg o v).cores = h.cores := rfl
@[simp] theorem Hw.setReg_serves (h : Hw) (o : Nat) (v : Word) : (h.setReg o v).serves = h.serves := rfl
@[simp] theorem Hw.setReg_loft (h : Hw) (o : Nat) (v : Word) : (h.setReg o v).loft = h.loft := rfl
@[simp] theorem Hw.setReg_caller (h : Hw) (o : Nat) (v : Word) : (h.setReg o v).caller = h.caller := rfl
@[simp] theorem Hw.setReg_atu (h : Hw) (o : Nat) (v : Word) : (h.setReg o v).atu = h.atu := rfl
@[simp] theorem Hw.setReg_dealer (h : Hw) (o : Nat) (v : Word) : (h.setReg o v).dealer = h.dealer := rfl
@[simp] theorem Hw.setReg_streams (h : Hw) (o : Nat) (v : Word) : (h.setReg o v).streams = h.streams := rfl
@[simp] theorem Hw.setReg_offers (h : Hw) (o : Nat) (v : Word) : (h.setReg o v).offers = h.offers := rfl
@[simp] theorem Hw.setReg_safety (h : Hw) (o : Nat) (v : Word) : (h.setReg o v).safety = h.safety := rfl
@[simp] theorem Hw.setReg_coffer (h : Hw) (o : Nat) (v : Word) : (h.setReg o v).coffer = h.coffer := rfl
@[simp] theorem Hw.setReg_boot (h : Hw) (o : Nat) (v : Word) : (h.setReg o v).boot = h.boot := rfl
@[simp] theorem Hw.setReg_power (h : Hw) (o : Nat) (v : Word) : (h.setReg o v).power = h.power := rfl
@[simp] theorem Hw.setReg_links (h : Hw) (o : Nat) (v : Word) : (h.setReg o v).links = h.links := rfl
@[simp] theorem Hw.setReg_partner (h : Hw) (o : Nat) (v : Word) : (h.setReg o v).partner = h.partner := rfl
@[simp] theorem Hw.setReg_rdata (h : Hw) (o : Nat) (v : Word) : (h.setReg o v).rdata = h.rdata := rfl
@[simp] theorem Hw.setReg_irqOffer (h : Hw) (o : Nat) (v : Word) : (h.setReg o v).irqOffer = h.irqOffer := rfl
@[simp] theorem Hw.setReg_outs (h : Hw) (o : Nat) (v : Word) : (h.setReg o v).outs = h.outs := rfl
@[simp] theorem Hw.setReg_free (h : Hw) (o : Nat) (v : Word) : (h.setReg o v).free = h.free := rfl

/-! ### setShadow -/

@[simp] theorem Hw.setShadow_regs (h : Hw) (o : Nat) (v : Word) : (h.setShadow o v).regs = h.regs := rfl
@[simp] theorem Hw.setShadow_shadow (h : Hw) (o : Nat) (v : Word) : (h.setShadow o v).shadow = Tbl.put regReset h.shadow o v := rfl
@[simp] theorem Hw.setShadow_captured (h : Hw) (o : Nat) (v : Word) : (h.setShadow o v).captured = h.captured := rfl
@[simp] theorem Hw.setShadow_snaps (h : Hw) (o : Nat) (v : Word) : (h.setShadow o v).snaps = h.snaps := rfl
@[simp] theorem Hw.setShadow_staged (h : Hw) (o : Nat) (v : Word) : (h.setShadow o v).staged = h.staged := rfl
@[simp] theorem Hw.setShadow_cores (h : Hw) (o : Nat) (v : Word) : (h.setShadow o v).cores = h.cores := rfl
@[simp] theorem Hw.setShadow_serves (h : Hw) (o : Nat) (v : Word) : (h.setShadow o v).serves = h.serves := rfl
@[simp] theorem Hw.setShadow_loft (h : Hw) (o : Nat) (v : Word) : (h.setShadow o v).loft = h.loft := rfl
@[simp] theorem Hw.setShadow_caller (h : Hw) (o : Nat) (v : Word) : (h.setShadow o v).caller = h.caller := rfl
@[simp] theorem Hw.setShadow_atu (h : Hw) (o : Nat) (v : Word) : (h.setShadow o v).atu = h.atu := rfl
@[simp] theorem Hw.setShadow_dealer (h : Hw) (o : Nat) (v : Word) : (h.setShadow o v).dealer = h.dealer := rfl
@[simp] theorem Hw.setShadow_streams (h : Hw) (o : Nat) (v : Word) : (h.setShadow o v).streams = h.streams := rfl
@[simp] theorem Hw.setShadow_offers (h : Hw) (o : Nat) (v : Word) : (h.setShadow o v).offers = h.offers := rfl
@[simp] theorem Hw.setShadow_safety (h : Hw) (o : Nat) (v : Word) : (h.setShadow o v).safety = h.safety := rfl
@[simp] theorem Hw.setShadow_coffer (h : Hw) (o : Nat) (v : Word) : (h.setShadow o v).coffer = h.coffer := rfl
@[simp] theorem Hw.setShadow_boot (h : Hw) (o : Nat) (v : Word) : (h.setShadow o v).boot = h.boot := rfl
@[simp] theorem Hw.setShadow_power (h : Hw) (o : Nat) (v : Word) : (h.setShadow o v).power = h.power := rfl
@[simp] theorem Hw.setShadow_links (h : Hw) (o : Nat) (v : Word) : (h.setShadow o v).links = h.links := rfl
@[simp] theorem Hw.setShadow_partner (h : Hw) (o : Nat) (v : Word) : (h.setShadow o v).partner = h.partner := rfl
@[simp] theorem Hw.setShadow_rdata (h : Hw) (o : Nat) (v : Word) : (h.setShadow o v).rdata = h.rdata := rfl
@[simp] theorem Hw.setShadow_irqOffer (h : Hw) (o : Nat) (v : Word) : (h.setShadow o v).irqOffer = h.irqOffer := rfl
@[simp] theorem Hw.setShadow_outs (h : Hw) (o : Nat) (v : Word) : (h.setShadow o v).outs = h.outs := rfl
@[simp] theorem Hw.setShadow_free (h : Hw) (o : Nat) (v : Word) : (h.setShadow o v).free = h.free := rfl

/-! ### setCore -/

@[simp] theorem Hw.setCore_regs (h : Hw) (p : Nat) (c : Core) : (h.setCore p c).regs = h.regs := rfl
@[simp] theorem Hw.setCore_shadow (h : Hw) (p : Nat) (c : Core) : (h.setCore p c).shadow = h.shadow := rfl
@[simp] theorem Hw.setCore_captured (h : Hw) (p : Nat) (c : Core) : (h.setCore p c).captured = h.captured := rfl
@[simp] theorem Hw.setCore_snaps (h : Hw) (p : Nat) (c : Core) : (h.setCore p c).snaps = h.snaps := rfl
@[simp] theorem Hw.setCore_staged (h : Hw) (p : Nat) (c : Core) : (h.setCore p c).staged = h.staged := rfl
@[simp] theorem Hw.setCore_cores (h : Hw) (p : Nat) (c : Core) : (h.setCore p c).cores = Tbl.put (fun _ => Core.reset) h.cores p c := rfl
@[simp] theorem Hw.setCore_serves (h : Hw) (p : Nat) (c : Core) : (h.setCore p c).serves = h.serves := rfl
@[simp] theorem Hw.setCore_loft (h : Hw) (p : Nat) (c : Core) : (h.setCore p c).loft = h.loft := rfl
@[simp] theorem Hw.setCore_caller (h : Hw) (p : Nat) (c : Core) : (h.setCore p c).caller = h.caller := rfl
@[simp] theorem Hw.setCore_atu (h : Hw) (p : Nat) (c : Core) : (h.setCore p c).atu = h.atu := rfl
@[simp] theorem Hw.setCore_dealer (h : Hw) (p : Nat) (c : Core) : (h.setCore p c).dealer = h.dealer := rfl
@[simp] theorem Hw.setCore_streams (h : Hw) (p : Nat) (c : Core) : (h.setCore p c).streams = h.streams := rfl
@[simp] theorem Hw.setCore_offers (h : Hw) (p : Nat) (c : Core) : (h.setCore p c).offers = h.offers := rfl
@[simp] theorem Hw.setCore_safety (h : Hw) (p : Nat) (c : Core) : (h.setCore p c).safety = h.safety := rfl
@[simp] theorem Hw.setCore_coffer (h : Hw) (p : Nat) (c : Core) : (h.setCore p c).coffer = h.coffer := rfl
@[simp] theorem Hw.setCore_boot (h : Hw) (p : Nat) (c : Core) : (h.setCore p c).boot = h.boot := rfl
@[simp] theorem Hw.setCore_power (h : Hw) (p : Nat) (c : Core) : (h.setCore p c).power = h.power := rfl
@[simp] theorem Hw.setCore_links (h : Hw) (p : Nat) (c : Core) : (h.setCore p c).links = h.links := rfl
@[simp] theorem Hw.setCore_partner (h : Hw) (p : Nat) (c : Core) : (h.setCore p c).partner = h.partner := rfl
@[simp] theorem Hw.setCore_rdata (h : Hw) (p : Nat) (c : Core) : (h.setCore p c).rdata = h.rdata := rfl
@[simp] theorem Hw.setCore_irqOffer (h : Hw) (p : Nat) (c : Core) : (h.setCore p c).irqOffer = h.irqOffer := rfl
@[simp] theorem Hw.setCore_outs (h : Hw) (p : Nat) (c : Core) : (h.setCore p c).outs = h.outs := rfl
@[simp] theorem Hw.setCore_free (h : Hw) (p : Nat) (c : Core) : (h.setCore p c).free = h.free := rfl

/-! ### setStream -/

@[simp] theorem Hw.setStream_regs (h : Hw) (i : Nat) (x : StreamRun) : (h.setStream i x).regs = h.regs := rfl
@[simp] theorem Hw.setStream_shadow (h : Hw) (i : Nat) (x : StreamRun) : (h.setStream i x).shadow = h.shadow := rfl
@[simp] theorem Hw.setStream_captured (h : Hw) (i : Nat) (x : StreamRun) : (h.setStream i x).captured = h.captured := rfl
@[simp] theorem Hw.setStream_snaps (h : Hw) (i : Nat) (x : StreamRun) : (h.setStream i x).snaps = h.snaps := rfl
@[simp] theorem Hw.setStream_staged (h : Hw) (i : Nat) (x : StreamRun) : (h.setStream i x).staged = h.staged := rfl
@[simp] theorem Hw.setStream_cores (h : Hw) (i : Nat) (x : StreamRun) : (h.setStream i x).cores = h.cores := rfl
@[simp] theorem Hw.setStream_serves (h : Hw) (i : Nat) (x : StreamRun) : (h.setStream i x).serves = h.serves := rfl
@[simp] theorem Hw.setStream_loft (h : Hw) (i : Nat) (x : StreamRun) : (h.setStream i x).loft = h.loft := rfl
@[simp] theorem Hw.setStream_caller (h : Hw) (i : Nat) (x : StreamRun) : (h.setStream i x).caller = h.caller := rfl
@[simp] theorem Hw.setStream_atu (h : Hw) (i : Nat) (x : StreamRun) : (h.setStream i x).atu = h.atu := rfl
@[simp] theorem Hw.setStream_dealer (h : Hw) (i : Nat) (x : StreamRun) : (h.setStream i x).dealer = h.dealer := rfl
@[simp] theorem Hw.setStream_streams (h : Hw) (i : Nat) (x : StreamRun) : (h.setStream i x).streams = Tbl.put (fun _ => StreamRun.start) h.streams i x := rfl
@[simp] theorem Hw.setStream_offers (h : Hw) (i : Nat) (x : StreamRun) : (h.setStream i x).offers = h.offers := rfl
@[simp] theorem Hw.setStream_safety (h : Hw) (i : Nat) (x : StreamRun) : (h.setStream i x).safety = h.safety := rfl
@[simp] theorem Hw.setStream_coffer (h : Hw) (i : Nat) (x : StreamRun) : (h.setStream i x).coffer = h.coffer := rfl
@[simp] theorem Hw.setStream_boot (h : Hw) (i : Nat) (x : StreamRun) : (h.setStream i x).boot = h.boot := rfl
@[simp] theorem Hw.setStream_power (h : Hw) (i : Nat) (x : StreamRun) : (h.setStream i x).power = h.power := rfl
@[simp] theorem Hw.setStream_links (h : Hw) (i : Nat) (x : StreamRun) : (h.setStream i x).links = h.links := rfl
@[simp] theorem Hw.setStream_partner (h : Hw) (i : Nat) (x : StreamRun) : (h.setStream i x).partner = h.partner := rfl
@[simp] theorem Hw.setStream_rdata (h : Hw) (i : Nat) (x : StreamRun) : (h.setStream i x).rdata = h.rdata := rfl
@[simp] theorem Hw.setStream_irqOffer (h : Hw) (i : Nat) (x : StreamRun) : (h.setStream i x).irqOffer = h.irqOffer := rfl
@[simp] theorem Hw.setStream_outs (h : Hw) (i : Nat) (x : StreamRun) : (h.setStream i x).outs = h.outs := rfl
@[simp] theorem Hw.setStream_free (h : Hw) (i : Nat) (x : StreamRun) : (h.setStream i x).free = h.free := rfl

/-! ### setLink -/

@[simp] theorem Hw.setLink_regs (h : Hw) (n : Nat) (l : LinkPort) : (h.setLink n l).regs = h.regs := rfl
@[simp] theorem Hw.setLink_shadow (h : Hw) (n : Nat) (l : LinkPort) : (h.setLink n l).shadow = h.shadow := rfl
@[simp] theorem Hw.setLink_captured (h : Hw) (n : Nat) (l : LinkPort) : (h.setLink n l).captured = h.captured := rfl
@[simp] theorem Hw.setLink_snaps (h : Hw) (n : Nat) (l : LinkPort) : (h.setLink n l).snaps = h.snaps := rfl
@[simp] theorem Hw.setLink_staged (h : Hw) (n : Nat) (l : LinkPort) : (h.setLink n l).staged = h.staged := rfl
@[simp] theorem Hw.setLink_cores (h : Hw) (n : Nat) (l : LinkPort) : (h.setLink n l).cores = h.cores := rfl
@[simp] theorem Hw.setLink_serves (h : Hw) (n : Nat) (l : LinkPort) : (h.setLink n l).serves = h.serves := rfl
@[simp] theorem Hw.setLink_loft (h : Hw) (n : Nat) (l : LinkPort) : (h.setLink n l).loft = h.loft := rfl
@[simp] theorem Hw.setLink_caller (h : Hw) (n : Nat) (l : LinkPort) : (h.setLink n l).caller = h.caller := rfl
@[simp] theorem Hw.setLink_atu (h : Hw) (n : Nat) (l : LinkPort) : (h.setLink n l).atu = h.atu := rfl
@[simp] theorem Hw.setLink_dealer (h : Hw) (n : Nat) (l : LinkPort) : (h.setLink n l).dealer = h.dealer := rfl
@[simp] theorem Hw.setLink_streams (h : Hw) (n : Nat) (l : LinkPort) : (h.setLink n l).streams = h.streams := rfl
@[simp] theorem Hw.setLink_offers (h : Hw) (n : Nat) (l : LinkPort) : (h.setLink n l).offers = h.offers := rfl
@[simp] theorem Hw.setLink_safety (h : Hw) (n : Nat) (l : LinkPort) : (h.setLink n l).safety = h.safety := rfl
@[simp] theorem Hw.setLink_coffer (h : Hw) (n : Nat) (l : LinkPort) : (h.setLink n l).coffer = h.coffer := rfl
@[simp] theorem Hw.setLink_boot (h : Hw) (n : Nat) (l : LinkPort) : (h.setLink n l).boot = h.boot := rfl
@[simp] theorem Hw.setLink_power (h : Hw) (n : Nat) (l : LinkPort) : (h.setLink n l).power = h.power := rfl
@[simp] theorem Hw.setLink_links (h : Hw) (n : Nat) (l : LinkPort) : (h.setLink n l).links = Tbl.put (fun _ => LinkPort.start) h.links n l := rfl
@[simp] theorem Hw.setLink_partner (h : Hw) (n : Nat) (l : LinkPort) : (h.setLink n l).partner = h.partner := rfl
@[simp] theorem Hw.setLink_rdata (h : Hw) (n : Nat) (l : LinkPort) : (h.setLink n l).rdata = h.rdata := rfl
@[simp] theorem Hw.setLink_irqOffer (h : Hw) (n : Nat) (l : LinkPort) : (h.setLink n l).irqOffer = h.irqOffer := rfl
@[simp] theorem Hw.setLink_outs (h : Hw) (n : Nat) (l : LinkPort) : (h.setLink n l).outs = h.outs := rfl
@[simp] theorem Hw.setLink_free (h : Hw) (n : Nat) (l : LinkPort) : (h.setLink n l).free = h.free := rfl

/-! ### setOffer -/

@[simp] theorem Hw.setOffer_regs (h : Hw) (n k : Nat) : (h.setOffer n k).regs = h.regs := rfl
@[simp] theorem Hw.setOffer_shadow (h : Hw) (n k : Nat) : (h.setOffer n k).shadow = h.shadow := rfl
@[simp] theorem Hw.setOffer_captured (h : Hw) (n k : Nat) : (h.setOffer n k).captured = h.captured := rfl
@[simp] theorem Hw.setOffer_snaps (h : Hw) (n k : Nat) : (h.setOffer n k).snaps = h.snaps := rfl
@[simp] theorem Hw.setOffer_staged (h : Hw) (n k : Nat) : (h.setOffer n k).staged = h.staged := rfl
@[simp] theorem Hw.setOffer_cores (h : Hw) (n k : Nat) : (h.setOffer n k).cores = h.cores := rfl
@[simp] theorem Hw.setOffer_serves (h : Hw) (n k : Nat) : (h.setOffer n k).serves = h.serves := rfl
@[simp] theorem Hw.setOffer_loft (h : Hw) (n k : Nat) : (h.setOffer n k).loft = h.loft := rfl
@[simp] theorem Hw.setOffer_caller (h : Hw) (n k : Nat) : (h.setOffer n k).caller = h.caller := rfl
@[simp] theorem Hw.setOffer_atu (h : Hw) (n k : Nat) : (h.setOffer n k).atu = h.atu := rfl
@[simp] theorem Hw.setOffer_dealer (h : Hw) (n k : Nat) : (h.setOffer n k).dealer = h.dealer := rfl
@[simp] theorem Hw.setOffer_streams (h : Hw) (n k : Nat) : (h.setOffer n k).streams = h.streams := rfl
@[simp] theorem Hw.setOffer_offers (h : Hw) (n k : Nat) : (h.setOffer n k).offers = Tbl.put (fun _ => 0) h.offers n k := rfl
@[simp] theorem Hw.setOffer_safety (h : Hw) (n k : Nat) : (h.setOffer n k).safety = h.safety := rfl
@[simp] theorem Hw.setOffer_coffer (h : Hw) (n k : Nat) : (h.setOffer n k).coffer = h.coffer := rfl
@[simp] theorem Hw.setOffer_boot (h : Hw) (n k : Nat) : (h.setOffer n k).boot = h.boot := rfl
@[simp] theorem Hw.setOffer_power (h : Hw) (n k : Nat) : (h.setOffer n k).power = h.power := rfl
@[simp] theorem Hw.setOffer_links (h : Hw) (n k : Nat) : (h.setOffer n k).links = h.links := rfl
@[simp] theorem Hw.setOffer_partner (h : Hw) (n k : Nat) : (h.setOffer n k).partner = h.partner := rfl
@[simp] theorem Hw.setOffer_rdata (h : Hw) (n k : Nat) : (h.setOffer n k).rdata = h.rdata := rfl
@[simp] theorem Hw.setOffer_irqOffer (h : Hw) (n k : Nat) : (h.setOffer n k).irqOffer = h.irqOffer := rfl
@[simp] theorem Hw.setOffer_outs (h : Hw) (n k : Nat) : (h.setOffer n k).outs = h.outs := rfl
@[simp] theorem Hw.setOffer_free (h : Hw) (n k : Nat) : (h.setOffer n k).free = h.free := rfl

/-! ### stage -/

@[simp] theorem Hw.stage_regs (h : Hw) (o : Nat) (v : Word) : (h.stage o v).regs = h.regs := rfl
@[simp] theorem Hw.stage_shadow (h : Hw) (o : Nat) (v : Word) : (h.stage o v).shadow = h.shadow := rfl
@[simp] theorem Hw.stage_captured (h : Hw) (o : Nat) (v : Word) : (h.stage o v).captured = h.captured := rfl
@[simp] theorem Hw.stage_snaps (h : Hw) (o : Nat) (v : Word) : (h.stage o v).snaps = h.snaps := rfl
@[simp] theorem Hw.stage_staged (h : Hw) (o : Nat) (v : Word) : (h.stage o v).staged = Tbl.put (fun _ => 0) h.staged o v := rfl
@[simp] theorem Hw.stage_cores (h : Hw) (o : Nat) (v : Word) : (h.stage o v).cores = h.cores := rfl
@[simp] theorem Hw.stage_serves (h : Hw) (o : Nat) (v : Word) : (h.stage o v).serves = h.serves := rfl
@[simp] theorem Hw.stage_loft (h : Hw) (o : Nat) (v : Word) : (h.stage o v).loft = h.loft := rfl
@[simp] theorem Hw.stage_caller (h : Hw) (o : Nat) (v : Word) : (h.stage o v).caller = h.caller := rfl
@[simp] theorem Hw.stage_atu (h : Hw) (o : Nat) (v : Word) : (h.stage o v).atu = h.atu := rfl
@[simp] theorem Hw.stage_dealer (h : Hw) (o : Nat) (v : Word) : (h.stage o v).dealer = h.dealer := rfl
@[simp] theorem Hw.stage_streams (h : Hw) (o : Nat) (v : Word) : (h.stage o v).streams = h.streams := rfl
@[simp] theorem Hw.stage_offers (h : Hw) (o : Nat) (v : Word) : (h.stage o v).offers = h.offers := rfl
@[simp] theorem Hw.stage_safety (h : Hw) (o : Nat) (v : Word) : (h.stage o v).safety = h.safety := rfl
@[simp] theorem Hw.stage_coffer (h : Hw) (o : Nat) (v : Word) : (h.stage o v).coffer = h.coffer := rfl
@[simp] theorem Hw.stage_boot (h : Hw) (o : Nat) (v : Word) : (h.stage o v).boot = h.boot := rfl
@[simp] theorem Hw.stage_power (h : Hw) (o : Nat) (v : Word) : (h.stage o v).power = h.power := rfl
@[simp] theorem Hw.stage_links (h : Hw) (o : Nat) (v : Word) : (h.stage o v).links = h.links := rfl
@[simp] theorem Hw.stage_partner (h : Hw) (o : Nat) (v : Word) : (h.stage o v).partner = h.partner := rfl
@[simp] theorem Hw.stage_rdata (h : Hw) (o : Nat) (v : Word) : (h.stage o v).rdata = h.rdata := rfl
@[simp] theorem Hw.stage_irqOffer (h : Hw) (o : Nat) (v : Word) : (h.stage o v).irqOffer = h.irqOffer := rfl
@[simp] theorem Hw.stage_outs (h : Hw) (o : Nat) (v : Word) : (h.stage o v).outs = h.outs := rfl
@[simp] theorem Hw.stage_free (h : Hw) (o : Nat) (v : Word) : (h.stage o v).free = h.free := rfl

/-! ### serve -/

@[simp] theorem Hw.serve_regs (h : Hw) (l p : Nat) : (h.serve l p).regs = h.regs := rfl
@[simp] theorem Hw.serve_shadow (h : Hw) (l p : Nat) : (h.serve l p).shadow = h.shadow := rfl
@[simp] theorem Hw.serve_captured (h : Hw) (l p : Nat) : (h.serve l p).captured = h.captured := rfl
@[simp] theorem Hw.serve_snaps (h : Hw) (l p : Nat) : (h.serve l p).snaps = h.snaps := rfl
@[simp] theorem Hw.serve_staged (h : Hw) (l p : Nat) : (h.serve l p).staged = h.staged := rfl
@[simp] theorem Hw.serve_cores (h : Hw) (l p : Nat) : (h.serve l p).cores = h.cores := rfl
@[simp] theorem Hw.serve_serves (h : Hw) (l p : Nat) : (h.serve l p).serves = Tbl.put (fun k => k) h.serves l p := rfl
@[simp] theorem Hw.serve_loft (h : Hw) (l p : Nat) : (h.serve l p).loft = h.loft := rfl
@[simp] theorem Hw.serve_caller (h : Hw) (l p : Nat) : (h.serve l p).caller = h.caller := rfl
@[simp] theorem Hw.serve_atu (h : Hw) (l p : Nat) : (h.serve l p).atu = h.atu := rfl
@[simp] theorem Hw.serve_dealer (h : Hw) (l p : Nat) : (h.serve l p).dealer = h.dealer := rfl
@[simp] theorem Hw.serve_streams (h : Hw) (l p : Nat) : (h.serve l p).streams = h.streams := rfl
@[simp] theorem Hw.serve_offers (h : Hw) (l p : Nat) : (h.serve l p).offers = h.offers := rfl
@[simp] theorem Hw.serve_safety (h : Hw) (l p : Nat) : (h.serve l p).safety = h.safety := rfl
@[simp] theorem Hw.serve_coffer (h : Hw) (l p : Nat) : (h.serve l p).coffer = h.coffer := rfl
@[simp] theorem Hw.serve_boot (h : Hw) (l p : Nat) : (h.serve l p).boot = h.boot := rfl
@[simp] theorem Hw.serve_power (h : Hw) (l p : Nat) : (h.serve l p).power = h.power := rfl
@[simp] theorem Hw.serve_links (h : Hw) (l p : Nat) : (h.serve l p).links = h.links := rfl
@[simp] theorem Hw.serve_partner (h : Hw) (l p : Nat) : (h.serve l p).partner = h.partner := rfl
@[simp] theorem Hw.serve_rdata (h : Hw) (l p : Nat) : (h.serve l p).rdata = h.rdata := rfl
@[simp] theorem Hw.serve_irqOffer (h : Hw) (l p : Nat) : (h.serve l p).irqOffer = h.irqOffer := rfl
@[simp] theorem Hw.serve_outs (h : Hw) (l p : Nat) : (h.serve l p).outs = h.outs := rfl
@[simp] theorem Hw.serve_free (h : Hw) (l p : Nat) : (h.serve l p).free = h.free := rfl

/-! ### out -/

@[simp] theorem Hw.out_regs (h : Hw) (x : Out) : (h.out x).regs = h.regs := rfl
@[simp] theorem Hw.out_shadow (h : Hw) (x : Out) : (h.out x).shadow = h.shadow := rfl
@[simp] theorem Hw.out_captured (h : Hw) (x : Out) : (h.out x).captured = h.captured := rfl
@[simp] theorem Hw.out_snaps (h : Hw) (x : Out) : (h.out x).snaps = h.snaps := rfl
@[simp] theorem Hw.out_staged (h : Hw) (x : Out) : (h.out x).staged = h.staged := rfl
@[simp] theorem Hw.out_cores (h : Hw) (x : Out) : (h.out x).cores = h.cores := rfl
@[simp] theorem Hw.out_serves (h : Hw) (x : Out) : (h.out x).serves = h.serves := rfl
@[simp] theorem Hw.out_loft (h : Hw) (x : Out) : (h.out x).loft = h.loft := rfl
@[simp] theorem Hw.out_caller (h : Hw) (x : Out) : (h.out x).caller = h.caller := rfl
@[simp] theorem Hw.out_atu (h : Hw) (x : Out) : (h.out x).atu = h.atu := rfl
@[simp] theorem Hw.out_dealer (h : Hw) (x : Out) : (h.out x).dealer = h.dealer := rfl
@[simp] theorem Hw.out_streams (h : Hw) (x : Out) : (h.out x).streams = h.streams := rfl
@[simp] theorem Hw.out_offers (h : Hw) (x : Out) : (h.out x).offers = h.offers := rfl
@[simp] theorem Hw.out_safety (h : Hw) (x : Out) : (h.out x).safety = h.safety := rfl
@[simp] theorem Hw.out_coffer (h : Hw) (x : Out) : (h.out x).coffer = h.coffer := rfl
@[simp] theorem Hw.out_boot (h : Hw) (x : Out) : (h.out x).boot = h.boot := rfl
@[simp] theorem Hw.out_power (h : Hw) (x : Out) : (h.out x).power = h.power := rfl
@[simp] theorem Hw.out_links (h : Hw) (x : Out) : (h.out x).links = h.links := rfl
@[simp] theorem Hw.out_partner (h : Hw) (x : Out) : (h.out x).partner = h.partner := rfl
@[simp] theorem Hw.out_rdata (h : Hw) (x : Out) : (h.out x).rdata = h.rdata := rfl
@[simp] theorem Hw.out_irqOffer (h : Hw) (x : Out) : (h.out x).irqOffer = h.irqOffer := rfl
@[simp] theorem Hw.out_outs (h : Hw) (x : Out) : (h.out x).outs = x :: h.outs := rfl
@[simp] theorem Hw.out_free (h : Hw) (x : Out) : (h.out x).free = h.free := rfl

/-! ### answer -/

@[simp] theorem Hw.answer_regs (h : Hw) (o : Nat) : (h.answer o).regs = h.regs := rfl
@[simp] theorem Hw.answer_shadow (h : Hw) (o : Nat) : (h.answer o).shadow = h.shadow := rfl
@[simp] theorem Hw.answer_captured (h : Hw) (o : Nat) : (h.answer o).captured = h.captured := rfl
@[simp] theorem Hw.answer_snaps (h : Hw) (o : Nat) : (h.answer o).snaps = h.snaps := rfl
@[simp] theorem Hw.answer_staged (h : Hw) (o : Nat) : (h.answer o).staged = h.staged := rfl
@[simp] theorem Hw.answer_cores (h : Hw) (o : Nat) : (h.answer o).cores = h.cores := rfl
@[simp] theorem Hw.answer_serves (h : Hw) (o : Nat) : (h.answer o).serves = h.serves := rfl
@[simp] theorem Hw.answer_loft (h : Hw) (o : Nat) : (h.answer o).loft = h.loft := rfl
@[simp] theorem Hw.answer_caller (h : Hw) (o : Nat) : (h.answer o).caller = h.caller := rfl
@[simp] theorem Hw.answer_atu (h : Hw) (o : Nat) : (h.answer o).atu = h.atu := rfl
@[simp] theorem Hw.answer_dealer (h : Hw) (o : Nat) : (h.answer o).dealer = h.dealer := rfl
@[simp] theorem Hw.answer_streams (h : Hw) (o : Nat) : (h.answer o).streams = h.streams := rfl
@[simp] theorem Hw.answer_offers (h : Hw) (o : Nat) : (h.answer o).offers = h.offers := rfl
@[simp] theorem Hw.answer_safety (h : Hw) (o : Nat) : (h.answer o).safety = h.safety := rfl
@[simp] theorem Hw.answer_coffer (h : Hw) (o : Nat) : (h.answer o).coffer = h.coffer := rfl
@[simp] theorem Hw.answer_boot (h : Hw) (o : Nat) : (h.answer o).boot = h.boot := rfl
@[simp] theorem Hw.answer_power (h : Hw) (o : Nat) : (h.answer o).power = h.power := rfl
@[simp] theorem Hw.answer_links (h : Hw) (o : Nat) : (h.answer o).links = h.links := rfl
@[simp] theorem Hw.answer_partner (h : Hw) (o : Nat) : (h.answer o).partner = h.partner := rfl
@[simp] theorem Hw.answer_rdata (h : Hw) (o : Nat) : (h.answer o).rdata = h.reg o := rfl
@[simp] theorem Hw.answer_irqOffer (h : Hw) (o : Nat) : (h.answer o).irqOffer = h.irqOffer := rfl
@[simp] theorem Hw.answer_outs (h : Hw) (o : Nat) : (h.answer o).outs = h.outs := rfl
@[simp] theorem Hw.answer_free (h : Hw) (o : Nat) : (h.answer o).free = h.free := rfl

/-! ### The effect and the state -/

@[simp] theorem Eff.up_hw (e : Eff) (f : Hw → Hw) : (e.up f).hw = f e.hw := rfl
@[simp] theorem Eff.up_mem (e : Eff) (f : Hw → Hw) : (e.up f).mem = e.mem := rfl
@[simp] theorem Eff.up_wr (e : Eff) (f : Hw → Hw) : (e.up f).wr = e.wr := rfl
@[simp] theorem Eff.write_hw (e : Eff) (w : MemWrite) : (e.write w).hw = e.hw := rfl
@[simp] theorem Eff.write_mem (e : Eff) (w : MemWrite) : (e.write w).mem = e.mem.apply w := rfl
@[simp] theorem Eff.write_wr (e : Eff) (w : MemWrite) : (e.write w).wr = e.wr ++ [w] := rfl
@[simp] theorem Eff.start_hw (h : Hw) (m : Memory) : (Eff.start h m).hw = h := rfl
@[simp] theorem Eff.start_mem (h : Hw) (m : Memory) : (Eff.start h m).mem = m := rfl
@[simp] theorem Eff.start_wr (h : Hw) (m : Memory) : (Eff.start h m).wr = [] := rfl
@[simp] theorem Memory.applyAll_nil (m : Memory) : m.applyAll [] = m := rfl
@[simp] theorem Memory.applyAll_cons (m : Memory) (w : MemWrite) (ws : List MemWrite) :
    m.applyAll (w :: ws) = (m.apply w).applyAll ws := rfl

/-- A command that changes the hardware alone. -/
theorem State.done_up (s : State) (f : Hw → Hw) : s.done (fun e => e.up f) = .next { s with hw := f s.hw } := rfl

/-- Every command that answers through `done` has a next state with the queue it was given. -/
theorem State.done_next (s : State) (f : Eff → Eff) :
    s.done f = .next { s with hw := (f (Eff.start s.hw s.mem)).hw, mem := s.mem.applyAll (f (Eff.start s.hw s.mem)).wr } := rfl

/-- A command at the register port whose offset is served now. -/
theorem Eff.atPort_served {e : Eff} {o : Nat} (f : Eff → Eff) (hs : e.hw.served o = true) : e.atPort o f = f e := by
  simp [Eff.atPort, hs]

/-- A command at the register port whose offset is not served now does nothing. -/
theorem Eff.atPort_unserved {e : Eff} {o : Nat} (f : Eff → Eff) (hs : e.hw.served o = false) : e.atPort o f = e := by
  simp [Eff.atPort, hs]

end Sys2Proof.Machine
end

