-- ==== Sys2Proof/Laws/Table.lean ====
section
/-!
SUPPORT. Laws of sparse maps: a read after a write, and that every operation keeps the canonical form.
-/
namespace Sys2Proof

variable {α : Type}

/-! ### What is listed after an operation -/

theorem Tbl.find_insert_same (t : Tbl α) (k : Nat) (v : α) : Tbl.find (Tbl.insert t k v) k = some v := by
  induction t with
  | nil => simp [Tbl.insert, Tbl.find]
  | cons e t ih =>
    obtain ⟨j, w⟩ := e
    simp only [Tbl.insert]
    split
    · simp [Tbl.find]
    · split
      · simp [Tbl.find]
      · simp [Tbl.find, *]

theorem Tbl.find_insert_other (t : Tbl α) {k j : Nat} (v : α) (h : j ≠ k) :
    Tbl.find (Tbl.insert t k v) j = Tbl.find t j := by
  induction t with
  | nil => simp [Tbl.insert, Tbl.find, Ne.symm h]
  | cons e t ih =>
    obtain ⟨i, w⟩ := e
    simp only [Tbl.insert]
    split
    · rename_i hik
      subst hik
      simp [Tbl.find, Ne.symm h]
    · split
      · simp [Tbl.find, Ne.symm h]
      · simp [Tbl.find, ih]

theorem Tbl.find_erase_same (t : Tbl α) (k : Nat) : Tbl.find (Tbl.erase t k) k = none := by
  induction t with
  | nil => rfl
  | cons e t ih =>
    obtain ⟨j, w⟩ := e
    by_cases h : j = k
    · simpa [Tbl.erase, h] using ih
    · simpa [Tbl.erase, h, Tbl.find] using ih

theorem Tbl.find_erase_other (t : Tbl α) {k j : Nat} (h : j ≠ k) : Tbl.find (Tbl.erase t k) j = Tbl.find t j := by
  induction t with
  | nil => rfl
  | cons e t ih =>
    obtain ⟨i, w⟩ := e
    by_cases hi : i = k
    · subst hi
      simpa [Tbl.erase, Tbl.find, Ne.symm h] using ih
    · simp only [Tbl.erase, bne_iff_ne, ne_eq, hi, not_false_eq_true, List.filter_cons_of_pos, Tbl.find]
      split
      · rfl
      · simpa [Tbl.erase] using ih

/-! ### A read after a write -/

variable [DecidableEq α]

@[simp] theorem Tbl.get_put_same (d : Nat → α) (t : Tbl α) (k : Nat) (v : α) : Tbl.get d (Tbl.put d t k v) k = v := by
  unfold Tbl.put Tbl.get
  split
  · rename_i h
    simp [Tbl.find_erase_same, h]
  · simp [Tbl.find_insert_same]

theorem Tbl.get_put_other (d : Nat → α) (t : Tbl α) {k j : Nat} (v : α) (h : j ≠ k) :
    Tbl.get d (Tbl.put d t k v) j = Tbl.get d t j := by
  unfold Tbl.put Tbl.get
  split
  · rw [Tbl.find_erase_other t h]
  · rw [Tbl.find_insert_other t v h]

theorem Tbl.get_put (d : Nat → α) (t : Tbl α) (k j : Nat) (v : α) :
    Tbl.get d (Tbl.put d t k v) j = if j = k then v else Tbl.get d t j := by
  by_cases h : j = k
  · simp [h]
  · simp [h, Tbl.get_put_other]

theorem Tbl.get_upd_same (d : Nat → α) (t : Tbl α) (k : Nat) (f : α → α) :
    Tbl.get d (Tbl.upd d t k f) k = f (Tbl.get d t k) := by simp [Tbl.upd]

theorem Tbl.get_upd_other (d : Nat → α) (t : Tbl α) {k j : Nat} (f : α → α) (h : j ≠ k) :
    Tbl.get d (Tbl.upd d t k f) j = Tbl.get d t j := Tbl.get_put_other d t _ h

omit [DecidableEq α] in
@[simp] theorem Tbl.get_nil (d : Nat → α) (k : Nat) : Tbl.get d ([] : Tbl α) k = d k := rfl

/-! ### The canonical form -/

theorem Tbl.wfFrom_weaken (d : Nat → α) {lo lo' : Nat} (h : lo' ≤ lo) (t : Tbl α) (w : Tbl.wfFrom d lo t = true) :
    Tbl.wfFrom d lo' t = true := by
  cases t with
  | nil => rfl
  | cons e t =>
    obtain ⟨j, v⟩ := e
    simp only [Tbl.wfFrom, Bool.and_eq_true, decide_eq_true_eq] at w ⊢
    exact ⟨⟨by omega, w.1.2⟩, w.2⟩

theorem Tbl.wfFrom_filter (d : Nat → α) (f : Nat × α → Bool) (lo : Nat) (t : Tbl α) (w : Tbl.wfFrom d lo t = true) :
    Tbl.wfFrom d lo (t.filter f) = true := by
  induction t generalizing lo with
  | nil => rfl
  | cons e t ih =>
    obtain ⟨j, v⟩ := e
    simp only [Tbl.wfFrom, Bool.and_eq_true, decide_eq_true_eq] at w
    by_cases hf : f (j, v) = true
    · simp only [hf, List.filter_cons_of_pos, Tbl.wfFrom, Bool.and_eq_true, decide_eq_true_eq]
      exact ⟨w.1, ih (j + 1) w.2⟩
    · simp only [hf, Bool.false_eq_true, not_false_eq_true, List.filter_cons_of_neg]
      exact Tbl.wfFrom_weaken d (by omega) _ (ih (j + 1) w.2)

theorem Tbl.wfFrom_insert (d : Nat → α) (k : Nat) (v : α) (hv : v ≠ d k) (lo : Nat) (t : Tbl α)
    (w : Tbl.wfFrom d lo t = true) (hlo : lo ≤ k) : Tbl.wfFrom d lo (Tbl.insert t k v) = true := by
  induction t generalizing lo with
  | nil => simp [Tbl.insert, Tbl.wfFrom, hv, hlo]
  | cons e t ih =>
    obtain ⟨j, x⟩ := e
    simp only [Tbl.wfFrom, Bool.and_eq_true, decide_eq_true_eq] at w
    simp only [Tbl.insert]
    split
    · rename_i hjk
      subst hjk
      simp only [Tbl.wfFrom, Bool.and_eq_true, decide_eq_true_eq]
      exact ⟨⟨hlo, by simpa using hv⟩, w.2⟩
    · split
      · simp only [Tbl.wfFrom, Bool.and_eq_true, decide_eq_true_eq]
        exact ⟨⟨hlo, by simpa using hv⟩, ⟨by omega, w.1.2⟩, w.2⟩
      · simp only [Tbl.wfFrom, Bool.and_eq_true, decide_eq_true_eq]
        exact ⟨w.1, ih (j + 1) w.2 (by omega)⟩

theorem Tbl.wf_put (d : Nat → α) (t : Tbl α) (k : Nat) (v : α) (w : Tbl.wf d t = true) : Tbl.wf d (Tbl.put d t k v) = true := by
  unfold Tbl.put
  split
  · exact Tbl.wfFrom_filter d _ 0 t w
  · exact Tbl.wfFrom_insert d k v ‹_› 0 t w (Nat.zero_le k)

theorem Tbl.wf_upd (d : Nat → α) (t : Tbl α) (k : Nat) (f : α → α) (w : Tbl.wf d t = true) :
    Tbl.wf d (Tbl.upd d t k f) = true := Tbl.wf_put d t k _ w

theorem Tbl.wf_putAll (d : Nat → α) (vs : List α) (t : Tbl α) (k : Nat) (w : Tbl.wf d t = true) :
    Tbl.wf d (Tbl.putAll d t k vs) = true := by
  induction vs generalizing t k with
  | nil => exact w
  | cons v vs ih => exact ih _ _ (Tbl.wf_put d t k v w)

theorem Tbl.wf_clear (d : Nat → α) (t : Tbl α) (lo hi : Nat) (w : Tbl.wf d t = true) : Tbl.wf d (Tbl.clear t lo hi) = true :=
  Tbl.wfFrom_filter d _ 0 t w

theorem Tbl.wf_foldl {β : Type} (d : Nat → α) (f : Tbl α → β → Tbl α) (hf : ∀ t b, Tbl.wf d t = true → Tbl.wf d (f t b) = true)
    (bs : List β) (t : Tbl α) (w : Tbl.wf d t = true) : Tbl.wf d (bs.foldl f t) = true := by
  induction bs generalizing t with
  | nil => exact w
  | cons b bs ih => exact ih _ (hf t b w)

/-- Bytes written at successive keys, as they read. -/
theorem Tbl.get_putAll (d : Nat → α) (vs : List α) (t : Tbl α) (k j : Nat) :
    Tbl.get d (Tbl.putAll d t k vs) j = if k ≤ j ∧ j < k + vs.length then vs[j - k]?.getD (d j) else Tbl.get d t j := by
  induction vs generalizing t k with
  | nil =>
    have h : ¬ (k ≤ j ∧ j < k + ([] : List α).length) := by simp
    rw [if_neg h, Tbl.putAll]
  | cons v vs ih =>
    rw [Tbl.putAll, ih]
    by_cases hj : j = k
    · subst hj
      have h1 : ¬ (j + 1 ≤ j ∧ j < j + 1 + vs.length) := by omega
      have h2 : j ≤ j ∧ j < j + (v :: vs).length := ⟨Nat.le_refl j, by simp⟩
      rw [if_neg h1, if_pos h2]
      simp
    · by_cases hin : k + 1 ≤ j ∧ j < k + 1 + vs.length
      · have h2 : k ≤ j ∧ j < k + (v :: vs).length := ⟨by omega, by simp; omega⟩
        have h3 : j - k = (j - (k + 1)) + 1 := by omega
        rw [if_pos hin, if_pos h2, h3]
        simp
      · have h2 : ¬ (k ≤ j ∧ j < k + (v :: vs).length) := by simp; omega
        rw [if_neg hin, if_neg h2]
        exact Tbl.get_put_other d t v hj

end Sys2Proof
end

