-- ==== Sys2Proof/Laws/Issue.lean ====
section
/-!
SUPPORT. Everything the syllable of a slot can do: it joins the bundle at issue, it ends it, or nothing happens.
-/
namespace Sys2Proof.Machine

open Sys2Proof

theorem State.atIssue_before (s : State) (p : Nat) : (s.atIssue p).before = s.before p := by
  unfold State.atIssue State.before Hw.body Core.whole
  cases (s.hw.core p).bundle <;> rfl

@[simp] theorem Hw.core_setCore_same (h : Hw) (p : Nat) (c : Core) : (h.setCore p c).core p = c := by
  simp [Hw.core, Hw.setCore]

theorem Hw.core_setCore_other (h : Hw) {p q : Nat} (c : Core) (hq : q ≠ p) : (h.setCore p c).core q = h.core q := by
  simp [Hw.core, Hw.setCore, Tbl.get_put_other, hq]

theorem Hw.body_setCore_same (h : Hw) (p : Nat) (c : Core) : (h.setCore p c).body p = c.whole := by
  simp [Hw.body]

theorem Hw.body_setCore_other (h : Hw) {p q : Nat} (c : Core) (hq : q ≠ p) : (h.setCore p c).body q = h.body q := by
  simp [Hw.body, Hw.core_setCore_other, hq]

/-- A syllable of slot 0, 1 or 2 that is next joins the bundle. -/
theorem State.syl_joins (s : State) (p k : Nat) (mk : Hw → PantryView → CoreBody → CoreBody → Syl)
    (hs : s.slotNext p k) (hk : k ≠ 3) :
    s.syl p k mk =
      .next (s.join p ((mk s.hw ⟨s.mem, p⟩ (s.before p) (s.sofar p)).eff (s.sofar p))
        (mk s.hw ⟨s.mem, p⟩ (s.before p) (s.sofar p))) := by
  obtain ⟨hh, h0, hc, hn⟩ := hs
  have hb := s.atIssue_before p
  have hz : (k == 0 && s.hw.issueHeld p) = false := by
    by_cases h : k = 0
    · simp [h0 h]
    · simp [h]
  unfold State.atIssue at hn hb
  unfold State.sofar at hc
  have ho : (s.hw.core p).offer k (mk s.hw ⟨s.mem, p⟩) =
      (⟨(mk s.hw ⟨s.mem, p⟩ (s.before p) (s.sofar p)).eff (s.sofar p),
        some ((s.atIssue p).add (mk s.hw ⟨s.mem, p⟩ (s.before p) (s.sofar p)))⟩, []) := by
    simp [Core.offer, hc, hn, hk, hb, State.sofar, State.atIssue]
  have hw : ∀ c : Core, c.whole = s.before p → ((s.hw.setCore p c).body p).cycle = (s.hw.body p).cycle := by
    intro c h
    rw [Hw.body_setCore_same, h]
    rfl
  simp only [State.syl, State.done_next, Eff.syllable, Eff.start_hw, Eff.start_mem, hh, Bool.false_or, hz,
    Bool.false_eq_true, if_false, ho, Eff.up_hw]
  have hd : (s.atIssue p).before = s.before p := s.atIssue_before p
  rw [if_pos (hw _ (by simpa [Core.whole, Bundle.add] using hd))]
  rfl

/-- The same, with the syllable as its definition gives it. -/
theorem State.syl_joins_of (s : State) (p k : Nat) (mk : Hw → PantryView → CoreBody → CoreBody → Syl) (y : Syl)
    (hy : mk s.hw ⟨s.mem, p⟩ (s.before p) (s.sofar p) = y) (hs : s.slotNext p k) (hk : k ≠ 3) :
    s.syl p k mk = .next (s.join p (y.eff (s.sofar p)) y) := by
  subst hy
  exact s.syl_joins p k mk hs hk

/-- The same, with the effect on the core and what the syllable asks of issue apart. -/
theorem State.syl_joins_as (s : State) (p k : Nat) (mk : Hw → PantryView → CoreBody → CoreBody → Syl) (m : CoreBody)
    (y : Syl) (he : (mk s.hw ⟨s.mem, p⟩ (s.before p) (s.sofar p)).eff (s.sofar p) = m)
    (hy : { mk s.hw ⟨s.mem, p⟩ (s.before p) (s.sofar p) with eff := id } = { y with eff := id })
    (hs : s.slotNext p k) (hk : k ≠ 3) : s.syl p k mk = .next (s.join p m y) := by
  rw [s.syl_joins p k mk hs hk, he]
  have h := congrArg (fun z => s.join p m z) hy
  exact congrArg _ h

theorem flow_cycle (b : CoreBody) (t : Transfer) : (flow b t).cycle = b.cycle := by cases t <;> simp [flow]

/-- A syllable that completes a bundle which issues ends it with every effect. -/
theorem State.syl_closes (s : State) (p : Nat) (mk : Hw → PantryView → CoreBody → CoreBody → Syl) (y : Syl)
    (hy : mk s.hw ⟨s.mem, p⟩ (s.before p) (s.sofar p) = y) (hs : s.closes p y) :
    s.syl p 3 mk = .next (s.issued p (y.eff (s.sofar p)) y) := by
  obtain ⟨⟨hh, h0, hc, hn⟩, hi⟩ := hs
  have hb := s.atIssue_before p
  have hd : ((s.atIssue p).add y).before = s.before p := hb
  have hco : (s.hw.core p).offer 3 (mk s.hw ⟨s.mem, p⟩) =
      (⟨(((s.atIssue p).add y).close (y.eff (s.sofar p))).1, none⟩,
        (((s.atIssue p).add y).close (y.eff (s.sofar p))).2) := by
    unfold State.atIssue at hn hb
    unfold State.sofar at hc
    have : mk s.hw ⟨s.mem, p⟩ ((s.hw.core p).bundle.getD (Bundle.start (s.hw.core p).body)).before
        (s.hw.core p).body = y := by rw [hb]; exact hy
    simp [Core.offer, hc, hn, this, State.sofar, State.atIssue]
  have hcl : ((s.atIssue p).add y).close (y.eff (s.sofar p)) =
      (let d := (s.atIssue p).add y
       let n := flow { (y.eff (s.sofar p)) with ready := markReady d.before.cycle d.dests (y.eff (s.sofar p)).ready } d.transfer
       { n with
         cycle := d.before.cycle + 1, retired := n.retired + 1, waitInfo := 0, waitThresh := 0, dmaStop := false
         run := if d.outs.contains .halted then .idle else .issuing },
       ((s.atIssue p).add y).early ++ ((s.atIssue p).add y).outs) := by
    unfold Bundle.close
    rw [hi]
  rw [hcl] at hco
  simp only [State.syl, State.done_next, Eff.syllable, Eff.start_hw, Eff.start_mem, hh, Bool.false_or,
    show ((3 : Nat) == 0) = false from rfl, Bool.false_and, Bool.false_eq_true, if_false, hco, Eff.up_hw]
  rw [if_neg (by simp [Hw.body_setCore_same, Core.whole, hd, State.before])]
  rfl

/-! ### Units of a core between bundles -/

theorem Hw.between_bundle {h : Hw} {p : Nat} (hb : h.between p = true) : (h.core p).bundle = none := by
  simpa [Hw.between] using hb

theorem Hw.body_between {h : Hw} {p : Nat} (hb : h.between p = true) : (h.core p).body = h.body p := by
  simp [Hw.body, Core.whole, Hw.between_bundle hb]

/-- A change of what a core between bundles holds. -/
theorem Hw.updBody_between {h : Hw} {p : Nat} (hb : h.between p = true) (f : CoreBody → CoreBody) :
    h.updBody p f = h.setCore p ⟨f (h.body p), none⟩ := by
  simp [Hw.updBody, Core.event, Hw.between_bundle hb, Hw.body_between hb]

theorem Eff.unit_free {e : Eff} {p : Nat} (f : Eff → Eff) (hh : e.hw.held p = false) (hb : e.hw.between p = true)
    (hc : e.hw.cutHolds p = false) : e.unit p f = f e := by simp [Eff.unit, hh, hb, hc]

/-- A unit that changes only what its core holds. -/
theorem State.unit_body (s : State) (p : Nat) (f : CoreBody → CoreBody) (hs : s.unitFree p) :
    s.done (fun e => e.unit p fun e => e.up fun h => h.updBody p f) = .next (s.withBody p (f (s.before p))) := by
  have h : (Eff.start s.hw s.mem).unit p (fun e => e.up fun h => h.updBody p f) =
      (Eff.start s.hw s.mem).up fun h => h.updBody p f := Eff.unit_free _ hs.1 hs.2.1 hs.2.2
  have h' := congrArg (fun h => (Host.Outcome.next (s.withHw h) : Host.Outcome State Fault Refusal))
    (Hw.updBody_between hs.2.1 f)
  rw [State.done_next, h]
  exact h'

/-- A read of words none of which has an error or is poisoned leaves no trace. -/
theorem Eff.coreRead_clean (e : Eff) (p a n : Nat) (hc : e.mem.cleanAt (pantryAddr p a) n) : e.coreRead p a n = e := by
  have h1 := hc .single (by decide)
  have h2 := hc .uncorrectable (by decide)
  have h3 := hc .poisoned (by decide)
  simp [Eff.coreRead, Eff.pantryErrors, readFlags, Memory.anyState, h1, h2, h3]

end Sys2Proof.Machine
end

