-- ==== Sys2Proof/Laws/Memory.lean ====
section
/-!
SUPPORT. Every memory operation keeps the canonical form, and what it leaves unchanged.
-/
namespace Sys2Proof.Machine

open Sys2Proof

theorem Memory.wf_iff (m : Memory) :
    m.wf = true ↔ Tbl.wf byteDefault m.cells = true ∧ Tbl.wf wordDefault m.words = true := by simp [Memory.wf]

theorem Memory.empty_wf : Memory.empty.wf = true := rfl

theorem Memory.putBytes_wf (m : Memory) (a : Nat) (bs : List Byte) (w : m.wf = true) : (m.putBytes a bs).wf = true := by
  rw [Memory.wf_iff] at w ⊢
  exact ⟨Tbl.wf_putAll _ bs _ a w.1, w.2⟩

theorem Memory.mergeWords_wf (m : Memory) (a n : Nat) (poison : Bool) (w : m.wf = true) :
    (m.mergeWords a n poison).wf = true := by
  rw [Memory.wf_iff] at w ⊢
  unfold Memory.mergeWords
  split
  · exact w
  · exact ⟨w.1, Tbl.wf_foldl _ _ (fun t _ ht => Tbl.wf_upd _ t _ _ ht) _ _ w.2⟩

theorem Memory.apply_wf (m : Memory) (x : MemWrite) (w : m.wf = true) : (m.apply x).wf = true := by
  cases x with
  | bytes a bs poison => exact Memory.putBytes_wf _ a bs (Memory.mergeWords_wf m a _ poison w)
  | clear lo hi =>
    rw [Memory.wf_iff] at w ⊢
    exact ⟨Tbl.wf_clear _ _ lo hi w.1, Tbl.wf_clear _ _ _ _ w.2⟩
  | setState word st =>
    rw [Memory.wf_iff] at w ⊢
    exact ⟨w.1, Tbl.wf_put _ _ word st w.2⟩

theorem Memory.applyAll_wf (ws : List MemWrite) (m : Memory) (w : m.wf = true) : (m.applyAll ws).wf = true := by
  induction ws generalizing m with
  | nil => exact w
  | cons x ws ih => exact ih _ (Memory.apply_wf m x w)

/-- A command that answers through `done` keeps the canonical form of the memory. -/
theorem State.done_wf (s t : State) (f : Eff → Eff) (h : s.done f = .next t) (w : s.mem.wf = true) : t.mem.wf = true := by
  rw [State.done_next] at h
  cases h
  exact Memory.applyAll_wf _ _ w

/-- A command that answers through `done` leaves the queue it was given. -/
theorem State.done_pending (s t : State) (f : Eff → Eff) (h : s.done f = .next t) : t.pending = s.pending := by
  rw [State.done_next] at h
  cases h
  rfl

/-- A byte as read after bytes have been written. -/
theorem Memory.byte_apply_bytes (m : Memory) (a : Nat) (bs : List Byte) (poison : Bool) (b : Nat) :
    (m.apply (.bytes a bs poison)).byte b =
      if a ≤ b ∧ b < a + bs.length then bs[b - a]?.getD (byteDefault b) else m.byte b := by
  have h : (m.mergeWords a bs.length poison).cells = m.cells := by
    unfold Memory.mergeWords
    split <;> rfl
  simp only [Memory.apply, Memory.putBytes, Memory.byte, Tbl.get_putAll, h]

end Sys2Proof.Machine
end

