-- ==== Sys2Proof/Laws/Effects.lean ====
section
/-!
SUPPORT. What the shared effects leave: errors of a read change registers and counts only, and a write to a Pantry is
one write to the memory.
-/
namespace Sys2Proof.Machine

open Sys2Proof

/-- The parts of the hardware that no register access, log entry or service cause changes. -/
def Hw.sameUnits (h k : Hw) : Prop :=
  k.cores = h.cores ∧ k.loft = h.loft ∧ k.links = h.links ∧ k.atu = h.atu ∧ k.caller.kernels = h.caller.kernels

theorem Hw.sameUnits_refl (h : Hw) : h.sameUnits h := ⟨rfl, rfl, rfl, rfl, rfl⟩

theorem Hw.sameUnits_trans {h k l : Hw} (a : h.sameUnits k) (b : k.sameUnits l) : h.sameUnits l := by
  obtain ⟨a1, a2, a3, a4, a5⟩ := a
  obtain ⟨b1, b2, b3, b4, b5⟩ := b
  exact ⟨b1.trans a1, b2.trans a2, b3.trans a3, b4.trans a4, b5.trans a5⟩

theorem Hw.sameUnits_body {h k : Hw} (a : h.sameUnits k) (p : Nat) : k.body p = h.body p := by
  simp [Hw.body, Hw.core, a.1]

theorem Hw.sameUnits_log (h : Hw) (l : LogEntry) : h.sameUnits (h.log l) := ⟨rfl, rfl, rfl, rfl, rfl⟩

theorem Hw.sameUnits_updCaller (h : Hw) (f : Caller → Caller) (k : (f h.caller).kernels = h.caller.kernels) :
    h.sameUnits (h.updCaller f) := ⟨rfl, rfl, rfl, rfl, k⟩

theorem Hw.sameUnits_service (h : Hw) (b : Nat) : h.sameUnits (h.service b) := by
  unfold Hw.service
  split
  · exact h.sameUnits_refl
  · exact ⟨rfl, rfl, rfl, rfl, rfl⟩

theorem Hw.sameUnits_corrected (h : Hw) (u i n : Nat) : h.sameUnits (h.corrected u i n) := by
  unfold Hw.corrected
  split
  · exact h.sameUnits_refl
  · dsimp only
    generalize (if h.caller.corrWindow = _ then h.caller.corr else []) = c
    split
    · exact Hw.sameUnits_trans (Hw.sameUnits_trans (Hw.sameUnits_updCaller h _ rfl) (Hw.sameUnits_log _ _))
        (Hw.sameUnits_service _ _)
    · exact Hw.sameUnits_updCaller h _ rfl

theorem Hw.sameUnits_setReg (h : Hw) (o : Nat) (v : Word) : h.sameUnits (h.setReg o v) := ⟨rfl, rfl, rfl, rfl, rfl⟩

theorem Hw.sameUnits_satRegFld (h : Hw) (o hi lo n : Nat) : h.sameUnits (h.satRegFld o hi lo n) :=
  ⟨rfl, rfl, rfl, rfl, rfl⟩

/-- Recording the errors of a read changes neither a core nor the memory, and writes nothing. -/
theorem Eff.pantryErrors_frame (e : Eff) (p a n : Nat) (scrub : Bool) :
    e.hw.sameUnits (e.pantryErrors p a n scrub).hw ∧ (e.pantryErrors p a n scrub).mem = e.mem ∧
      (e.pantryErrors p a n scrub).wr = e.wr := by
  unfold Eff.pantryErrors
  dsimp only
  split
  · exact ⟨e.hw.sameUnits_refl, rfl, rfl⟩
  · refine ⟨?_, rfl, rfl⟩
    refine Hw.sameUnits_trans ?_ (Hw.sameUnits_corrected _ _ _ _)
    have two : e.hw.sameUnits ((e.hw.satRegFld (Reg.pantryCorrCnt p) 31 0
        (e.mem.countState (pantryAddr p a) n .single)).satRegFld (Reg.pantryUncCnt p) 31 0
        (e.mem.countState (pantryAddr p a) n .uncorrectable)) :=
      Hw.sameUnits_trans (Hw.sameUnits_satRegFld _ _ _ _ _) (Hw.sameUnits_satRegFld _ _ _ _ _)
    split
    · exact Hw.sameUnits_trans two (Hw.sameUnits_setReg _ _ _)
    · exact two

theorem Eff.merged_frame (e : Eff) (p w : Nat) :
    e.hw.sameUnits (e.merged p w).hw ∧ (e.merged p w).mem = e.mem ∧ (e.merged p w).wr = e.wr := by
  unfold Eff.merged
  split
  · exact Eff.pantryErrors_frame _ _ _ _ _
  · exact ⟨e.hw.sameUnits_refl, rfl, rfl⟩

/-- A write of bytes to a Pantry is one write to the memory; no core changes. -/
theorem Eff.pantryWrite_frame (e : Eff) (p a : Nat) (bs : List Byte) (poison : Bool) (hb : bs.isEmpty = false) :
    e.hw.sameUnits (e.pantryWrite p a bs poison).hw ∧
      (e.pantryWrite p a bs poison).mem = e.mem.apply (.bytes (pantryAddr p a) bs poison) ∧
      (e.pantryWrite p a bs poison).wr = e.wr ++ [.bytes (pantryAddr p a) bs poison] := by
  have head : ∀ c : Bool, e.hw.sameUnits (if c then e else e.merged p (a / 32)).hw ∧
      (if c then e else e.merged p (a / 32)).mem = e.mem ∧ (if c then e else e.merged p (a / 32)).wr = e.wr := by
    intro c
    cases c
    · exact e.merged_frame p _
    · exact ⟨e.hw.sameUnits_refl, rfl, rfl⟩
  have tail : ∀ f : Eff, e.hw.sameUnits f.hw ∧ f.mem = e.mem ∧ f.wr = e.wr → ∀ w,
      e.hw.sameUnits (f.merged p w).hw ∧ (f.merged p w).mem = e.mem ∧ (f.merged p w).wr = e.wr := by
    intro f hf w
    obtain ⟨m1, m2, m3⟩ := f.merged_frame p w
    exact ⟨Hw.sameUnits_trans hf.1 m1, m2.trans hf.2.1, m3.trans hf.2.2⟩
  unfold Eff.pantryWrite
  rw [if_neg (by simp [hb])]
  dsimp only
  have key : ∀ f : Eff, e.hw.sameUnits f.hw ∧ f.mem = e.mem ∧ f.wr = e.wr →
      e.hw.sameUnits (f.write (.bytes (pantryAddr p a) bs poison)).hw ∧
      (f.write (.bytes (pantryAddr p a) bs poison)).mem = e.mem.apply (.bytes (pantryAddr p a) bs poison) ∧
      (f.write (.bytes (pantryAddr p a) bs poison)).wr = e.wr ++ [.bytes (pantryAddr p a) bs poison] := by
    intro f hf
    exact ⟨hf.1, by simp [Eff.write, hf.2.1], by simp [Eff.write, hf.2.2]⟩
  apply key
  split
  · exact ⟨e.hw.sameUnits_refl, rfl, rfl⟩
  · have h0 := head (decide (a % 32 = 0))
    simp only [decide_eq_true_eq] at h0
    split
    · exact h0
    · exact tail _ h0 _

end Sys2Proof.Machine
end

