-- ==== Sys2Proof/Laws/Matrix.lean ====
section
/-!
SUPPORT. Reading a cell after a bank has been written.
-/
namespace Sys2Proof

variable {α : Type}

theorem Tbl.find_append (t u : Tbl α) (k : Nat) :
    Tbl.find (t ++ u) k = (Tbl.find t k).or (Tbl.find u k) := by
  induction t with
  | nil => simp [Tbl.find]
  | cons e t ih =>
    obtain ⟨j, v⟩ := e
    simp only [List.cons_append, Tbl.find]
    split <;> simp [ih]

/-- An entry that a filter on keys keeps. -/
theorem Tbl.find_filter_key (t : Tbl α) (f : Nat → Bool) (k : Nat) :
    Tbl.find (t.filter fun e => f e.1) k = if f k then Tbl.find t k else none := by
  induction t with
  | nil => simp [Tbl.find]
  | cons e t ih =>
    obtain ⟨j, v⟩ := e
    by_cases hj : f j = true
    · by_cases hk : j = k
      · subst hk
        simp [Tbl.find, hj]
      · simp [Tbl.find, hj, hk, ih]
    · by_cases hk : j = k
      · subst hk
        simp only [hj, Bool.false_eq_true, not_false_eq_true, List.filter_cons_of_neg, if_false, ih]
      · simp [Tbl.find, hj, hk, ih]

/-- An entry of the table that a function of the index gives. -/
theorem Tbl.find_filterMap (g : Nat → Option α) (base : Nat) (xs : List Nat) (k : Nat) :
    Tbl.find (xs.filterMap fun i => (g i).map fun v => (base + i, v)) (base + k) =
      if k ∈ xs then g k else none := by
  induction xs with
  | nil => simp [Tbl.find]
  | cons i xs ih =>
    by_cases hi : i = k
    · subst hi
      cases hg : g i with
      | none => simp only [List.filterMap_cons, hg, Option.map_none, ih]; simp
      | some v => simp [Tbl.find, hg]
    · cases hg : g i with
      | none => simp [hg, ih, Ne.symm hi]
      | some v => simp [hg, ih, Tbl.find, hi, Ne.symm hi]

theorem Tbl.find_filterMap_below (g : Nat → Option α) (base : Nat) (xs : List Nat) (k : Nat)
    (hk : ∀ i ∈ xs, base + i ≠ k) : Tbl.find (xs.filterMap fun i => (g i).map fun v => (base + i, v)) k = none := by
  induction xs with
  | nil => simp [Tbl.find]
  | cons i xs ih =>
    have hi := hk i (by simp)
    have ih := ih fun j hj => hk j (by simp [hj])
    cases hg : g i with
    | none => simp [hg, ih]
    | some v => simp [hg, ih, Tbl.find, hi]

namespace Machine

/-- What a bank holds after it has been written, and what the rest holds. -/
theorem get_setBank (acc : Tbl Acc) (bank : Bool) (f : Nat → Acc) (k : Nat) :
    Tbl.get (fun _ => Acc.zero) (setBank acc bank f) k =
      if bank.toNat * 8192 ≤ k ∧ k < bank.toNat * 8192 + 8192 then f (k - bank.toNat * 8192)
      else Tbl.get (fun _ => Acc.zero) acc k := by
  have hnew : ((List.range 8192).filterMap fun i =>
      if f i = Acc.zero then none else some (bank.toNat * 8192 + i, f i)) =
      (List.range 8192).filterMap fun i =>
        (if f i = Acc.zero then none else some (f i)).map fun v => (bank.toNat * 8192 + i, v) := by
    congr 1
    funext i
    split <;> rfl
  unfold setBank Tbl.get
  simp only [hnew, Tbl.find_append]
  rw [Tbl.find_filter_key acc (fun j => decide (j < bank.toNat * 8192)),
    Tbl.find_filter_key acc (fun j => decide (bank.toNat * 8192 + 8192 ≤ j))]
  by_cases h : bank.toNat * 8192 ≤ k ∧ k < bank.toNat * 8192 + 8192
  · obtain ⟨i, rfl⟩ : ∃ i, k = bank.toNat * 8192 + i := ⟨k - bank.toNat * 8192, by omega⟩
    have hi : i < 8192 := by omega
    have h1 : ¬ (bank.toNat * 8192 + i < bank.toNat * 8192) := by omega
    have h2 : ¬ (bank.toNat * 8192 + 8192 ≤ bank.toNat * 8192 + i) := by omega
    rw [Tbl.find_filterMap, if_pos h]
    simp only [decide_eq_true_eq, if_neg h1, if_neg h2, List.mem_range, if_pos hi, Nat.add_sub_cancel_left]
    split <;> simp_all
  · rw [Tbl.find_filterMap_below _ _ _ _ (fun i hi => by simp at hi; omega), if_neg h]
    by_cases hk : k < bank.toNat * 8192
    · have h2 : ¬ (bank.toNat * 8192 + 8192 ≤ k) := by omega
      simp only [decide_eq_true_eq, if_pos hk, if_neg h2]
      cases Tbl.find acc k <;> simp
    · have h2 : bank.toNat * 8192 + 8192 ≤ k := by omega
      simp only [decide_eq_true_eq, if_neg hk, if_pos h2]
      cases Tbl.find acc k <;> simp

end Machine

end Sys2Proof
end

