-- ==== Sys2Proof/Laws/Vector.lean ====
section
/-!
SUPPORT. What a syllable that writes a vector register lane by lane does, said once.
-/
namespace Sys2Proof.Machine

open Sys2Proof

theorem Vec.lane_tab (f : Nat → Word) {i : Nat} (h : i < 64) : (Vec.tab f).lane i = f i := by
  simp [Vec.tab, Vec.lane, List.getD, h]

theorem Vec.tab_congr {f g : Nat → Word} (h : ∀ i < 64, f i = g i) : Vec.tab f = Vec.tab g := by
  unfold Vec.tab
  apply List.map_congr_left
  intro i hi
  exact h i (by simpa using hi)

theorem foldl_congr_mem {α β : Type} (f g : β → α → β) (xs : List α) (z : β) (h : ∀ b, ∀ x ∈ xs, f b x = g b x) :
    xs.foldl f z = xs.foldl g z := by
  induction xs generalizing z with
  | nil => rfl
  | cons x xs ih =>
    rw [List.foldl_cons, List.foldl_cons, h z x (by simp)]
    exact ih _ fun b y hy => h b y (by simp [hy])

theorem laneList_getD (f : Nat → Lane) {i : Nat} (h : i ∈ List.range 64) :
    ((List.range 64).map f).getD i (0, 0) = f i := by
  have h : i < 64 := by simpa using h
  simp [List.getD, h]

/-- Without the list that holds the lanes' results once. -/
theorem lanes_eq (on : BitVec 64) (f : Nat → Lane) :
    lanes on f = (Vec.tab fun i => (f i).1,
      (List.range 64).foldl (fun acc i => if on.getLsbD i then acc ||| (f i).2 else acc) 0) := by
  unfold lanes Vec.tab
  refine Prod.ext ?_ ?_
  · dsimp only
    apply List.map_congr_left
    intro i hi
    rw [laneList_getD f hi]
  · dsimp only
    apply foldl_congr_mem
    intro acc i hi
    rw [laneList_getD f hi]

/-- The register that a syllable under a predicate writes. -/
theorem sylVec_value (b : CoreBody) (d pg : Nat) (f : Nat → Lane) :
    (if pg = 0 then (lanes (b.pr pg) f).1 else blend (b.pr pg) (lanes (b.pr pg) f).1 (b.vr d)) =
      Vec.tab fun i => if (b.pr pg).getLsbD i then (f i).1 else (b.vr d).lane i := by
  rw [lanes_eq]
  dsimp only
  split
  · rename_i h
    subst h
    apply Vec.tab_congr
    intro i hi
    have h0 : (b.pr 0).getLsbD i = true := by
      simp only [CoreBody.pr, if_true, BitVec.getLsbD_allOnes, hi, decide_true]
    rw [if_pos h0]
  · unfold blend
    apply Vec.tab_congr
    intro i hi
    rw [Vec.lane_tab _ hi]

theorem sylVec_eff (d pg lat : Nat) (srcs : List Nat) (f : Nat → Lane) (b n : CoreBody) :
    (sylVec d pg lat srcs (lanes (b.pr pg) f) b).eff n = n.laneWrite b d pg f := by
  have h : (lanes (b.pr pg) f).2 =
      (List.range 64).foldl (fun acc i => if (b.pr pg).getLsbD i then acc ||| (f i).2 else acc) 0 := by rw [lanes_eq]
  unfold sylVec CoreBody.laneWrite
  simp only [sylVec_value, h]

/-- A lane-by-lane syllable that ends a bundle which issues. -/
theorem State.syl_closes_lanes (s : State) (p d pg lat : Nat) (srcs : List Nat) (f : Nat → Lane)
    (mk : Hw → PantryView → CoreBody → CoreBody → Syl)
    (hm : mk s.hw ⟨s.mem, p⟩ (s.before p) (s.sofar p) =
      sylVec d pg lat srcs (lanes ((s.before p).pr pg) f) (s.before p))
    (h : s.closes p { srcs := maskedSrcs d pg srcs, dests := [(keyV d, lat)] }) :
    s.syl p 3 mk = .next (s.issued p ((s.sofar p).laneWrite (s.before p) d pg f)
      { srcs := maskedSrcs d pg srcs, dests := [(keyV d, lat)] }) := by
  rw [State.syl_closes s p mk _ hm h, sylVec_eff]
  rfl

end Sys2Proof.Machine
end

