-- ==== Sys2Proof/Tests/Slice0.lean ====
section
/-!
SUPPORT. Tests: terms that WellFormed refuses, one for each of its checks; results known from outside the model; one step
on small states; and for each statement that has hypotheses, a state and operands that meet all of them (a statement of
several clauses has a witness for each clause).
-/
namespace Sys2Proof.Tests

open Sys2Proof Sys2Proof.Machine

set_option Elab.async false

/-! ### WellFormed -/

/-- Commands whose operands have a wrong width, one for each check. -/
def illFormed : List Instr :=
  [.ctxCreate (.data []), .queueCreate (.data [0]), .cmdNop 0 (.data []), .launch 0 (.data []) (.data []) .poison,
   .launch 0 .poison (.data []) (.data [1]), .cmdWait 0 (.data []) .poison, .signal 0 (.data []), .gate 0 (.data []),
   .cond 0 (.data []) .poison, .cmdLoop 0 (.data []) .poison 0, .call 0 (.data []), .cmdReturn 0 (.data []),
   .dma 0 (.data []) .poison, .dma 0 .poison (.data []), .cacheInv 0 (.data []), .hatchOpen 0 (.data []),
   .hatchClose 0 (.data []), .timestamp 0 (.data []), .batch 0 (.data []) .poison .poison, .batch 0 .poison (.data []) .poison,
   .kfpWriteResponse 0 2048 0, .lpiLine 0 [0] .last, .lpiFrameStart 0 [0] .last, .lpiFrameEnd 0 [0] .last,
   .walkReadReturn 0 2048 [] false 0, .walkReadReturn 0 0 [] false 0, .kfpReadResponse 0 2048 0 [] false true 0,
   .kfpReadResponse 0 0 0 [] false true 0, .txDescriptor 0 0 [] []]

theorem test_ill_formed_refused : illFormed.all (fun c => !c.wf) = true := by decide +kernel
theorem test_ill_formed_sample : (Instr.thermalSample []).wf = false := by decide +kernel
theorem test_ill_formed_estimate : (Instr.powerEstimate []).wf = false := by decide +kernel
theorem test_well_formed_sample : (Instr.thermalSample (List.replicate 17 0)).wf = true := by decide +kernel

/-- What `Memory.cleanAt` asks, state by state. -/
theorem cleanAt_iff (m : Memory) (a n : Nat) : m.cleanAt a n ↔
    m.countState a n .single = 0 ∧ m.countState a n .uncorrectable = 0 ∧ m.countState a n .poisoned = 0 := by
  constructor
  · intro h; exact ⟨h _ (by decide), h _ (by decide), h _ (by decide)⟩
  · rintro ⟨h1, h2, h3⟩ st hs; cases st <;> first | exact absurd rfl hs | assumption

/-! ### States and operands of the witnesses -/

def wBody (f : CoreBody → CoreBody) : CoreBody := f { CoreBody.reset with run := .issuing, pbound := 131072, ibound := 100 }
def wRegs (h : Hw) (xs : List (Nat × Word)) : Hw := xs.foldl (fun h x => h.setReg x.1 x.2) h
/-- Core 0 holds a body and awaits slot `k` of its bundle. -/
def wSlot (k : Nat) (f : CoreBody → CoreBody) : State :=
  State.reset.withHw ((wRegs Hw.reset [(Reg.pantryGranuleState 0, 0xFFFF)]).setCore 0 ⟨wBody f, some { Bundle.start (wBody f) with next := k }⟩)
def wSlotDark (k : Nat) (f : CoreBody → CoreBody) : State :=
  State.reset.withHw ((wRegs Hw.reset [(Reg.pantryGranuleState 0, 0)]).setCore 0 ⟨wBody f, some { Bundle.start (wBody f) with next := k }⟩)
def wUnit (f : CoreBody → CoreBody) : State :=
  State.reset.withHw ((wRegs Hw.reset [(Reg.pantryGranuleState 0, 0xFFFF)]).setCore 0 ⟨wBody f, none⟩)
def w2kgen : Tbl Word := [(1,64),(2,64),(3,1),(4,32),(5,32),(7,1),(8,1),(9,1),(10,1),(11,1),(12,1),(19,1),(20,1),(35,1),(36,1)]
def wBase : List (Nat × Word) := [(Reg.engStatus0, 64 + 2 ^ 13), (Reg.pwrUnitUp, 0xFFFFFFFF), (Reg.pwrCoreUp 0, 0xFFFFFFFF), (Reg.pwrCoreUp 1, 0xFFFFFFFF),
  (Reg.pantryGranuleState 0, 0xFFFF), (Reg.pantryGranuleState 1, 0xFFFF), (Reg.partCtrl 0, 1), (Reg.partCore 0, 3), (Reg.abiAck, 0x303)]
/-- A booted engine with registers `xs` and `f` done to it. -/
def wLive (xs : List (Nat × Word)) (f : Hw → Hw) : State :=
  State.reset.withHw (f (wRegs { Hw.reset with boot := { Boot.reset with aon := true, good := true, engLow := false, dlrLow := false }, dealer := { Dealer.reset with running := true } } (wBase ++ xs)))
/-- The body of core `p`. -/
def wPut (p : Nat) (f : CoreBody → CoreBody) (h : Hw) : Hw := h.setCore p ⟨wBody f, none⟩
/-- `n` bytes that hold little-endian fields: offset, size, value. -/
def wBytes (n : Nat) (fs : List (Nat × Nat × Nat)) : List Byte := fs.foldl (fun l f => overwrite l f.1 (leBytes f.2.1 f.2.2)) (List.replicate n 0)
def wCtxWord : Word := 0x80000000 + 6 * 2 ^ 12 + 5
def wCtx : Ctx := { gen := 6, root := 0x10000, cellarBase := 0, cellarStride := 0, plan := false, slot := some 0, leaving := false, pause := [], recFaultSaid := false, resetMark := false, evicting := false, blockedAt := none, idleEpochs := 0, completed := false, wants := false }
/-- Queue 0 of context 5 in partition 0, with `f` done to it. -/
def wQueue (f : Queue → Queue) : Queue := f
  { ctx := 5, part := 0, prio := 1, major := 3, irq := 0xFF, ringVa := 0, ringLog := 4, recLog := 4, recVa := 0x2000, saveVa := 0x3000,
    tail := 4, head := 0, recHead := 0, recTail := 0, tailErr := false, recHeadErr := false, destroying := none, plan := none,
    frames := [⟨none, 0, 0, none⟩], loops := [], hold := none, holdItem := none, heldSince := 0, batch := [], minor := none }
def wCaller (q : Queue) (h : Hw) : Hw := { h with caller := { h.caller with ctxs := [(5, some wCtx)], queues := [(0, some q)] } }
/-- A command packet with tag 77 for the front end of a queue: its opcode, minor version 1, and fields. -/
def wCmd (op : Nat) (fs : List (Nat × Nat × Nat)) : List Byte := wBytes 64 ([(0,1,op),(1,1,1),(2,1,1),(8,8,77)] ++ fs)
def wF : Frame := ⟨none, 0, 0, none⟩
def wQ := wQueue id
def atQueueSimpleCommands1 := wLive [] (wCaller (wQueue id))
def wIt : Item := { id := 0, queue := 0, tag := 9, op := 8, irq := false, quiet := false, nested := false, plan := false, enclosing := [], state := .dispatched, status := 0, detail := 0, tricks := 0, summary := 0, time := 0, deferred := false, held := false, final := false, doneSeq := 0 }
/-- The state at elapsed time `t` in ns. -/
def wEl (t : Nat) (s : State) : State := s.withHw (s.hw.updDealer fun d => { d with elapsed := t * 2 ^ 32 })
def atScalarArithmetic1 : State := wSlot 0 id
def atScalarArithmetic2 : State := wSlot 0 id
def atScalarPredicatesAndOthers1 : State := wSlot 0 id
def atScalarPredicatesAndOthers2 : State := wSlot 0 id
def atScalarArithmetic3 : State := wSlot 0 id
def atControlTransfers1 := wSlot 0 (fun b => { b with rets := [7] })
def atControlTransfers2 := wSlot 0 (fun b => { b with rets := [7], s := [(1, 3)] })
def atControlTransfers3 := wSlot 0 (fun b => { b with rets := [], pc := 96 })
def atControlTransfers4 := wSlot 0 (fun b => { b with rets := [1,2,3,4], loops := [⟨0,0,0⟩,⟨0,0,0⟩,⟨0,0,0⟩,⟨0,0,0⟩] })
def atWaits2 := wSlot 0 (fun b => { b with s := [(1, 95)] })
def atWaits3 := wSlot 0 (fun b => { b with s := [(1, 96)] })
def atWaits4 := wSlot 0 (fun b => { b with ctx := 5 })
def atWaits5 := let w := wUnit (fun b => { b with cut := some ⟨3, false, 0, none⟩ }); w.withHw (wRegs w.hw [(Reg.partCore 2, 1)])
def atAddressSyllables1 := wSlot 1 (fun b => { b with s := [(1, 95)] })
def atAddressSyllables2 := wSlot 1 (fun b => { b with gen := [(1,64),(2,64),(3,1),(4,32),(5,32),(7,1),(8,1),(9,1),(10,1),(11,1),(12,1),(19,1),(20,1),(35,1),(36,1)] })
def atWaits1 : State := wSlot 0 id
def atLoadsAndStoresQueue1 := wSlot 1 (fun b => { b with a := [(2, 256)] })
def atLoadsAndStoresQueue2 := wSlot 2 (fun b => { b with a := [(2, 256)] })
def atSyllableTraps1 := wSlot 1 (fun b => { b with a := [(2, 0x400000 - 255)] })
def atSyllableTraps2 := wSlot 2 (fun b => { b with a := [(2, 0x400000 - 3)] })
def atSyllableTraps3 := wSlotDark 1 id
def atSyllableTraps4 := wSlotDark 2 id
def atSyllableTraps5 := wSlot 1 (fun b => { b with a := [(2, 0), (3, 32)], s := [(4, 2)] })
def atSyllableTraps6 := wSlot 1 (fun b => { b with hatches := [(1, { Hatch.closed with isOpen := true })] })
def atQueueingSyllables1 := wSlot 1 (fun b => { b with a := [(2, 32), (3, 96)], s := [(4, 2)] })
def atSyllableTraps7 := wSlot 2 (fun b => { b with gen := [(0, 12)] })
def mxU (f : MatrixUnit → MatrixUnit) : State := wUnit fun b => { b with mx := f MatrixUnit.zero }
def atMatrixSequencer1 := mxU fun m => { m with queue := [.dload 0 64 16 false] }
def atMatrixSequencer2 := mxU fun m => { m with queue := [.drain true 0 true 0xF true 64] }
def atMatrixSequencer3 := mxU fun m => { m with queue := [.swap] }
def wJob : DloadJob := ⟨0, 1, 16, false, 1, false, [], 0⟩
def atMatrixSequencer4 := mxU fun m => { m with loadPend := some wJob }
def atMatrixSequencer5 := mxU fun m => { m with loadRun := some { wJob with cyc := 6 } }
def wPlane : Plane := ⟨0, 0, Memory.empty, true, []⟩
def wWalk : Walk := ⟨1, some wPlane, none, 0, none⟩
def wMma : MxOp := .mma true true 0 1 0
def wWalking (f : MatrixUnit → MatrixUnit) : State := wUnit fun b => { b with mx := f MatrixUnit.zero, walk := some wWalk, gen := w2kgen }
def atMatrixCycle1 := wWalking fun m => { m with queue := [wMma] }
def wFl : StepFlight := ⟨true, true, 7, 0, 0, [], [], 2, 1⟩
def wDr : DrainJob := ⟨true, 0, false, 15, false, 0, 0, false, false⟩
def atMatrixCycle3 := mxU fun m => { m with flights := [wFl] }
def atMatrixSequencer7 := mxU fun m => { m with loadRun := some wJob }
def atMatrixCycle2 := wWalking fun m => { m with queue := [wMma], drainRun := some { wDr with second := false }, drainQueue := List.replicate 5 Vec.zero }
def atDrainer1 := mxU fun m => { m with drainRun := some wDr }
def wRow : DrainRow := ⟨Vec.zero, some 64, 256, 0⟩
def atDrainer2 := mxU fun m => { m with rowsOut := [{ wRow with left := 0, dest := none }] }
def atDrainer3 := mxU fun m => { m with rowsOut := [{ wRow with left := 0, dest := some 64 }] }
def atMatrixSequencer6 : DloadJob := { wJob with cyc := 6 }
def atVectorTwoSources1 : State := wSlot 3 id
def atVectorOneSource1 : State := wSlot 3 id
def atVectorRequantAndStreams3 := wSlot 3 fun b => { b with walk := some ⟨1, some ⟨0, 0, Memory.empty, true, []⟩, none, 0, none⟩, gen := w2kgen ++ [(37,1)] }
def atVectorRequantAndStreams4 := wSlot 3 fun b => { b with mx := { b.mx with drainQueue := [Vec.zero] } }
def wPl : Plane := ⟨0, 0, Memory.empty, true, []⟩
def atBundlesThatDoNotIssue2 : TrapInfo := ⟨1, 2, 3⟩
def wBun : Bundle := { Bundle.start (wBody id) with dests := [(70, 0, 1), (70, 1, 1)], traps := [atBundlesThatDoNotIssue2] }
def wEmpty : Bundle := { Bundle.start (wBody id) with traps := [atBundlesThatDoNotIssue2] }
def withBun (f : Bundle → Bundle) : State := State.reset.withHw ((wRegs Hw.reset [(Reg.pantryGranuleState 0, 0xFFFF)]).setCore 0 ⟨wBody id, some (f { Bundle.start (wBody id) with next := 3 })⟩)
def atBundlesThatDoNotIssue1 := withBun fun d => { d with stall := true }
def atBundlesThatDoNotIssue3 := withBun fun d => { d with wait := some false, waitInfo := 1 }
def atBundlesThatDoNotIssue4 := withBun fun d => { d with before := { d.before with dead := true } }
def atBundlesThatDoNotIssue5 := withBun fun d => { d with traps := [atBundlesThatDoNotIssue2] }
def atVectorAcrossLanes1 : State := wSlot 3 id
def atVectorAcrossLanes2 : State := wSlot 3 id
def atVectorRequantAndStreams1 : State := wSlot 3 id
def atVectorRequantAndStreams2 : State := wSlot 3 id
def wLd : LoadEntry := ⟨true, 3, 256, 0⟩
def wSt : StoreEntry := ⟨1, [(256, [1,2])], 0⟩
def wFill : DmaEntry := ⟨0, .fill 32 2 5, 1, 0, false, 0, [], false, [], 0, false⟩
def wPw : PantryWrite := ⟨5, 512, [3,4], false⟩
def wWk : Walk := ⟨0, none, none, 0, none⟩
def atCoreAccesses1 := wUnit fun b => { b with cycle := 9, loadQ := [wLd], storeQ := [wSt], dmaQ := [wFill], gen := w2kgen, walk := some wWk }
def atCoreAccesses2 := wUnit fun b => { b with cycle := 9, writes := [wPw], run := .idle, walk := some { wWk with front := some ⟨0, (b.genP.accesses + 6), Memory.empty, false, []⟩, col := 3, nextLoad := 0 }, gen := w2kgen }
def wData : List Byte := List.replicate 256 7
def wPz : List Bool := List.replicate 8 false
def wMsg (gen : BitVec 8) (off : Nat) : Message := ⟨1, 0, .write 1 0 3 off gen wData wPz (some 2) 9 5 6 0⟩
def wHatch : Hatch := ⟨true, 64, 16, false, 4, 1, 1, false, []⟩
def wHat (part : Word) (gen : BitVec 8) (off : Nat) : State := wLive [(Reg.partCore 0, part)] fun h =>
  { wPut 0 (fun b => { b with hatches := [(3, wHatch)] }) h with loft := { h.loft with mesh := [wMsg gen off] } }
def atHatches1 := wHat 3 1 8
def atHatches2 := wHat 1 1 8
def atHatches3 := wHat 3 2 8
def atHatches4 := wHat 3 1 9
def wArr : Arrival := ⟨64, wData, wPz, 3, 1, 1, some 2, 9, 5, 6⟩
def atHatches5 := wLive [] fun h => wPut 0 (fun b => { b with arrivals := [wArr], hatches := [(3, wHatch)] }) h
def atHatches6 := wLive [] fun h => { wPut 0 (fun b => { b with ctx := 0x80000000 + 6 * 2 ^ 12 + 5, hputs := [2] }) h with loft := { h.loft with mesh := [⟨1, 0, .answer Status.staleHatch (some 2) 9 5 6⟩] } }
def atHatches7 := wLive [] fun h => { wPut 0 id h with loft := { h.loft with mesh := [⟨1, 0, .notice 19 1 false⟩] } }
def atHatches8 := wLive [] fun h => { wPut 1 (fun b => { b with hatches := [(3, { wHatch with closing := true, awaiting := [0] })] }) h with loft := { h.loft with replies := [(0, 19, 1)] } }
def wD2 : List Byte := wBytes 32 [(0,1,2),(2,2,1),(4,4,64),(20,4,0)]
def wDma (f : DmaEntry → DmaEntry) : DmaEntry := f ⟨3, .desc wD2 false, 1, 0, false, 0, [], false, [], 0, false⟩
def wDe1 := wDma id
def wDe2 := wDma fun x => { x with started := true, issued := 64, acked := [(0, 64)] }
def wDe3 := wDma fun x => { x with started := true }
def wCo (x : DmaEntry) := wLive [] fun h => wPut 0 (fun b => { b with ctx := wCtxWord, dmaQ := [x] }) h
def atDmaItems1 := wCo wDe1
def atDmaItems3 := wCo wDe2
def atDmaItems4 := wCo wDe3
def wEng (f : EngineDma → EngineDma) : EngineDma := f ⟨4, 0, wBytes 64 [(0,1,1),(2,2,1),(4,4,64)], none, 0, 0, 0, [], [], false, 0, false, false⟩
def wEn1 := wEng id
def wEn2 := wEng fun d => { d with channel := some 0, issued := 64, acked := [(0, 64)] }
def wEh (d : EngineDma) : State := wLive [] fun h => { wCaller (wQueue id) h with atu := { h.atu with engineDma := [d] } }
def atDmaItems6 := wEh wEn1
def atDmaItems7 := wEh wEn2
def wGjd : List Byte := wBytes 128 [(1,1,16+1),(2,1,1),(3,1,0),(6,2,1),(16,8,4),(24,4,1),(28,4,2),(32,8,4096),(40,1,1),(48,4,32)]
def wDe7 : DmaEntry := ⟨3, .desc (wBytes 32 [(0,1,7)]) false, 1, 0, true, 0, [], false, [], 0, false⟩
def atGatherUnits1 : State := { wCo wDe7 with mem := Memory.empty.apply (.bytes (pantryAddr 0 0) wGjd false) }
def wJ (f : GatherJob → GatherJob) : GatherJob := f
  { core := 0, dma := 3, part := 0, ctx := 5, gen := 6, gjd := wGjd, at_ := 0, started := false, segs := [], planned := false, needs := [],
    nextSeg := 0, nextOff := 0, flying := 0, got := [], rows := [], outDone := [], outBytes := 0, grains := 0, fetched := 0, hits := 0, oob := 0,
    status := 0, ended := false, paused := false }
def wGh (j : GatherJob) : State := wLive [] fun h => { wPut 0 (fun b => { b with ctx := wCtxWord, dmaQ := [wDe7] }) h with loft := { h.loft with gather := [(1, [j])] } }
def wJ1 := wJ id
def atGatherUnits3 := wGh wJ1
def wJ2 := wJ fun j => { j with started := true, planned := true, segs := [(4096, 8), (0,0), (0, 32), (32, 32)], needs := [(0, some 0), (1, some 1)], flying := 1, got := [(0, 0, List.replicate 8 0, false), (2, 0, List.replicate 32 5, false)] }
def atGatherUnits4 := wGh wJ2
def wJ3 := { wJ2 with rows := [(0, some (List.replicate 32 5, [false])), (1, some (List.replicate 32 5, [false]))], got := [(0, 0, List.replicate 8 0, false)] }
def atGatherUnits6 := wGh wJ3
def wJ4 := { wJ3 with outDone := [0, 1] }
def atGatherUnits8 := wGh wJ4
def wJ5 := { wJ3 with ended := true, status := 2 }
def atGatherUnits9 := wGh wJ5
def wNone : List (Option (List Byte × List Bool)) := (wJ3.rowsOf 0).getD []
def wBs (j : GatherJob) (k : Nat) : List Byte := ((j.seg k).getD ([], false)).1
def atDmaItems2 : Desc := descOf wD2
def atDmaItems5 : Desc := descOf wD2
def atGatherUnits2 : Desc := descOf (wBytes 32 [(0,1,7)])
def atGatherUnits5 : List Byte := wBs wJ2 2
def atGatherUnits7 : List Byte := wBs wJ2 0
def atMemoryUpkeep1 := wLive [(Reg.pantryScrub 0, 16)] (wPut 0 id)
def atMemoryUpkeep2 := wLive [] fun h => { h with loft := { h.loft with scrubs := [(0, ⟨1, some (0, [3])⟩)] } }
def atMemoryUpkeep3 := wLive [(Reg.pantryGranuleState 0, 0x20003)] id
def atMemoryUpkeep4 := wLive [(Reg.pantryGranuleState 0, 0x1)] fun h => { h with loft := { h.loft with granules := [1], clearing := [2] } }
def wFillC : CacheFill := ⟨3, 0, [], true, false⟩
def wInvC : CacheInv := ⟨0, none, none⟩
def wLine : CacheLine := ⟨0, 0, 1, 32, [], [], 0⟩
def atMemoryUpkeep5 := wLive [(Reg.loftWay 1, 0x100), (Reg.loftInvBase, 4096), (Reg.loftInvSize, 256)] fun h => { h with loft := { h.loft with fills := [wFillC], inv := [], lines := [wLine] } }
def atMemoryUpkeep6 := wLive [(Reg.loftInvStatus, 1)] fun h => { h with loft := { h.loft with inv := [wInvC] } }
def wD0 : List Byte := wBytes 32 [(0,1,0),(2,2,1),(4,4,64),(8,8,0x40)]
def wDe0 : DmaEntry := ⟨3, .desc wD0 false, 1, 0, true, 0, [], false, [], 0, false⟩
def wAtu (a : Atu → Atu) : State := wLive [] fun h => { wCaller (wQueue id) (wPut 0 (fun b => { b with ctx := wCtxWord, dmaQ := [wDe0] }) h) with atu := a h.atu }
def wNx (s : State) : Eff × Option Access := (Eff.start s.hw s.mem).next (.coreDma 0 3)
def wAcc : Access := (wNx (wAtu id)).2.getD { who := .coreDma 0 0 0, ctx := 0, gen := 0, part := 0, va := 0, bytes := 0, write := false }
def wLeaf : TbEntry := ⟨5, 6, 0, 0, 0x100000 + 5 + 2, 0⟩
def atAddressTranslation1 := wAtu fun a => { a with ports := [(portOf wAcc.va, { Port.idle with tb := [wLeaf] })] }
def atAddressTranslation4 := wAtu id
def wWalk0 : WalkRun := ⟨1, portOf wAcc.va, wAcc, 0, 0x20000, [], .reading⟩
def wRq : Req := ⟨0, 5, 6, false, false, 0x20000 + 8 * tableIndex 0 wAcc.va / 64 * 64, 64, 0, .walk 1, false, 0, 0, none, none⟩
def atAddressTranslation7 := wAtu fun a => { a with ports := [(0, { Port.idle with reqs := [wRq] })], walks := [wWalk0] }
def wBeat : List Byte := wBytes 64 [(8 * tableIndex 0 wAcc.va % 64, 8, 0x100000 + 7)]
def atAddressTranslation2 : Asker := .coreDma 0 3
def atAddressTranslation3 : Eff := (wNx atAddressTranslation1).1
def atAddressTranslation5 : Asker := .coreDma 0 3
def atAddressTranslation6 : Eff := (wNx atAddressTranslation4).1
def wR1 : Req := ⟨7, 5, 6, false, false, 0x20000, 64, 0, .engineDma 4 0, false, 0, 0, none, none⟩
def wR2 : Req := ⟨7, 5, 6, false, true, 0x20000, 64, 0, .coreDma 0 3 0, false, 0, 0, none, none⟩
def wEn : EngineDma := ⟨4, 0, wBytes 64 [(0,1,0),(2,2,1),(4,4,64),(16,8,4096)], some 0, 0, 0, 64, [], [], false, 0, false, false⟩
def wDw : DmaEntry := ⟨3, .desc (wBytes 32 [(0,1,1),(2,2,1),(4,4,64)]) false, 1, 0, true, 64, [], false, [], 0, false⟩
def wPr (r : Req) := wLive [] fun h => { wCaller (wQueue id) (wPut 0 (fun b => { b with ctx := wCtxWord, dmaQ := [wDw] }) h) with atu := { h.atu with ports := [(2, { Port.idle with reqs := [r] })], engineDma := [wEn] } }
def wOj : OwnJob := ⟨1, 6, 0, 5, 0, false, true, true, 0, [⟨0x20000, 64, List.replicate 64 1, [false,false]⟩], 0, 64, [], false, false, .record 0⟩
def wR3 : Req := ⟨7, 5, 6, false, true, 0x20000, 64, 0, .own 1 0, false, 0, 0x20000, some 12, none⟩
def atPortResponses1 := wPr wR1
def atPortResponses2 := wPr wR2
def atPortResponses3 := wLive [] fun h => { wCaller (wQueue id) h with atu := { h.atu with own := [wOj], ports := [(2, { Port.idle with reqs := [wR3] })] } }
def atPortResponses4 := atPortResponses1.withHw { atPortResponses1.hw with boot := { atPortResponses1.hw.boot with good := false } }
def wFr : FaultRec := ⟨5, 6, 0, 1, 1, 0, 0, 0, 64, 0, 0, 0, 0, 0, 1, none, Status.faultTranslation⟩
def wFa (xs : List (Nat × Word)) (f : Ctx → Ctx) (a : Atu → Atu) := wLive xs fun h => let h := wCaller (wQueue id) h
  { h with caller := { h.caller with ctxs := [(5, some (f wCtx))] }, atu := a h.atu }
def atFaultsAndInvalidation1 := wFa [(Reg.faultRingCtrl, 1 + 0x400), (Reg.faultRingBase, 0x10000), (Reg.faultTail, 0x3)] id fun a => { a with faults := [wFr] }
def atFaultsAndInvalidation2 := wFa [(Reg.faultRingCtrl, 1 + 0x400), (Reg.faultRingBase, 0x10000), (Reg.faultTail, 0x3), (Reg.fwCtrl, 1)] id fun a => { a with faults := [wFr] }
def atFaultsAndInvalidation3 := wFa [] (fun c => { c with pause := [wFr] }) id
def atFaultsAndInvalidation5 := wFa [] id id
def wTl : TbEntry := ⟨5, 6, 0, 0, 0x100000 + 5 + 2, 0⟩
def wInvT : TbInv := ⟨0, 5, 0, 0, []⟩
def atFaultsAndInvalidation6 := wFa [(Reg.tbInvSize, 4096)] id fun a => { a with ports := [(0, { Port.idle with tb := [wTl, { wTl with ctx := 6 }, { wTl with base := 1 }] })] }
def atFaultsAndInvalidation7 := wFa [(Reg.tbInvStatus, 1)] id fun a => { a with inv := some wInvT }
def atFaultsAndInvalidation4 : Ctx := { wCtx with pause := [wFr] }
def wLpi (fs : List (Nat × Nat × Nat)) (pay : List Byte) : List Byte :=
  let h := wBytes 30 ((12, 4, pay.length) :: fs)
  h ++ leBytes 2 (crc16 h).toNat ++ pay ++ List.replicate (16 * ceilDiv pay.length 16 - pay.length) 0 ++ leBytes 2 (crc16 pay).toNat ++ List.replicate 14 0
def wHd (ty f : Nat) : List Byte := let h := wBytes 30 [(0,1,ty),(4,4,f)]; h ++ leBytes 2 (crc16 h).toNat
def wSc : List (Nat × Word) := [(Reg.scCtrl 0, 1), (Reg.scGeom 0, 0x40004), (Reg.scRing 0, 0x1004)]
def wOpen (f : Word) (pos : Nat) : List (Nat × Word) := [(gateReg 0 1, BitVec.ofNat 32 (2 ^ 16 + pos)), (gateReg 0 1 + 4, f)]
def atLpiPackets1 := wLive wSc id
def atLpiPackets3 := wLive (wSc ++ wOpen 7 0) id
def atLpiPackets6 : List Byte := wLpi [(0,1,1),(4,4,7),(8,4,2)] [1,2,3,4]
def atLpiPackets7 : List Byte := atLpiPackets6.set 1 9
def atLpiPackets8 := wLive [] id
def atLpiPackets9 := wLive [(Reg.scCtrl 0, 9), (Reg.scGeom 0, 4 * 2 ^ 16 + 4)] id
def wMeta : LineMeta := ⟨0, 7, stGood, 0, 4, 0, 0, 0⟩
def wStr (r : StreamRun → StreamRun) (xs : List (Nat × Word)) : State := wLive ([(Reg.scCtrl 0, (33 : Word)), (Reg.scGeom 0, 0x40004), (Reg.scRing 0, 0x1004)] ++ wOpen 7 0 ++ xs) fun h => h.setStream 0 (r StreamRun.start)
def atStreamPositions1 := wStr (fun r => { r with pend := [wMeta], highest := some 0 }) []
def atStreamPositions2 := { wStr id [(Reg.scLinePeriod 0, 5)] with mem := Memory.empty }
def atStreamPositions2' := atStreamPositions2.withHw (atStreamPositions2.hw.updDealer fun d => { d with time := 100 * 2 ^ 32 })
def wSum (bs : List Byte) : Nat := 0xFFFF - onesSum bs
def wIp (n : Nat) : List Byte := let h := beBytes 2 0x4500 ++ beBytes 2 (28 + n) ++ beBytes 4 0 ++ [64, 17, 0, 0] ++ beBytes 4 0x0A000001 ++ beBytes 4 0x0A000002
  (h.take 10) ++ beBytes 2 (wSum h) ++ h.drop 12
def wUdp : List Byte := List.replicate 12 0 ++ beBytes 2 0x0800 ++ wIp 4 ++ beBytes 2 1 ++ beBytes 2 2 ++ beBytes 2 12 ++ beBytes 2 0 ++ [0, 0, 0, 5]
def wDg : Datagram := ⟨false, none, 0x0A000001, 1, 2, true, [0,0,0,5]⟩
def atStreamPositions3 := wLive [(Reg.lnkStatus 0, 15), (Reg.frCtrl 0 3, 256), (Reg.frPorts 0 3, 2), (Reg.scCtrl 0, 1 + 4 + 8), (Reg.scGeom 0, 0x40004), (Reg.scRing 0, 0x1004)] id
def atStreamPositions4 := wLive [(Reg.lnkStatus 0, 15), (Reg.frCtrl 0 3, 256), (Reg.frPorts 0 3, 2)] id
def atLpiPackets10 : State := wLive wSc fun h => h.setStream 0 { StreamRun.start with pend := [⟨0, 7, stGood, 0, 4, 0, 0, 16384⟩] }
def atLpiPackets2 : List Byte := wHd 2 7
def atLpiPackets4 : List Byte := wHd 2 7
def atLpiPackets5 : List Byte := wHd 3 7
def atQueueSimpleCommands9 := wLive [(Reg.scOwner 7, 5), (Reg.scGate1 7, 3)] (wCaller (wQueue id))
def wG : Frame := ⟨some (0x40, 4), 1, 0, some 0⟩
def wQr := wQueue fun q => { q with frames := [wG, wF] }
def atQueueControlCommands4 := wLive [] fun h => let h := wCaller wQr h; { h with caller := { h.caller with items := [wIt] } }
def atQueueSimpleCommands2 : List Byte := wCmd 1 []
def atQueueSimpleCommands3 : List Byte := wCmd 4 [(16,8,64),(24,8,5)]
def atQueueSimpleCommands4 : List Byte := wCmd 14 [(16,8,64)]
def atQueueSimpleCommands5 : List Byte := wCmd 3 [(16,8,64),(24,8,5)]
def atQueueSimpleCommands6 : List Byte := leBytes 8 5
def atQueueSimpleCommands7 : List Byte := wCmd 3 [(16,8,64),(24,8,5)]
def atQueueSimpleCommands8 : List Byte := leBytes 8 4
def atQueueSimpleCommands10 : List Byte := wCmd 5 [(16,1,7),(17,1,1),(20,4,3)]
def atQueueSimpleCommands11 : List Byte := wCmd 5 [(16,1,7),(17,1,1),(20,4,4)]
def atQueueControlCommands1 : List Byte := wCmd 6 [(16,8,64),(24,8,5),(32,8,0xFF),(40,1,0),(42,2,3)]
def atQueueControlCommands2 : List Byte := wCmd 7 [(24,4,2),(28,2,3)]
def atQueueControlCommands3 : List Byte := wCmd 8 [(16,8,64),(24,4,2)]
def atQueueControlCommands5 : List Byte := wCmd 9 []
def wKd : List Byte := wBytes 64 [(0,8,0x1000),(8,2,2),(10,2,1),(12,4,64)]
def wLa : List Byte := wBytes 64 [(0,1,2),(1,1,1),(2,1,2),(8,8,77),(16,8,0x40)]
def wLh (f : LoftHatch → LoftHatch) : State := wLive [(Reg.loftWay 0, 0)] fun h => let h := wCaller (wQueue id) h
  { h with loft := { h.loft with hatches := [(3, f LoftHatch.closed)], lines := [] } }
def atQueueDispatchCommands1 := wLh id
def atQueueDispatchCommands6 := wLh fun x => { x with isOpen := true, ctx := 5, senders := 3 }
def wBd : List Byte := wBytes 64 [(0,8,0x1000),(8,4,1),(12,2,64),(14,2,16),(16,8,0x2000),(24,4,2),(28,4,3),(32,8,0x3000),(40,2,4)]
def wTab : List Byte := wBytes 16 [(0,4,1),(4,4,4),(8,4,0),(12,4,2)]
def wBa : Batch := ⟨0, 0x1000, 64, 16, 0x2000, 2, 1, 0x3000, 4, [⟨1, 4, 0, 2⟩], 0, 0, [⟨0, 0, 0, 4, false⟩], none, 0⟩
def wQb := wQueue fun q => { q with hold := some .batch, batch := [wBa] }
def atBatchesAndPolls2 := wLive [] fun h => let h := wCaller wQb h; { h with caller := { h.caller with items := [{ wIt with state := .waiting }] } }
def wQf := wQueue fun q => { q with hold := some (.fence 64 5), holdItem := some 0 }
def atBatchesAndPolls4 := wLive [] fun h => let h := wCaller wQf h; { h with caller := { h.caller with items := [{ wIt with state := .waiting }] } }
def wQw := wQueue fun q => { q with hold := some .write, batch := [wBa] }
def atBatchesAndPolls7 := wLive [] fun h => let h := wCaller wQw h; { h with caller := { h.caller with items := [{ wIt with state := .waiting }] } }
def atQueueDispatchCommands2 : List Byte := List.replicate 64 0
def atQueueDispatchCommands3 : List Byte := wCmd 10 [(16,8,0x40)]
def atQueueDispatchCommands4 : List Byte := wCmd 11 []
def atQueueDispatchCommands5 : List Byte := wCmd 12 [(16,1,3),(20,4,0),(24,4,8),(32,8,3)]
def atQueueDispatchCommands7 : List Byte := wCmd 13 [(16,1,3)]
def atBatchesAndPolls1 : List Byte := wCmd 15 [(16,8,64)]
def atBatchesAndPolls3 : Item := { wIt with state := .waiting }
def atBatchesAndPolls6 : List Byte := leBytes 8 5
def atBatchesAndPolls5 : Item := { wIt with state := .waiting }
def atQueueDispatchCommands8 : List Byte := wCmd 11 [(16,8,0x80),(24,8,0x100),(32,1,1)]
def wCd : List Byte := wBytes 64 [(0,2,6),(8,8,0x10001)]
def wQd : List Byte := wBytes 64 [(0,2,1),(2,2,5),(4,1,0),(5,1,1),(6,1,3),(7,1,0),(16,1,4),(17,1,4),(24,8,0x2000),(32,8,0x3000)]
def wAd (arg : Word) (q : Queue) (f : Hw → Hw) := wLive [(Reg.adminArg0, arg)] fun h => f (wCaller q h)
def atAdminOperations1 := wAd 0x1000 wQ id
def atAdminOperations3 := wAd 5 wQ fun h => { h with caller := { h.caller with queues := [] } }
def atAdminOperations4 := wAd 0 wQ id
def atAdminOperations5 := wAd 5 wQ fun h => { h with caller := { h.caller with items := [wIt] } }
def atAdminOperations6 := wLive [(Reg.adminStatus, 0x80000000)] id
def atDoorbells1 := wAd 0 wQ fun h => { h with caller := { h.caller with ctxs := [(5, some { wCtx with slot := none })] } }
def wQ2 := wQueue fun q => { q with recTail := 5, recHead := 2 }
def atDoorbells3 := wAd 0 wQ2 id
def wJob0 : LaunchJob := ⟨0, 5, 0, 1, 0, [], [], 0x1000, 2, 1, 64, none, 0, 0⟩
def wKern (f : Kernel → Kernel) : Kernel := f { job := wJob0, gen := 6, pbase := 0, kind := .plain, phase := 0, detm := false, restoreDue := false, restored := false, loaded := true, tricks0 := [], started := 0, startEpoch := 0, jobsCancelled := false, age := 0, stalled := 0, snaps := [] }
def wKe (launch : List LaunchJob) (k : Option Kernel) (keep : PartKeep) (f : Hw → Hw) : State := wLive [] fun h => let h := wPut 0 id (wPut 1 id (wCaller wQ h))
  f { h with safety := { h.safety with passed := [0, 1] }, caller := { h.caller with items := [wIt], launches := launch, kernels := [(0, k)], keep := [(0, keep)] } }
def atKernels1 := wKe [wJob0] none PartKeep.none id
def atKernels2 := wKe [] (some (wKern id)) { PartKeep.none with lastCtx := some 6, carries := [(0, 1)] } fun h => { h with caller := { h.caller with ctxs := [(5, some wCtx), (6, some { wCtx with cellarBase := 256, cellarStride := 4096 })] } }
def wK1 := wKern fun k => { k with phase := 1, restoreDue := true }
def atKernels4 := wKe [] (some wK1) PartKeep.none id
def wK3 := wKern fun k => { k with phase := 2 }
def wCoreEnd (b : CoreBody) : CoreBody := { b with run := .idle, ctx := wCtxWord }
def atKernels5 := wKe [] (some wK3) PartKeep.none fun h => wPut 0 wCoreEnd (wPut 1 wCoreEnd h)
def wPri : Primary := { id := 1, part := 1, job := { wJob0 with part := 1, kflags := 2 }, epoch := 0, ended := true, windows := [], copy := none, copyTrapped := none, doneEpoch := 0, phys := [2, 3], copyPhys := [], detm := true }
def wCode : List (BitVec 128 × Bool) := [(3, false), (4, false)]
def atKernels6 : State := wLive [(Reg.redealPair 1, 0x80000000)] fun h => let h := wPut 0 id (wPut 1 id (wCaller wQ h))
  { h with safety := { h.safety with passed := [0, 1] }, caller := { h.caller with items := [wIt], primaries := [wPri] } }
def wKc := wKern fun k => { k with cleared := true }
def wKr := wKern fun k => { k with cleared := true, restoreDue := true }
def atKernels7 := wKe [] (some (wKern id)) { PartKeep.none with lastCtx := some 6, lo := 0, hi := 1 } id
def atKernels9 := wKe [] (some wKr) PartKeep.none id
def atKernels10 := wKe [] (some wKc) PartKeep.none id
def atAdminOperations2 : List Byte := wCd.set 0 5
def atAdminOperations7 : Instr := .ctxCreate (.data wCd)
def atDoorbells2 : Ctx := { wCtx with slot := none }
def atKernels3 : Ctx := { wCtx with cellarBase := 256, cellarStride := 4096 }
def atKernels8 : Kernel := wKern id
def wDone : Item := { wIt with state := .done }
def wRq2 (q : Queue) (it : List Item) (due : List Nat) : State := wLive [] fun h => let h := wCaller q h; { h with caller := { h.caller with items := it, planDue := due } }
def atRecordsAndPlans1 := wRq2 wQ [wDone] []
def wQfull := wQueue fun q => { q with recTail := 16 }
def atRecordsAndPlans2 := wRq2 wQfull [wDone] []
def wQp := wQueue fun q => { q with plan := some (0x40, 4, 1), frames := [] }
def atRecordsAndPlans3 := wRq2 wQp [] [0]
def wQp2 := wQueue fun q => { q with plan := some (0x40, 4, 1) }
def atRecordsAndPlans4 := wRq2 wQp2 [] [0]
def wPw_16 (xs : List (Nat × Word)) (f : Power → Power) : State := wLive xs fun h => wPut 0 id { h with power := f h.power }
def atOperatingPoints5 : State := (wPw_16 [] fun p => { p with hand := .asked, goal := .raise 7, since := 0 }).withHw ((wPw_16 [] fun p => { p with hand := .asked, goal := .raise 7, since := 0 }).hw.updDealer fun d => { d with elapsed := 1000000 * 2 ^ 32 })
def wOj_16 : OwnJob := ⟨1, 5, 0, 5, 0, false, true, true, 0, [⟨0x20000, 32, List.replicate 32 1, [false]⟩], 0, 32, [], false, false, .record 0⟩
def atRecordsAndPlans5 : State := atRecordsAndPlans1.withHw { atRecordsAndPlans1.hw with atu := { atRecordsAndPlans1.hw.atu with own := [wOj_16] } }
def atOperatingPoints1 : State := wPw_16 [(Reg.pwrStatus, 3)] id
def atOperatingPoints2 : State := wPw_16 [] fun p => { p with hand := .asked, goal := .raise 7, since := 0 }
def atOperatingPoints3 : State := wPw_16 [] fun p => { p with hand := .acked, goal := .raise 7, since := 0 }
def atOperatingPoints4 : State := wPw_16 [(Reg.pwrOpReq, 3), (Reg.pwrStatus, 0x700)] id
def wTh (xs : List (Nat × Word)) (f : Power → Power) : State := wLive xs fun h => wPut 0 id (wPut 1 id { h with power := f h.power })
def wT17 (v : BitVec 16) : List (BitVec 16) := List.replicate 17 v
def atPowerMeasurements1 := wTh [] id
def atPowerMeasurements3 := wTh [(Reg.pwrVid 0, 0xA28), (Reg.pwrStatus, 0x700), (Reg.pwrCtrl, 1)] fun p => { p with bubbles := [(0, 7)] }
def atDomainsComeUp1 := wLive [] fun h => { h with power := { h.power with rising := [2, 68, 103, 116, 127] } }
def atPowerMeasurements2 : List (BitVec 16) := wT17 (16 * 125)
def wDl (xs : List (Nat × Word)) (f : Dealer → Dealer) : State := wLive xs fun h => { h with dealer := f h.dealer }
def atDealerAdjustments1 := wDl [] id
def atDealerAdjustments2 := wDl [] fun d => { d with adjust := [.step (-3)], time := 5 * 2 ^ 32 }
def atDealerAdjustments3 := wDl [(Reg.loadNs, 1000000000)] id
def atDealerEvents1 := wDl [] fun d => { d with running := false, sealValid := true }
def wPu : Pulse := ⟨0, 100⟩
def atDealerEvents2 := wDl [] fun d => { d with ppsDue := true, pulses := [(2, [wPu])], gens := [(0, { EpochGen.off with running := true, next := 0, period := 100 })] }
def atDealerSeal1 := wDl [(Reg.dlrStatus, 1)] id
def atDealerSeal2 := wDl [(Reg.dlrStatus, 0)] id
def atDealerSeal3 := wDl [(Reg.dlrStatus, 1)] fun d => { d with refused := some (0, 1, 0x118), elapsed := 2 * unitSec, ledger := [List.replicate 32 0], ledgerSeq := 1 }
def atDealerSeal5 := wDl [(Reg.dlrStatus, 0)] fun d => { d with unsealAt := some 0, elapsed := 10 ^ 13 * 2 ^ 32 }
def atDealerEvents3 := wDl [] fun d => { d with gens := [(0, { EpochGen.off with running := true, next := 0, period := 143165576533333333 })] }
def atDealerSeal4 : List Byte := List.replicate 32 0
def wFrame (ty : Nat) (n : Nat) : List Byte := List.replicate 6 0xFF ++ List.replicate 6 2 ++ beBytes 2 ty ++ List.replicate (n - 14) 0
def wLk (xs : List (Nat × Word)) (f : LinkPort → LinkPort) : State :=
  wLive ([(Reg.lnkStatus 0, (15 : Word)), (Reg.lnkCtrl 0, 8), (Reg.lnkHostctx 0, 5)] ++ xs) fun h => (wCaller wQ h).updLink 0 f
def atLinkFrames1 := wLk [] id
def wBuf : List Byte := wBytes 32 [(0,8,0x4000),(8,2,128)]
def wTxd : List Byte := wBytes 32 [(0,8,0x4000),(8,2,60)]
def wTxz : List Byte := wBytes 32 [(0,8,0x4000),(8,2,0)]
def wTf : TxFrame := ⟨.htp, List.replicate 14 1⟩
def atLinkFrames5 := wLk [(Reg.lnkCtrl 0, 8 + 64)] id
def atLinkFrames8 := wLk [(Reg.rxrCtrl 0, 1 + 0x40), (Reg.rxrTail 0, 4), (Reg.rxrBase 0, 0x8000), (Reg.txrCtrl 0 2, 1 + 0x40), (Reg.txrTail 0 2, 4)] id
def atLinkFrames12 := wLk [] fun l => { l with queues := [(3, [wTf])] }
def atLinkFrames2 : List Byte := wFrame 0x1234 59
def atLinkFrames3 : List Byte := wFrame 0x8808 60
def atLinkFrames4 : List Byte := (wFrame 0x1234 60).set 0 0xFE
def atLinkFrames6 : List Byte := asMulticast ++ (wFrame 0x88F7 60).drop 6
def atLinkFrames7 : List Byte := wFrame 0x1234 60
def atLinkFrames9 : List Byte := wFrame 0x1234 60
def atLinkFrames10 : List MemAnswer := [.data wBuf]
def atLinkFrames11 : List Byte := List.replicate 60 9
def wGl : GateList := ⟨[(10, 255), (20, 1)], 100 * 2 ^ 32, 0, 0, 0, 0, none⟩
def wPt (type flags : Nat) : List Byte := [BitVec.ofNat 8 (0x10 + type), 0x12] ++ beBytes 2 54 ++ [0, 0] ++ beBytes 2 flags ++ List.replicate 8 0 ++ List.replicate 14 0 ++ beBytes 2 7 ++ [0, 0] ++ beBytes 10 5 ++ List.replicate 10 0
def wHf : HeldFrame := ⟨List.replicate 60 1, 3, 0, 0, true⟩
def atLinkAgents1 := wLk [(Reg.lnkCtrl 0, 8 + 32), (Reg.dlrStatus, 0)] fun l => { l with gclNext := some wGl, asIn := [(wPt 2 0, 5)] }
def atLinkAgents3 := wLk [(Reg.lnkCtrl 0, 8 + 64)] fun l => { l with gcl := some wGl, asIn := [(wPt 0 0, 5)] }
def w24c := wLk [(Reg.lnkCtrl 0, 8 + 32), (Reg.dlrStatus, 2)] fun l => { l with gcl := some { wGl with entry := 1 }, asIn := [(wPt 2 0, 5)], held := [(0, [wHf])] }
def atLinkAgents5 : State := w24c.withHw (w24c.hw.updDealer fun d => { d with elapsed := 100000 * 2 ^ 32 })
def atLinkAgents2 : List Byte := wPt 2 0
def atLinkAgents4 : List Byte := wPt 0 0
def wHf2 (type sess : Nat) (fs : List (Nat × Nat × Nat)) : List Byte := wBytes 96 ([(0,1,0x10 + type),(1,1,sess)] ++ fs)
def wPa (xs : List (Nat × Word)) (f : Partner → Partner) : State :=
  wLive ([(Reg.lnkStatus 0, (15 : Word)), (Reg.peerCtrl 2, 1), (Reg.ptnCfg, 0x20000)] ++ xs) fun h => { wPut 0 id (wPut 1 id h) with partner := f h.partner }
def wHx : HtpFrame := ⟨HtpType.data, 5, 1, [], [], []⟩
def wPo : PieceOut := ⟨0, 19, some 2, 9, 5, 6⟩
def wInb (b : List Byte) (xs : List (Nat × Word)) := wPa xs fun p => { p with inbox := [b], unacked := [wHx] , path := some 2}
def wB0 := wHf2 0 9 []
def atPartnerSession1 := wInb wB0 []
def wB1 := wHf2 1 3 []
def atPartnerSession2 := wInb wB1 [(Reg.ptnStatus, 0x310)]
def wB2 := wHf2 2 3 [(8,4,6)]
def atPartnerSession3 := wInb wB2 [(Reg.ptnStatus, 0x320)]
def atPartnerSession4 := wPa [(Reg.ptnStatus, 0x320)] fun p => { p with ackDue := true, path := some 2 }
def atPartnerSession5 := wEl 100000000 (wPa [(Reg.ptnStatus, 0x320), (Reg.htpRto, 100), (Reg.htpRetry, 3)] fun p => { p with path := some 2, unacked := [wHx], timer := some 0, retries := 1 })
def atPartnerSession6 := wEl 100000000 (wPa [(Reg.ptnStatus, 0x320), (Reg.htpRto, 100), (Reg.htpRetry, 3)] fun p => { p with path := some 2, unacked := [wHx], timer := some 0, retries := 2 })
def wB3 := wHf2 3 3 [(4,4,1),(14,1,2),(12,2,64)]
def atPartnerSession7 := wInb wB3 [(Reg.ptnStatus, 0x320)]
def wB4 := wHf2 4 3 [(4,4,1),(14,1,1),(16,4,5),(32,2,0x40)]
def atPartnerSession8 := wPa [(Reg.ptnStatus, 0x320)] fun p => { p with path := some 2, inbox := [wB4], pieces := [(5, [wPo])] }
def wB5 (op : Nat) := wHf2 5 3 [(4,4,1),(16,1,op),(17,1,0),(18,1,3),(19,1,1)]
def atPartnerSession9 := wInb (wB5 0) [(Reg.ptnStatus, 0x320)]
def wB6 := wHf2 6 3 [(4,4,1),(17,1,0),(18,1,3),(19,1,1)]
def atPartnerSession11 : State := (wInb wB6 [(Reg.ptnStatus, 0x320)]).withHw (wPut 0 (fun b => { b with hatches := [(3, ⟨true, 64, 16, true, 4, 1, 0, true, [64]⟩)] }) (wInb wB6 [(Reg.ptnStatus, 0x320)]).hw)
def atPartnerSession10 : List Byte := wB5 0
def wFr_22 (b : List Byte) (xs : List (Nat × Word)) (f : Partner → Partner) := wPa ([(Reg.ptnStatus, (0x322 : Word))] ++ xs) fun p => f { p with inbox := [b], path := some 2 }
def wEnt : List Byte := wBytes 32 [(0,1,0),(4,4,64),(8,8,0x100),(16,8,0x1000),(24,8,0x2000)]
def wMe : MirrorEntry := ⟨0, 64, 0x100, 0x1000, 0x2000⟩
def wCu : CutRun := ⟨0, 3, 0, some 5, [(0, 7)], none⟩
def wPp : Proposal := ⟨4, 2, 10 ^ 9, false, true, false, false⟩
def wB9 := wHf2 9 3 [(32,4,100),(37,1,1)]
def wB7 := wHf2 7 3 [(12,2,64),(16,4,5),(20,2,0)]
def atPartnerFrames2 := wFr_22 wB7 [(Reg.mirrorCount, 1)] id
def wMd : List Byte := List.replicate 64 3
def wB8 := wHf2 8 3 [(16,4,5),(20,4,1),(24,4,64),(28,4,(crc32 wMd).toNat)]
def atPartnerFrames3 := wFr_22 wB8 [(Reg.mirrorCount, 1)] fun p => { p with mirrorIn := some (5, [(0, 64)], wMd, false) }
def wB10 := wHf2 10 3 [(16,1,0),(17,1,3),(20,4,7),(24,8,1)]
def atPartnerFrames5 := wFr_22 wB10 [] id
def wCutH (xs : List (Nat × Word)) : State := wLive xs fun h => { wPut 0 (fun b => { b with cut := some ⟨3, true, 0, none⟩ }) (wPut 1 (fun b => { b with cut := some ⟨3, true, 0, none⟩ }) h) with partner := { h.partner with cuts := [wCu] } }
def atPartnerFrames6 := wEl 1 (wCutH [(Reg.cutLead, 0)]) |> fun s => s.withHw (s.hw.updDealer fun d => { d with time := 8 })
def atPartnerFrames7 := wCutH [(Reg.cutLead, 100)]
def wB11 (k : Nat) := wHf2 11 3 [(16,1,k),(17,1,2),(20,4,4),(24,8,10^9)]
def wOx (k : Nat) (role : Word) : State := let s := wFr_22 (wB11 k) [(Reg.ptnStatus, 0x320 + role)] id
  s.withHw { s.hw with power := { s.hw.power with proposal := some wPp } }
def wB11' := wHf2 11 3 [(16,1,1),(17,1,0),(20,4,4),(24,8,10^9)]
def atPartnerFrames18 := wFr_22 wB11' [] id
def atPartnerFrames1 : State := wFr_22 wB9 [] id
def atPartnerFrames4 : List (Nat × Nat) := [(0, 64)]
def atPartnerFrames8 : State := wOx 0 2
def atPartnerFrames9 : List Byte := wB11 0
def atPartnerFrames10 : State := wOx 2 2
def atPartnerFrames11 : List Byte := wB11 2
def atPartnerFrames12 : State := wOx 2 1
def atPartnerFrames13 : List Byte := wB11 2
def atPartnerFrames14 : State := wOx 3 2
def atPartnerFrames15 : List Byte := wB11 3
def atPartnerFrames16 : State := wOx 4 2
def atPartnerFrames17 : List Byte := wB11 4
def wSa (xs : List (Nat × Word)) (f : Safety → Safety) : State := wLive xs fun h => wPut 0 id { h with safety := f h.safety }
def wPri2 : Primary := { id := 1, part := 0, job := ⟨0, 5, 0, 1, 0, [], [], 0x1000, 2, 1, 64, none, 0, 2⟩, epoch := 0, ended := true, windows := [], copy := some [], copyTrapped := none, doneEpoch := 0, phys := [0], copyPhys := [2], detm := true }
def wVr : VerdictRun := ⟨0, 3, 0, false, none, false⟩
def wRec : List Byte := List.replicate 32 1
def atSafetyMonitor1 := wSa [(Reg.smInjCtrl, 0x80000000)] fun x => { x with jkBase := some 0, jkCores := [0] }
def atSafetyMonitor1' := wEl 10000000000 atSafetyMonitor1
def atSafetyMonitor2 := wSa [] fun x => { x with joker := [(0, { JokerRun.start with begun := 1, running := some (0, 0) })] }
def atSafetyMonitor3 : State := atSafetyMonitor1.withHw { atSafetyMonitor1.hw with caller := { atSafetyMonitor1.hw.caller with primaries := [wPri2] } }
def atSafetyMonitor4 := wSa [((safetyRing true).2.1, 1 + 0x100), ((safetyRing false).2.1, 1 + 0x100), (Reg.smStatus, 0x40000000)] fun x => { x with verdictWait := [wRec], ageWait := [wRec], verdicts := [wVr], safe0 := true }
def atSafetyMonitor5 := wSa [(Reg.smStatus, 0x80000000)] fun x => { x with verdicts := [wVr] }
def wCo2 (xs : List (Nat × Word)) (f : Coffer → Coffer) : State := wLive xs fun h => { h with coffer := f h.coffer }
def wSs : StoreSession := ⟨0, false, 1, 5000, []⟩
def atCofferStores1 := wCo2 [(Reg.cofStoreLen, 5000)] id
def atCofferStores2 := wCo2 [] fun c => { c with session := some wSs }
def wSs2 : StoreSession := ⟨0, false, 1, 100, [0]⟩
def atCofferStores3 := wCo2 [] fun c => { c with session := some wSs2 }
def atCofferStores4 := wCo2 [] fun c => { c with due := [2] }
def wCapt (due : Bool) (regs : Tbl Word) : Captured := ⟨regs, none, 0, due⟩
def atCommitProtocol1 := wLive [] id
def atCommitProtocol2 := wLive [(Reg.commitStatus, 0x80000000)] fun h => { h with captured := some (wCapt true []) }
def wGoodC : Captured := wCapt true [(Reg.partCtrl 0, 1), (Reg.partCore 0, 3)]
def atCommitProtocol4 := wLive [(Reg.commitStatus, 0x80000000)] fun h => { h with captured := some wGoodC }
def atCommitProtocol3 : Captured := wCapt true []
def atActiveCopy1 : CopyShown := some (1, 5)
def atActiveCopy3 : CopyShown := some (2, 6)
def atActiveCopy2 : Nat × Nat := (1, 5)
def atActiveCopy4 : Nat × Nat := (2, 6)
def atActiveCopy5 : CopyShown := some (1, 5)
def atActiveCopy6 : Nat × Nat := (1, 5)
def atActiveCopy7 : CopyShown := some (1, 6)
def atActiveCopy8 : Nat × Nat := (1, 6)
def wRs (f : CtxReset → CtxReset) : CtxReset := f { seq := 1, ctx := 5, status := Status.contextReset, cause := 0, clears := [], genDone := false, ended := false, part := 0 }
def wRr (rs : List CtxReset) (xs : List (Nat × Word)) (f : Boot → Boot) : State := wLive xs fun h => let h := wPut 0 id (wPut 1 id (wCaller wQ h))
  { h with caller := { h.caller with resets := rs }, boot := f h.boot }
def wR0 := wRs id
def atResetsAndRetirement1 := wRr [] [(Reg.rstStatus, 0x80000000)] id
def atResetsAndRetirement2 := wRr [] [] id
def atResetsAndRetirement3 := wRr [wR0] [(Reg.rstStatus, 0x80000000)] id
def atResetsAndRetirement4 : State := atResetsAndRetirement3.withHw { atResetsAndRetirement3.hw with atu := { atResetsAndRetirement3.hw.atu with ports := [(0, { Port.idle with reqs := [⟨1, 5, 7, false, false, 0, 64, 0, .coreDma 0 0 0, true, 0, 0, none, none⟩] })] } }
def atResetsAndRetirement5 := wRr [] [] fun b => { b with retiring := [(0, 1)], kittyFree := [64, 65] }
def atResetsAndRetirement6 := wRr [] [] fun b => { b with leaving := [(0, 1)], kittyFree := [64, 65] }
def atResetsAndRetirement7 := wRr [] [] fun b => { b with leaving := [(0, 1)], kittyFree := [] }
def wBo (xs : List (Nat × Word)) (f : Boot → Boot) : State := wLive xs fun h => let h := wPut 0 id h; { h with boot := f h.boot }
def atBootAndEngineReset1 := wBo [] id
def wPh (n : Nat) (low : Bool) := wBo [(Reg.cofStatus, 0)] fun b => { b with rstPhase := some n, engLow := low }
def atBootAndEngineReset6 := wBo [(Reg.lfcStatus, 0xC001FFFF)] fun b => { b with rstPhase := some 5 }
def wBp (n : Nat) (xs : List (Nat × Word)) := wBo xs fun b => { b with phase := some n }
def wTbl : List Byte := wBytes 192 [(0,4,1)]
def wIm (again : Bool) : State := wBo [(Reg.cofKindState 4, 1)] fun b => { b with phase := some 4, bci := [8, 0], copies := [⟨4, false, 1, 0, wTbl⟩], again := again }
def atBootAndEngineReset2 : State := wPh 1 false
def atBootAndEngineReset3 : State := wPh 2 false
def atBootAndEngineReset4 : State := wPh 3 true
def atBootAndEngineReset5 : State := wPh 3 false
def atBootAndEngineReset7 : State := wPh 5 false
def atBootAndEngineReset8 : State := wBp 1 []
def atBootAndEngineReset9 : State := wBp 2 [(Reg.lfcStatus, 0xC001FFFF)]
def atBootAndEngineReset10 : State := wBp 4 [(Reg.lfcStatus, 0xC001FFFF)]
def atBootAndEngineReset11 : State := wIm false
def atBootAndEngineReset12 : State := wIm true
def wPo2 (xs : List (Nat × Word)) (f : Boot → Boot) : State := wLive xs fun h => let h := wPut 0 id h; { h with boot := f h.boot }
def atPinsAndPower1 := State.reset
def atPinsAndPower2 := wPo2 [] fun b => { b with good := false }
def atPinsAndPower3 := wPo2 [] id
def atPinsAndPower4 := wPo2 [] fun b => { b with held := true, engLow := true, rstPhase := some 3 }
def atPinsAndPower5 := wPo2 [(Reg.engStatus0, 64)] fun b => { b with engLow := true }
def atPinsAndPower6 := wPo2 [] fun b => { b with testEn := true }
def wRow_27 (o : Nat) : RegRow := (regRow o).getD ⟨0, 0, 0, .none, 0, 0, {}⟩
def atReservedOffsetsAndPairs1 := wLive [] id
def wLoOff : Nat := Reg.adminArg0
def atAbiRequestWithQueues1 := wLive [] (wCaller wQ)
def atRegisterWrites1 := wLive [(Reg.irqPend, 32)] id
def atPinsAndPower7 := wPo2 [] fun b => { b with testEn := true, wir := 4, segments := [5], held := true }
def atPinsAndPower8 := wPo2 [] fun b => { b with testEn := true, wir := 4, segments := [5] }
def atReservedOffsetsAndPairs2 : RegRow := (wRow_27 wLoOff)
def atReservedOffsetsAndPairs3 : RegRow := (wRow_27 (wLoOff + 4))

/-! ### Results known from outside the model -/

/-- The customary check input of a CRC. -/
def nineDigits : List Byte := [0x31, 0x32, 0x33, 0x34, 0x35, 0x36, 0x37, 0x38, 0x39]

-- The published check values of CRC-32/ISO-HDLC, CRC-16/IBM-3740 and CRC-64/XZ, whose parameters R277, R601 and the Coffer name.
theorem test_crc32 : crc32 nineDigits = 0xCBF43926 := by decide +kernel
theorem test_crc16 : crc16 nineDigits = 0x29B1 := by decide +kernel
theorem test_crc64 : crc64 nineDigits = 0x995DC9BBDF1939FA := by decide +kernel

-- FIPS 180-4, the digest of "abc".
theorem test_sha256 : (sha256 [0x61, 0x62, 0x63]).take 4 = [0xBA, 0x78, 0x16, 0xBF] := by decide +kernel

-- FP32 sums by hand: 1.5 + 2.25; ties go to even (R91).
theorem test_f32_sum : (laneAdd .f32 0x3FC00000 0x40100000).1 = 0x40700000 := by decide +kernel
theorem test_f32_tie_down : (laneAdd .f32 0x3F800000 0x33800000).1 = 0x3F800000 := by decide +kernel
theorem test_f32_tie_up : (laneAdd .f32 0x3F800001 0x33800000).1 = 0x3F800002 := by decide +kernel
-- Saturating and wrapping INT32 lanes (R201).
theorem test_sat_sum : (laneAdd .sat 0x7FFFFFFF 1).1 = 0x7FFFFFFF := by decide +kernel
theorem test_wrap_sum : (laneAdd .wrap 0x7FFFFFFF 1).1 = 0x80000000 := by decide +kernel
-- INT8: -128 times -128 lands in the accumulator; a scale of 255 poisons (R73, R74).
theorem test_mac_int8 : (mac Acc.zero (decodeElem 0 0x80) (decodeElem 0 0x80) 127 127 0).1 = ⟨16384, false⟩ := by decide +kernel
theorem test_mac_scale_nan : (mac Acc.zero (decodeElem 0 1) (decodeElem 0 1) 255 127 0).1.poison = true := by decide +kernel

/-! ### One step -/

/-- The state after a command; the state itself where it stops. -/
def after (c : Instr) (s : State) : State :=
  match exec c s with
  | .next t => t
  | _ => s

/-- Slot 0 of core 0 comes next, with two registers. -/
def twoRegs (x y : Word) : State := wSlot 0 fun b => { b with s := [(1, x), (2, y)] }

theorem test_add_wraps : ((after (.add 0 3 1 2) (twoRegs 0xFFFFFFFF 1)).sofar 0).sr 3 = 0 := by decide +kernel
theorem test_s0_discards : ((after (.add 0 0 1 2) (twoRegs 2 1)).sofar 0).sr 0 = 0 := by decide +kernel
theorem test_sra_sign : ((after (.sra 0 3 1 2) (twoRegs 0x80000000 31)).sofar 0).sr 3 = 0xFFFFFFFF := by decide +kernel
theorem test_shl_low_bits : ((after (.shl 0 3 1 2) (twoRegs 5 32)).sofar 0).sr 3 = 5 := by decide +kernel
theorem test_addi_sign_extends : ((after (.addi 0 3 1 0x3FFF) (twoRegs 5 0)).sofar 0).sr 3 = 4 := by decide +kernel
theorem test_lui_keeps_low : ((after (.lui 0 1 0xABCD) (twoRegs 0x11112222 0)).sofar 0).sr 1 = 0xABCD2222 := by decide +kernel
theorem test_min_signed : ((after (.min 0 3 1 2) (twoRegs 0xFFFFFFFF 1)).sofar 0).sr 3 = 0xFFFFFFFF := by decide +kernel
theorem test_minu_unsigned : ((after (.minu 0 3 1 2) (twoRegs 0xFFFFFFFF 1)).sofar 0).sr 3 = 1 := by decide +kernel

-- Words by the encodings of Tables Slot 0 to Slot 3; the last three are the example that follows R170.
theorem test_decode_addi : decodeSyllable 0 0 0x11187FFF = .addi 0 3 1 0x3FFF := by decide +kernel
theorem test_decode_aaddi : decodeSyllable 0 1 0x0421FFF0 = .aaddi 0 2 1 0xFFF0 := by decide +kernel
theorem test_decode_mma : decodeSyllable 0 2 0x03C08000 = .mma 0 true true 0 64 := by decide +kernel
theorem test_decode_vfma : decodeSyllable 0 3 0x04208600 = .vfma 0 0 4 2 3 0 := by decide +kernel
theorem test_decode_bundle : decodeBundle 0 0x0420860003C080000000000000000000 =
    [.nop 0 0 false, .nop 0 1 false, .mma 0 true true 0 64, .vfma 0 0 4 2 3 0] := by decide +kernel
-- Undefined opcodes and a reserved bit that is set (R170).
theorem test_decode_undefined : decodeSyllable 0 1 0xFF000000 = .nop 0 1 true := by decide +kernel
theorem test_decode_reserved_bit : decodeSyllable 0 0 0x00000001 = .nop 0 0 true := by decide +kernel
theorem test_decode_spells_none : decodeTableWord 32 0 = none := rfl
theorem test_empty_queue_idles : step State.reset = .next State.reset := rfl
theorem test_front_runs : (step { State.reset with pending := [.aonPwrgdRise] } = exec .aonPwrgdRise State.reset) := rfl
theorem test_power_rise : (after .aonPwrgdRise State.reset).hw.boot.aon = true := by decide +kernel
theorem witness_MemoryKeepsItsForm : State.reset.memWf ∧ step State.reset = .next State.reset := by
  unfold State.memWf
  exact ⟨by decide +kernel, rfl⟩

/-! ### Witnesses -/

theorem witness_ScalarArithmetic :
    atScalarArithmetic1.slotNext 0 0 ∧ atScalarArithmetic2.slotNext 0 0 ∧ BitVec.toNat 3#14 < 32 ∧ atScalarArithmetic3.slotNext 0 0 ∧
    32 ≤ BitVec.toNat 40#14 := by
  unfold State.slotNext
  and_intros <;> decide +kernel

theorem witness_ScalarPredicatesAndOthers :
    atScalarPredicatesAndOthers1.slotNext 0 0 ∧ 5 < 6 ∧ atScalarPredicatesAndOthers2.slotNext 0 0 ∧ (0 : Fin 4) ≠ (3 : Fin 4) ∧ (0 : Fin 4) = (0 : Fin 4) ∧
    (7 : Fin 8) = (7 : Fin 8) ∧ (atScalarPredicatesAndOthers2.before 0).quiet = true ∧ (atScalarPredicatesAndOthers2.before 0).openHatches = [] := by
  unfold State.slotNext
  and_intros <;> decide +kernel

theorem witness_ControlTransfers :
    atControlTransfers1.slotNext 0 0 ∧ predTest 1 ((atControlTransfers1.before 0).pr 0) = true ∧ ↑(atControlTransfers1.before 0).pc + BitVec.toInt 7#14 = 7 ∧
    7 < (atControlTransfers1.before 0).ibound ∧ (atControlTransfers1.before 0).rets.length < 4 ∧ 4#14 ≠ 0#14 ∧
    (atControlTransfers1.before 0).pc + BitVec.toNat 4#14 < (atControlTransfers1.before 0).ibound ∧ (atControlTransfers1.before 0).loops.length < 4 ∧ 3#10 ≠ 0#10 ∧
    atControlTransfers2.slotNext 0 0 ∧ 99#14 ≠ 0#14 ∧ (atControlTransfers2.before 0).pc + BitVec.toNat 99#14 < (atControlTransfers2.before 0).ibound ∧
    (atControlTransfers2.before 0).loops.length < 4 ∧ (atControlTransfers2.before 0).sr 1 ≠ 0#32 ∧ predTest 0 ((atControlTransfers1.before 0).pr 1) = false ∧
    atControlTransfers3.slotNext 0 0 ∧ predTest 1 ((atControlTransfers3.before 0).pr 0) = true ∧
    (↑(atControlTransfers3.before 0).pc + BitVec.toInt 4#14 < (0 : Int) ∨ ↑(atControlTransfers3.before 0).ibound ≤ ↑(atControlTransfers3.before 0).pc + BitVec.toInt 4#14) ∧
    (atControlTransfers3.before 0).rets = [] ∧ atControlTransfers4.slotNext 0 0 ∧ 4 ≤ (atControlTransfers4.before 0).rets.length ∧ 4 ≤ (atControlTransfers4.before 0).loops.length ∧
    1#10 ≠ 0#10 ∧ (atControlTransfers1.before 0).rets = 7 :: [] := by
  unfold State.slotNext
  and_intros <;> decide +kernel

theorem witness_Waits :
    atWaits1.slotNext 0 0 ∧ (atWaits1.before 0).cut = none ∧ atWaits2.slotNext 0 0 ∧ fld ((atWaits2.before 0).sr 1) 31 9 = 0 ∧
    bitOf ((atWaits2.before 0).sr 1) 7 = false ∧ fld ((atWaits2.before 0).sr 1) 6 0 < 96 ∧
    atWaits2.hw.assigned (fld ((atWaits2.before 0).sr 1) 6 0) (atWaits2.before 0).ctxId (atWaits2.before 0).part = true ∧
    atWaits3.slotNext 0 0 ∧
    (¬(fld ((atWaits3.before 0).sr 1) 31 9 = 0 ∧ bitOf ((atWaits3.before 0).sr 1) 7 = false ∧ fld ((atWaits3.before 0).sr 1) 6 0 < 96)) ∧
    atWaits4.slotNext 0 0 ∧ fld ((atWaits4.before 0).sr 1) 31 9 = 0 ∧ bitOf ((atWaits4.before 0).sr 1) 7 = false ∧
    fld ((atWaits4.before 0).sr 1) 6 0 < 96 ∧
    atWaits4.hw.assigned (fld ((atWaits4.before 0).sr 1) 6 0) (atWaits4.before 0).ctxId (atWaits4.before 0).part = false ∧
    atWaits5.hw.partPhys 2 ≠ [] ∧ (atWaits5.hw.partPhys 2).Nodup ∧ atWaits5.hw.launchSlot 2 3 = none ∧
    (∀ (p : Nat), p ∈ atWaits5.hw.partPhys 2 → ∃ c, (atWaits5.before p).cut = some c ∧ c.id = 3 ∧ c.x = false ∧ c.release = none) := by
  unfold State.slotNext
  and_intros <;> decide +kernel

theorem witness_AddressSyllables :
    atAddressSyllables1.slotNext 0 1 ∧ fieldWidth 5 = some 16 ∧ atAddressSyllables2.slotNext 0 1 ∧ fieldWidth 31 = none ∧
    aggoTraps (atAddressSyllables2.before 0) (atAddressSyllables2.hw.up 0) = [] := by
  unfold State.slotNext
  and_intros <;> decide +kernel

theorem witness_LoadsAndStoresQueue :
    atLoadsAndStoresQueue1.slotNext 0 1 ∧ (memAddr (atLoadsAndStoresQueue1.before 0) 2 256 (BitVec.toInt 1#14)).toNat < 2 ^ 22 ∧
    (memAddr (atLoadsAndStoresQueue1.before 0) 2 256 (BitVec.toInt 1#14)).toNat + 256 ≤ 32 * (atLoadsAndStoresQueue1.before 0).pbound ∧
    (memAddr (atLoadsAndStoresQueue1.before 0) 2 256 (BitVec.toInt 1#14)).toNat % 256 = 0 ∧
    granulesUp (atLoadsAndStoresQueue1.hw.up 0) (32 * (atLoadsAndStoresQueue1.before 0).pbase + (memAddr (atLoadsAndStoresQueue1.before 0) 2 256 (BitVec.toInt 1#14)).toNat) 256 = true ∧
    (memAddr (atLoadsAndStoresQueue1.before 0) 2 4 (BitVec.toInt 1#14)).toNat < 2 ^ 22 ∧
    (memAddr (atLoadsAndStoresQueue1.before 0) 2 4 (BitVec.toInt 1#14)).toNat + 4 ≤ 32 * (atLoadsAndStoresQueue1.before 0).pbound ∧
    (memAddr (atLoadsAndStoresQueue1.before 0) 2 4 (BitVec.toInt 1#14)).toNat % 4 = 0 ∧
    granulesUp (atLoadsAndStoresQueue1.hw.up 0) (32 * (atLoadsAndStoresQueue1.before 0).pbase + (memAddr (atLoadsAndStoresQueue1.before 0) 2 4 (BitVec.toInt 1#14)).toNat) 4 = true ∧
    atLoadsAndStoresQueue2.slotNext 0 2 ∧ (memAddr (atLoadsAndStoresQueue2.before 0) 2 4 (BitVec.toInt 0#14)).toNat < 2 ^ 22 ∧
    (memAddr (atLoadsAndStoresQueue2.before 0) 2 4 (BitVec.toInt 0#14)).toNat + 4 ≤ 32 * (atLoadsAndStoresQueue2.before 0).pbound ∧
    (memAddr (atLoadsAndStoresQueue2.before 0) 2 4 (BitVec.toInt 0#14)).toNat % 4 = 0 ∧
    granulesUp (atLoadsAndStoresQueue2.hw.up 0) (32 * (atLoadsAndStoresQueue2.before 0).pbase + (memAddr (atLoadsAndStoresQueue2.before 0) 2 4 (BitVec.toInt 0#14)).toNat) 4 = true ∧
    (memAddr (atLoadsAndStoresQueue2.before 0) 2 256 (BitVec.toInt 0#11)).toNat < 2 ^ 22 ∧
    (memAddr (atLoadsAndStoresQueue2.before 0) 2 256 (BitVec.toInt 0#11)).toNat + 256 ≤ 32 * (atLoadsAndStoresQueue2.before 0).pbound ∧
    (memAddr (atLoadsAndStoresQueue2.before 0) 2 256 (BitVec.toInt 0#11)).toNat % 256 = 0 ∧
    granulesUp (atLoadsAndStoresQueue2.hw.up 0) (32 * (atLoadsAndStoresQueue2.before 0).pbase + (memAddr (atLoadsAndStoresQueue2.before 0) 2 256 (BitVec.toInt 0#11)).toNat) 256 = true := by
  unfold State.slotNext
  and_intros <;> decide +kernel

theorem witness_SyllableTraps :
    (¬((memAddr (atSyllableTraps1.before 0) 2 (if true = true then 256 else 4) (BitVec.toInt 0#14)).toNat < 2 ^ 22 ∧ ((memAddr (atSyllableTraps1.before 0) 2 (if true = true then 256 else 4) (BitVec.toInt 0#14)).toNat + if true = true then 256 else 4) ≤ 32 * (atSyllableTraps1.before 0).pbound)) ∧
    atSyllableTraps1.slotNext 0 1 ∧
    (((memAddr (atSyllableTraps1.before 0) 2 (if true = true then 256 else 4) (BitVec.toInt 0#14)).toNat % if true = true then 256 else 4) ≠ 0) ∧
    (¬((memAddr (atSyllableTraps2.before 0) 2 (if false = true then 256 else 4) (BitVec.toInt 0#14)).toNat < 2 ^ 22 ∧ ((memAddr (atSyllableTraps2.before 0) 2 (if false = true then 256 else 4) (BitVec.toInt 0#14)).toNat + if false = true then 256 else 4) ≤ 32 * (atSyllableTraps2.before 0).pbound)) ∧
    false = false ∧ atSyllableTraps2.slotNext 0 2 ∧
    (((memAddr (atSyllableTraps2.before 0) 2 (if false = true then 256 else 4) (BitVec.toInt 0#14)).toNat % if false = true then 256 else 4) ≠ 0) ∧
    (memAddr (atSyllableTraps3.before 0) 2 (if true = true then 256 else 4) (BitVec.toInt 0#14)).toNat < 2 ^ 22 ∧
    (((memAddr (atSyllableTraps3.before 0) 2 (if true = true then 256 else 4) (BitVec.toInt 0#14)).toNat + if true = true then 256 else 4) ≤ 32 * (atSyllableTraps3.before 0).pbound) ∧
    granulesUp (atSyllableTraps3.hw.up 0) (32 * (atSyllableTraps3.before 0).pbase + (memAddr (atSyllableTraps3.before 0) 2 (if true = true then 256 else 4) (BitVec.toInt 0#14)).toNat) (if true = true then 256 else 4) = false ∧
    atSyllableTraps3.slotNext 0 1 ∧
    (memAddr (atSyllableTraps4.before 0) 2 (if false = true then 256 else 4) (BitVec.toInt 0#14)).toNat < 2 ^ 22 ∧
    (((memAddr (atSyllableTraps4.before 0) 2 (if false = true then 256 else 4) (BitVec.toInt 0#14)).toNat + if false = true then 256 else 4) ≤ 32 * (atSyllableTraps4.before 0).pbound) ∧
    granulesUp (atSyllableTraps4.hw.up 0) (32 * (atSyllableTraps4.before 0).pbase + (memAddr (atSyllableTraps4.before 0) 2 (if false = true then 256 else 4) (BitVec.toInt 0#14)).toNat) (if false = true then 256 else 4) = false ∧
    atSyllableTraps4.slotNext 0 2 ∧ atSyllableTraps5.slotNext 0 1 ∧
    ((atSyllableTraps5.before 0).ar 2).toNat < ((atSyllableTraps5.before 0).ar 3).toNat + 32 * BitVec.toNat ((atSyllableTraps5.before 0).sr 4) ∧
    ((atSyllableTraps5.before 0).ar 3).toNat < ((atSyllableTraps5.before 0).ar 2).toNat + 32 * BitVec.toNat ((atSyllableTraps5.before 0).sr 4) ∧
    ((atSyllableTraps5.before 0).hatch 1).isOpen = false ∧ atSyllableTraps6.slotNext 0 1 ∧ ((atSyllableTraps6.before 0).hatch 1).isOpen = true ∧
    atLoadsAndStoresQueue2.slotNext 0 2 ∧ 64 < BitVec.toNat 65#7 ∧ 64 < 0 + BitVec.toNat 65#7 ∧ atSyllableTraps7.slotNext 0 2 ∧
    0 + BitVec.toNat 64#7 ≤ 64 ∧ pairOk ((atSyllableTraps7.sofar 0).field 0) (atSyllableTraps7.sofar 0).wfmtAhead = false := by
  unfold State.slotNext
  and_intros <;> decide +kernel

theorem witness_QueueingSyllables :
    atQueueingSyllables1.slotNext 0 1 ∧ ((atQueueingSyllables1.before 0).ar 2).toNat < 2 ^ 22 ∧
    ((atQueueingSyllables1.before 0).ar 2).toNat + 32 ≤ 32 * (atQueueingSyllables1.before 0).pbound ∧ ((atQueueingSyllables1.before 0).ar 2).toNat % 32 = 0 ∧
    granulesUp (atQueueingSyllables1.hw.up 0) (32 * (atQueueingSyllables1.before 0).pbase + ((atQueueingSyllables1.before 0).ar 2).toNat) 32 = true ∧
    ((atQueueingSyllables1.before 0).ar 2).toNat + 32 * BitVec.toNat ((atQueueingSyllables1.before 0).sr 4) ≤ 32 * (atQueueingSyllables1.before 0).pbound ∧
    granulesUp (atQueueingSyllables1.hw.up 0) (32 * (atQueueingSyllables1.before 0).pbase + ((atQueueingSyllables1.before 0).ar 2).toNat) (32 * BitVec.toNat ((atQueueingSyllables1.before 0).sr 4)) = true ∧
    0 < BitVec.toNat ((atQueueingSyllables1.before 0).sr 4) ∧ ((atQueueingSyllables1.before 0).ar 3).toNat < 2 ^ 22 ∧
    ((atQueueingSyllables1.before 0).ar 3).toNat + 32 * BitVec.toNat ((atQueueingSyllables1.before 0).sr 4) ≤ 32 * (atQueueingSyllables1.before 0).pbound ∧
    ((atQueueingSyllables1.before 0).ar 3).toNat % 32 = 0 ∧
    granulesUp (atQueueingSyllables1.hw.up 0) (32 * (atQueueingSyllables1.before 0).pbase + ((atQueueingSyllables1.before 0).ar 3).toNat) (32 * BitVec.toNat ((atQueueingSyllables1.before 0).sr 4)) = true ∧
    (((atQueueingSyllables1.before 0).ar 2).toNat + 32 * BitVec.toNat ((atQueueingSyllables1.before 0).sr 4) ≤ ((atQueueingSyllables1.before 0).ar 3).toNat ∨ ((atQueueingSyllables1.before 0).ar 3).toNat + 32 * BitVec.toNat ((atQueueingSyllables1.before 0).sr 4) ≤ ((atQueueingSyllables1.before 0).ar 2).toNat) ∧
    ((atQueueingSyllables1.before 0).hatch 1).isOpen = false ∧
    ((atQueueingSyllables1.before 0).ar 2).toNat + 32 * fld ((atQueueingSyllables1.before 0).sr 4) 17 0 ≤ 32 * (atQueueingSyllables1.before 0).pbound ∧
    fld ((atQueueingSyllables1.before 0).sr 4) 31 19 = 0 ∧ fld ((atQueueingSyllables1.before 0).sr 4) 27 11 % 8 = 0 ∧
    fld ((atQueueingSyllables1.before 0).sr 4) 31 28 = 0 ∧ atSyllableTraps6.slotNext 0 1 ∧ ((atSyllableTraps6.before 0).hatch 1).isOpen = true := by
  unfold State.slotNext
  and_intros <;> decide +kernel

theorem witness_MatrixSyllables :
    atLoadsAndStoresQueue2.slotNext 0 2 ∧ 0 + BitVec.toNat 64#7 ≤ 64 ∧ pairOk ((atLoadsAndStoresQueue2.sofar 0).field 0) (atLoadsAndStoresQueue2.sofar 0).wfmtAhead = true ∧
    BitVec.toNat 64#7 ≤ 64 ∧ ((atLoadsAndStoresQueue2.before 0).ar 2).toNat % 256 = 0 ∧
    (atLoadsAndStoresQueue2.before 0).imageTraps (atLoadsAndStoresQueue2.hw.up 0) ((atLoadsAndStoresQueue2.before 0).ar 2).toNat (imageBytes (BitVec.toNat 64#7) 16 true (reductionPerRow (atLoadsAndStoresQueue2.sofar 0).wfmtAhead 16)) 256 = [] ∧
    (atLoadsAndStoresQueue2.before 0).imageTraps (atLoadsAndStoresQueue2.hw.up 0) ((atLoadsAndStoresQueue2.before 0).ar 2).toNat (64 * (maskArrays 1).length * 256) 256 = [] := by
  unfold State.slotNext
  and_intros <;> decide +kernel

theorem witness_MatrixSequencer :
    atMatrixSequencer1.unitFree 0 ∧ (atMatrixSequencer1.before 0).mx.queue = [MxOp.dload 0 64 16 false] ∧
    ((atMatrixSequencer1.before 0).mx.cycled = false ∨ (atMatrixSequencer1.before 0).mx.pass3 = true) ∧ 64 ≠ 0 ∧ (atMatrixSequencer1.before 0).mx.loadPend = none ∧
    atMatrixSequencer2.unitFree 0 ∧ (atMatrixSequencer2.before 0).mx.queue = [MxOp.drain true 0 true 15 true 64] ∧
    ((atMatrixSequencer2.before 0).mx.cycled = false ∨ (atMatrixSequencer2.before 0).mx.pass3 = true) ∧ 15 % 16 ≠ 0 ∧
    (atMatrixSequencer2.before 0).mx.drainPend = none ∧ atMatrixSequencer3.unitFree 0 ∧ (atMatrixSequencer3.before 0).mx.queue = [MxOp.swap] ∧
    (atMatrixSequencer3.before 0).mx.cycled = false ∧ (atMatrixSequencer3.before 0).mx.loadRun = none ∧ (atMatrixSequencer3.before 0).mx.loadPend = none ∧
    (atMatrixSequencer3.before 0).mx.loaded = false ∧ atMatrixSequencer4.unitFree 0 ∧ (atMatrixSequencer4.before 0).mx.loadRun = none ∧
    (atMatrixSequencer4.before 0).mx.loaded = false ∧ (atMatrixSequencer4.before 0).mx.loadPend = some wJob ∧ wJob.fresh = false ∧ atMatrixSequencer5.unitFree 0 ∧
    (atMatrixSequencer5.before 0).mx.loadRun = some atMatrixSequencer6 ∧ atMatrixSequencer6.cyc = atMatrixSequencer6.accesses + 5 ∧ atMatrixSequencer7.unitFree 0 ∧
    (atMatrixSequencer7.before 0).mx.loadRun = some wJob ∧ wJob.cyc < wJob.accesses ∧
    atMatrixSequencer7.mem.cleanAt (pantryAddr 0 (32 * (atMatrixSequencer7.before 0).pbase + wJob.base + 256 * wJob.cyc)) 256 := by
  unfold State.unitFree
  simp only [cleanAt_iff]
  and_intros <;> decide +kernel

theorem witness_MatrixCycle :
    atMatrixCycle1.unitFree 0 ∧ (atMatrixCycle1.before 0).mx.cycled = false ∧ (atMatrixCycle1.before 0).mx.beforeDue = false ∧
    (atMatrixCycle1.before 0).readyDue = false ∧ atMatrixCycle2.unitFree 0 ∧ (atMatrixCycle2.before 0).mx.drainCan = DrainCan.backup ∧ atMatrixCycle3.unitFree 0 ∧
    (atMatrixCycle3.before 0).mx.cycled = false ∧ (atMatrixCycle3.before 0).mx.drainCan ≠ DrainCan.backup ∧
    (atMatrixCycle3.before 0).mx.flights = [wFl] ∧ writeLatency wFl.afmt wFl.wfmt ≤ wFl.age + 1 := by
  unfold State.unitFree
  and_intros <;> decide +kernel

theorem witness_Drainer :
    atDrainer1.unitFree 0 ∧ (atDrainer1.before 0).mx.drainNow = some wDr ∧ wDr.second = false ∧
    (atDrainer1.before 0).mx.drainCan = DrainCan.reads ∧ atDrainer2.unitFree 0 ∧ (atDrainer2.before 0).mx.cycled = false ∧
    (atDrainer2.before 0).mx.drainCan ≠ DrainCan.backup ∧
    (atDrainer2.before 0).mx.rowsOut = [{ lanes := wRow.lanes, dest := none, bytes := wRow.bytes, left := 0 }] ∧
    atDrainer3.unitFree 0 ∧ (atDrainer3.before 0).mx.cycled = false ∧ (atDrainer3.before 0).mx.drainCan ≠ DrainCan.backup ∧
    (atDrainer3.before 0).mx.rowsOut = [{ lanes := wRow.lanes, dest := some 64, bytes := wRow.bytes, left := 0 }] ∧
    (atDrainer3.before 0).canIssue = true ∧ List.take wRow.bytes wRow.lanes.bytes ≠ [] := by
  unfold State.unitFree
  and_intros <;> decide +kernel

theorem witness_VectorTwoSources :
    (atVectorTwoSources1.closes 0 { srcs := maskedSrcs 1 5 [keyV 2, keyV 4], dests := [(keyV 1, if 3 < 2 then 4 else 2)] }) ∧
    (atVectorTwoSources1.closes 0 { srcs := maskedSrcs 1 5 [keyV 2, keyV 4, keyV 1], dests := [(keyV 1, if 3 < 2 then 4 else 2)] }) ∧
    atVectorTwoSources1.closes 0 { srcs := maskedSrcs 1 5 [keyV 2, keyV 4], dests := [(keyV 1, 1)] } := by
  unfold State.closes State.slotNext
  and_intros <;> decide +kernel

theorem witness_VectorOneSource :
    atVectorOneSource1.closes 0 { srcs := maskedSrcs 1 4 [keyV 2], dests := [(keyV 1, 1)] } ∧ 3 ≤ 3 ∧
    atVectorOneSource1.closes 0 { srcs := maskedSrcs 1 4 [keyV 2], dests := [(keyV 1, 3)] } ∧
    atVectorOneSource1.closes 0 { srcs := maskedSrcs 1 4 [keyV 2], dests := [(keyV 1, 6)] } ∧
    atVectorOneSource1.closes 0 { srcs := maskedSrcs 1 4 [keyV 2], dests := [(keyV 1, 10)] } ∧
    atVectorOneSource1.closes 0 { srcs := maskedSrcs 1 4 [keyV 2], dests := [(keyV 1, 20)] } ∧
    atVectorOneSource1.closes 0 { srcs := maskedSrcs 1 4 [keyV 2], dests := [(keyV 1, 28)] } ∧
    atVectorOneSource1.closes 0 { srcs := maskedSrcs 1 4 [keyS 2], dests := [(keyV 1, 1)] } ∧ 1 ≤ 1 ∧ fmtIsMx 0 = false ∧
    atVectorOneSource1.closes 0 { srcs := maskedSrcs 1 4 [keyV 2], dests := [(keyV 1, 4)] } := by
  unfold State.closes State.slotNext
  and_intros <;> decide +kernel

theorem witness_VectorAcrossLanes :
    atVectorAcrossLanes1.closes 0 { srcs := [keyV 3, keyV 5, keyP 2], dests := [(keyV 4, 1)] } ∧
    atVectorAcrossLanes1.closes 0 { srcs := [keyV 3], dests := [(keyS 4, 2)] } ∧
    atVectorAcrossLanes1.closes 0 { srcs := [keyV 3], dests := [(keyS 4, 6)] } ∧
    vred (laneTy 3) 0 (atVectorAcrossLanes1.before 0).detm ((atVectorAcrossLanes1.before 0).vr 3) = some (0#32, (0 : AFlags)) ∧
    (atVectorAcrossLanes1.closes 0 { srcs := maskedSrcs 4 2 [keyV 3], dests := [(keyV 4, if 3 = 0 ∧ 0 = 0 ∧ (atVectorAcrossLanes1.before 0).detm = true then 24 else 12)] }) ∧
    vpackOk 12 0 true = true ∧ atVectorAcrossLanes2.closes 0 { srcs := [keyV 3, keyV 4], dests := [(keyV 4, 2)] } := by
  unfold State.closes State.slotNext
  and_intros <;> decide +kernel

theorem witness_VectorRequantAndStreams :
    fld ((atVectorRequantAndStreams1.before 0).sr 4) 6 0 ≤ 95 ∧ fld ((atVectorRequantAndStreams1.before 0).sr 4) 9 8 ≤ 1 ∧
    fld ((atVectorRequantAndStreams1.before 0).sr 4) 11 10 = 0 ∧ fld ((atVectorRequantAndStreams1.before 0).sr 4) 15 12 ≤ 3 ∧
    atVectorRequantAndStreams1.closes 0 { srcs := [keyV 1, keyV 3, keyS 2, keyS 4], dests := [(keyV 3, 5)] } ∧
    atVectorRequantAndStreams1.closes 0 { srcs := [keyV 1, keyV 4], dests := [(keyV 3, 2)] } ∧
    atVectorRequantAndStreams1.closes 0 { srcs := [keyV 1, keyS 4], dests := [(keyV 3, 4)] } ∧
    atVectorRequantAndStreams1.closes 0 { srcs := [keyV 1, keyV 3, keyS 4], dests := [(keyV 3, 8)] } ∧ fmtIsMx 8 = true ∧
    atVectorRequantAndStreams2.closes 0 { srcs := [keyV 1], dests := [(keyV 3, 8), (keyS 2, 8)] } ∧
    (atVectorRequantAndStreams3.before 0).nextColumn = NextColumn.column wPl 0 ∧ atVectorRequantAndStreams3.closes 0 { dests := [(keyV 3, 1)] } ∧
    (atVectorRequantAndStreams4.before 0).mx.drainQueue = [Vec.zero] ∧ (atVectorRequantAndStreams4.sofar 0).mx.drainQueue = [Vec.zero] ∧
    atVectorRequantAndStreams4.closes 0 { dests := [(keyV 3, 1)] } := by
  unfold State.closes State.slotNext
  and_intros <;> decide +kernel

theorem witness_BundlesThatDoNotIssue :
    atBundlesThatDoNotIssue1.slotNext 0 3 ∧ ((atBundlesThatDoNotIssue1.atIssue 0).add { }).ending = BundleEnd.stalls ∧ wEmpty.ending = BundleEnd.traps atBundlesThatDoNotIssue2 ∧
    atBundlesThatDoNotIssue3.slotNext 0 3 ∧ ((atBundlesThatDoNotIssue3.atIssue 0).add { }).ending = BundleEnd.waits ∧ 0 < 1 ∧ (70, 0, 1) ∈ wBun.dests ∧
    (70, 1, 1) ∈ wBun.dests ∧ wBun.before.dead = false ∧ wBun.before.fetchTrap = none ∧ wBun.stall = false ∧
    wBun.wait ≠ some false ∧ wBun.wheel = false ∧ atBundlesThatDoNotIssue4.slotNext 0 3 ∧
    ((atBundlesThatDoNotIssue4.atIssue 0).add { }).ending = BundleEnd.dead ∧ atBundlesThatDoNotIssue5.slotNext 0 3 ∧
    ((atBundlesThatDoNotIssue5.atIssue 0).add { }).ending = BundleEnd.traps atBundlesThatDoNotIssue2 := by
  unfold State.slotNext
  and_intros <;> decide +kernel

theorem witness_HardWiredRegisters :
    3 ≠ 0 ∧ 4 ≠ 3 := by
  and_intros <;> decide +kernel

theorem witness_CoreAccesses :
    atCoreAccesses1.unitFree 0 ∧ (atCoreAccesses1.before 0).loadDue = some wLd ∧
    atCoreAccesses1.mem.cleanAt (pantryAddr 0 wLd.addr) (if wLd.vec = true then 256 else 4) ∧ (atCoreAccesses1.before 0).storeDue = some wSt ∧
    (atCoreAccesses1.before 0).canIssue = true ∧ (∀ (r : Nat × List Byte), r ∈ wSt.runs → r.snd ≠ []) ∧
    (atCoreAccesses1.before 0).dmaQ = [wFill] ∧ wFill.started = false ∧
    (wFill.kind = DmaKind.fill 32 2 5#32 ∨ wFill.kind = DmaKind.copy 32 0 2) ∧
    atCoreAccesses1.hw.noStart (atCoreAccesses1.before 0).ctxId = false ∧ (chunkAt 2 0).snd ≠ 0 ∧ (atCoreAccesses1.before 0).walk = some wWk ∧
    wWk.back = none ∧ wWk.nextLoad < (atCoreAccesses1.before 0).genP.planes ∧ (wWk.front = none ∨ wWk.col ≠ 0) ∧ atCoreAccesses2.unitFree 0 ∧
    (atCoreAccesses2.before 0).writes = [wPw] ∧ wPw.data ≠ [] ∧ wPw.slot < 8 ∧
    atCoreAccesses2.mem.cleanAt (pantryAddr 0 wPw.addr) wPw.data.length := by
  unfold State.unitFree
  simp only [cleanAt_iff]
  and_intros <;> decide +kernel

theorem witness_Hatches :
    atHatches1.hw.arrivable 0 = some { src := 1, dst := 0, body := MsgBody.write 1 0 3 8 1#8 wData wPz (some 2) 9 5 6 0#64 } ∧
    0 ≠ stopCaller ∧ 0 ≠ stopPartner ∧ (atHatches1.before 0).arrivals.length < 32 ∧
    atHatches1.hw.admits 1 0 1 ((atHatches1.before 0).hatch 3) = true ∧ ((atHatches1.before 0).hatch 3).isOpen = true ∧
    1#8 = ((atHatches1.before 0).hatch 3).gen ∧ 8 + 8 ≤ ((atHatches1.before 0).hatch 3).words ∧
    granulesUp (atHatches1.hw.up 0) (32 * (((atHatches1.before 0).hatch 3).base + 8)) 256 = true ∧
    atHatches2.hw.arrivable 0 = some { src := 1, dst := 0, body := MsgBody.write 1 0 3 8 1#8 wData wPz (some 2) 9 5 6 0#64 } ∧
    (atHatches2.before 0).arrivals.length < 32 ∧ (¬atHatches2.hw.admits 1 0 1 ((atHatches2.before 0).hatch 3) = true) ∧
    atHatches3.hw.arrivable 0 = some { src := 1, dst := 0, body := MsgBody.write 1 0 3 8 2#8 wData wPz (some 2) 9 5 6 0#64 } ∧
    (atHatches3.before 0).arrivals.length < 32 ∧ atHatches3.hw.admits 1 0 1 ((atHatches3.before 0).hatch 3) = true ∧
    (¬(((atHatches3.before 0).hatch 3).isOpen = true ∧ 2#8 = ((atHatches3.before 0).hatch 3).gen)) ∧
    atHatches4.hw.arrivable 0 = some { src := 1, dst := 0, body := MsgBody.write 1 0 3 9 1#8 wData wPz (some 2) 9 5 6 0#64 } ∧
    (atHatches4.before 0).arrivals.length < 32 ∧ atHatches4.hw.admits 1 0 1 ((atHatches4.before 0).hatch 3) = true ∧
    ((atHatches4.before 0).hatch 3).isOpen = true ∧ 1#8 = ((atHatches4.before 0).hatch 3).gen ∧
    ((atHatches4.before 0).hatch 3).words < 9 + 8 ∧ (atHatches5.before 0).arrivals = [wArr] ∧
    ((atHatches5.before 0).hatch wArr.hatch).isOpen = true ∧ ((atHatches5.before 0).hatch wArr.hatch).gen = wArr.gen ∧
    atHatches6.hw.arrivable 0 = some { src := 1, dst := 0, body := MsgBody.answer Status.staleHatch (some 2) 9 5 6 } ∧
    (atHatches6.before 0).runs 5 6 = true ∧ Status.staleHatch ≠ Status.faultFirewall ∧
    Status.staleHatch ≠ Status.faultPermission ∧
    atHatches7.hw.arrivable 0 = some { src := 1, dst := 0, body := MsgBody.notice 19 1#8 false } ∧
    atHatches8.hw.loft.replies = [(0, 19, 1#8)] ∧ 19 < 1024 ∧ atHatches8.hw.writesOut 0 19 = false ∧ atHatches8.hw.logicalOf 0 = some 0 ∧
    ((atHatches8.before (atHatches8.hw.phys (19 / 16 : Nat))).hatch (19 % 16)).closing = true ∧
    ((atHatches8.before (atHatches8.hw.phys (19 / 16 : Nat))).hatch (19 % 16)).gen = 1#8 := by
  and_intros <;> decide +kernel

theorem witness_DmaItems :
    atDmaItems1.hw.dmaNextStart 0 = some wDe1 ∧ wDe1.desc = some atDmaItems2 ∧ atDmaItems2.ok = true ∧ atDmaItems2.kind ≠ 7 ∧
    (atDmaItems2.total = 0 ∨ atDmaItems2.hasPantry = false ∨ (atDmaItems1.before 0).inBound atDmaItems2.pantry (atDmaItems2.extent atDmaItems2.pantryPitch) = true) ∧
    (atDmaItems3.before 0).dma 3 = some wDe2 ∧ wDe2.complete = true ∧ (atDmaItems4.before 0).dma 3 = some wDe3 ∧
    wDe3.desc = some atDmaItems5 ∧ wDe3.started = true ∧ wDe3.paused = false ∧ atDmaItems5.kind = 2 ∧
    wDe3.issued < atDmaItems5.total ∧ atDmaItems5.piece wDe3.issued % 32 = 0 ∧
    atDmaItems4.hw.loftBusy (atDmaItems5.loftWord wDe3.issued) = false ∧
    atDmaItems4.hw.loftOk (atDmaItems4.before 0).part (atDmaItems5.loftWord wDe3.issued) (atDmaItems5.piece wDe3.issued / 32) false = true ∧
    atDmaItems4.hw.slot5Busy 0 = false ∧ atDmaItems4.hw.unitWaits (Requester.coreDma 0 3 0) = false ∧
    granulesUp (atDmaItems4.hw.up 0) ((atDmaItems4.before 0).dmaByte atDmaItems5 wDe3.issued) (atDmaItems5.piece wDe3.issued) = true ∧
    atDmaItems6.hw.engineNext = some wEn1 ∧ List.find? (fun k => (atDmaItems6.hw.onChannel k).isNone) (List.range 16) = some 0 ∧
    (edescOf wEn1.desc).ok wEn1.desc = true ∧ atDmaItems7.hw.onChannel 0 = some wEn2 ∧ wEn2.paused = false ∧
    (edescOf wEn2.desc).total ≤ wEn2.done := by
  and_intros <;> decide +kernel

theorem witness_GatherUnits :
    (atGatherUnits1.before 0).dma 3 = some wDe7 ∧ wDe7.desc = some atGatherUnits2 ∧ wDe7.started = true ∧ wDe7.paused = false ∧
    atGatherUnits2.kind = 7 ∧ wDe7.issued = 0 ∧ atGatherUnits1.hw.noStart (atGatherUnits1.before 0).ctxId = false ∧ atGatherUnits1.hw.slot5Busy 0 = false ∧
    granulesUp (atGatherUnits1.hw.up 0) ((atGatherUnits1.before 0).phys atGatherUnits2.pantry) 128 = true ∧
    (atGatherUnits1.hw.gatherQ (gjdOf (atGatherUnits1.mem.bytes (pantryAddr 0 ((atGatherUnits1.before 0).phys atGatherUnits2.pantry)) 128)).gu).length < 64 ∧
    atGatherUnits1.hw.jobsEnd (atGatherUnits1.before 0).part = false ∧ atGatherUnits3.hw.runningJob 1 0 = none ∧
    List.find? (fun y => y.part == 0 && !y.started && !y.ended) (atGatherUnits3.hw.gatherQ 1) = some wJ1 ∧
    atGatherUnits3.hw.job 1 wJ1.core wJ1.dma = some wJ1 ∧ atGatherUnits3.hw.noStart wJ1.ctx = false ∧ wJ1.g.check = none ∧
    atGatherUnits3.hw.gatherDest wJ1 = some 0 ∧ (atGatherUnits3.before 0).inBound wJ1.g.destAddr wJ1.g.extent = true ∧
    wJ1.g.indexVa = true ∧ wJ1.g.indexLen ≠ 0 ∧ wJ1.got = [] ∧ atGatherUnits4.hw.job 1 0 3 = some wJ2 ∧ wJ2.planned = true ∧
    (wJ2.segs.getD (2 + 0) (0, 0)).snd ≠ 0 ∧ wJ2.seg (2 + 0) = some (atGatherUnits5, false) ∧ atGatherUnits6.hw.job 1 0 3 = some wJ3 ∧
    wJ3.planned = true ∧ wJ3.ended = false ∧ wJ3.paused = false ∧ wJ3.outDone.contains 0 = false ∧ 0 < wJ3.g.outputs ∧
    wJ3.rowsOf 0 = some wNone ∧ atGatherUnits6.hw.gatherDest wJ3 = some 0 ∧ wJ3.seg 0 = some (atGatherUnits7, false) ∧
    wJ3.seg 1 = some ([], false) ∧ (wJ3.g.output atGatherUnits7 [] 0 wNone).fst.length % 32 = 0 ∧
    granulesUp (atGatherUnits6.hw.up 0) ((atGatherUnits6.before 0).phys (wJ3.g.destAddr + 0 * wJ3.g.destPitch)) (wJ3.g.output atGatherUnits7 [] 0 wNone).fst.length = true ∧
    (atGatherUnits6.before 0).arrivals = [] ∧ atGatherUnits8.hw.job 1 0 3 = some wJ4 ∧ wJ4.planned = true ∧ wJ4.ended = false ∧
    wJ4.paused = false ∧ leadLen wJ4.outDone = wJ4.g.outputs ∧ atGatherUnits8.hw.slot5Busy wJ4.core = false ∧
    granulesUp (atGatherUnits8.hw.up wJ4.core) (wJ4.at_ + 96) 32 = true ∧ atGatherUnits9.hw.job 1 0 3 = some wJ5 ∧ wJ5.ended = true ∧
    atGatherUnits9.hw.fetching 1 0 3 = false ∧ atGatherUnits9.hw.slot5Busy wJ5.core = false ∧
    granulesUp (atGatherUnits9.hw.up wJ5.core) (wJ5.at_ + 96) 32 = true := by
  and_intros <;> decide +kernel

theorem witness_MemoryUpkeep :
    atMemoryUpkeep1.hw.regBit (Reg.pantryScrub 0) 4 = true ∧ (atMemoryUpkeep1.hw.scrub 0).back = none ∧ atMemoryUpkeep1.hw.inJoker 0 = false ∧
    (atMemoryUpkeep1.before 0).run ≠ CoreRun.off ∧ atMemoryUpkeep1.hw.scrubNext 0 (atMemoryUpkeep1.hw.scrub 0).next = some 0 ∧
    atMemoryUpkeep1.hw.regBit Reg.loftScrub 4 = true ∧ atMemoryUpkeep1.hw.sliceOff 1 = false ∧
    List.find? (fun i => atMemoryUpkeep1.hw.regFld (Reg.loftWay i) 9 8 == 0) (List.map (fun i => ((atMemoryUpkeep1.hw.scrub (100 + 1)).next / 1024 % 16 + i) % 16) (List.range 16)) = some 0 ∧
    (atMemoryUpkeep2.hw.scrub 0).back = some (0, [3]) ∧ atMemoryUpkeep2.hw.inJoker 0 = false ∧
    atMemoryUpkeep3.hw.regBit (Reg.pantryGranuleState 0) (16 + 1) = true ∧ atMemoryUpkeep3.hw.granuleFree 0 = true ∧
    atMemoryUpkeep4.hw.loft.granules.contains (16 * 0 + 1) = true ∧ atMemoryUpkeep4.hw.inJoker 0 = false ∧
    atMemoryUpkeep4.hw.loft.clearing.contains 2 = true ∧ atMemoryUpkeep4.hw.loft.waiting = [] ∧ atMemoryUpkeep5.hw.loft.fills[0]? = some wFillC ∧
    wFillC.ready = true ∧ atMemoryUpkeep5.serves Reg.loftInvCtrl ∧ atMemoryUpkeep5.hw.regBit Reg.loftInvStatus 0 = false ∧
    (true = true → atMemoryUpkeep5.hw.reg64 Reg.loftInvSize % 2 ^ 48 ≠ 0) ∧ atMemoryUpkeep6.serves Reg.loftInvCtrl ∧
    atMemoryUpkeep6.hw.regBit Reg.loftInvStatus 0 = true ∧ atMemoryUpkeep6.hw.loft.inv[0]? = some wInvC ∧ wInvC.item = none := by
  unfold State.serves
  and_intros <;> decide +kernel

theorem witness_AddressTranslation :
    (Eff.start atAddressTranslation1.hw atAddressTranslation1.mem).next atAddressTranslation2 = (atAddressTranslation3, some wAcc) ∧ wAcc.write = false ∧ wAcc.only = false ∧
    atAddressTranslation3.hw.loftSide wAcc = none ∧ atAddressTranslation3.hw.unitWaits wAcc.who = false ∧
    (atAddressTranslation3.hw.port (portOf wAcc.va)).freeTag = some 0 ∧
    (atAddressTranslation3.hw.port (portOf wAcc.va)).lookup wAcc.ctx wAcc.gen wAcc.va = some wLeaf ∧
    leafAdmits wLeaf.leaf false = true ∧
    atAddressTranslation3.hw.admitted (leafPa wLeaf.level wLeaf.leaf wAcc.va) wAcc.part false false = true ∧
    (wAcc.cache && entryC wLeaf.leaf) = false ∧ (Eff.start atAddressTranslation4.hw atAddressTranslation4.mem).next atAddressTranslation5 = (atAddressTranslation6, some wAcc) ∧
    atAddressTranslation6.hw.loftSide wAcc = none ∧ atAddressTranslation6.hw.unitWaits wAcc.who = false ∧
    (atAddressTranslation6.hw.port (portOf wAcc.va)).freeTag = some 0 ∧
    (atAddressTranslation6.hw.port (portOf wAcc.va)).lookup wAcc.ctx wAcc.gen wAcc.va = none ∧
    (atAddressTranslation6.hw.port (portOf wAcc.va)).walkStart wAcc.ctx wAcc.gen wAcc.va = none ∧
    atAddressTranslation6.hw.ctx? wAcc.ctx = some wCtx ∧ atAddressTranslation6.hw.walking wAcc = false ∧
    (atAddressTranslation6.hw.paused wAcc.ctx && !wAcc.nopause) = false ∧
    (List.filter (fun w => w.port == portOf wAcc.va) atAddressTranslation6.hw.atu.walks).length < 64 ∧
    atAddressTranslation6.hw.admitted (wCtx.root + 8 * tableIndex 3 wAcc.va) wAcc.part false false = true ∧
    (atAddressTranslation6.hw.port (portOf (wCtx.root + 8 * tableIndex 3 wAcc.va))).freeTag = some 0 ∧ atAddressTranslation7.hw.portsReset = false ∧
    atAddressTranslation7.hw.atu.own = [] ∧ wWalk0.acc.only = false ∧
    List.find? (fun y => y.tag == 0 && !y.write) (atAddressTranslation7.hw.port 0).reqs = some wRq ∧ wRq.who = Requester.walk 1 ∧
    wRq.pa = (wWalk0.table + 8 * tableIndex wWalk0.level wWalk0.acc.va) / 64 * 64 ∧ wRq.bytes = 64 ∧ wRq.beat = 0 ∧
    wRq.fill = none ∧ atAddressTranslation7.hw.late wRq = false ∧ wBeat.length = 64 ∧
    List.find? (fun y => y.id == 1) atAddressTranslation7.hw.atu.walks = some wWalk0 ∧
    (∀ (y : WalkRun), y ∈ atAddressTranslation7.hw.atu.walks → y.stage = WalkStage.reading) ∧
    entryV (BitVec.ofNat 64 (leField wBeat ((wWalk0.table + 8 * tableIndex wWalk0.level wWalk0.acc.va) % 64) 8)) = true ∧
    entryReserved wWalk0.level (BitVec.ofNat 64 (leField wBeat ((wWalk0.table + 8 * tableIndex wWalk0.level wWalk0.acc.va) % 64) 8)) = false ∧
    entryLeaf (BitVec.ofNat 64 (leField wBeat ((wWalk0.table + 8 * tableIndex wWalk0.level wWalk0.acc.va) % 64) 8)) = true ∧
    leafAdmits (BitVec.ofNat 64 (leField wBeat ((wWalk0.table + 8 * tableIndex wWalk0.level wWalk0.acc.va) % 64) 8)) wWalk0.acc.write = true ∧
    atAddressTranslation7.hw.admitted (leafPa wWalk0.level (BitVec.ofNat 64 (leField wBeat ((wWalk0.table + 8 * tableIndex wWalk0.level wWalk0.acc.va) % 64) 8)) wWalk0.acc.va) wWalk0.acc.part false wWalk0.acc.write = true ∧
    (wWalk0.acc.cache && entryC (BitVec.ofNat 64 (leField wBeat ((wWalk0.table + 8 * tableIndex wWalk0.level wWalk0.acc.va) % 64) 8))) = false ∧
    (atAddressTranslation7.hw.port wWalk0.port).freeTag.isSome = true := by
  and_intros <;> (first | decide +kernel | exact Prod.ext rfl (by decide +kernel))

theorem witness_PortResponses :
    atPortResponses1.hw.portsReset = false ∧ (∀ (y : WalkRun), y ∈ atPortResponses1.hw.atu.walks → y.stage = WalkStage.reading) ∧
    atPortResponses1.hw.late wR1 = false ∧ atPortResponses1.hw.atu.own = [] ∧
    List.find? (fun y => y.tag == 7 && !y.write) (atPortResponses1.hw.port 2).reqs = some wR1 ∧
    wR1.who = Requester.engineDma 4 0 ∧ wR1.beat = 0 ∧ wR1.beats = 1 ∧ wR1.fill = none ∧ 0 < wR1.bytes ∧
    atPortResponses1.hw.engine 4 = some wEn ∧ (edescOf wEn.desc).kind ≠ 2 ∧ atPortResponses2.hw.portsReset = false ∧
    (∀ (y : WalkRun), y ∈ atPortResponses2.hw.atu.walks → y.stage = WalkStage.reading) ∧ atPortResponses2.hw.late wR2 = false ∧
    List.find? (fun y => y.tag == 7 && y.write) (atPortResponses2.hw.port 2).reqs = some wR2 ∧ atPortResponses2.hw.atu.own = [] ∧
    wR2.who = Requester.coreDma 0 3 0 ∧ atPortResponses3.hw.portsReset = false ∧
    (∀ (y : WalkRun), y ∈ atPortResponses3.hw.atu.walks → y.stage = WalkStage.reading) ∧ atPortResponses3.hw.late wR3 = false ∧
    List.find? (fun y => y.tag == 7 && y.write) (atPortResponses3.hw.port 2).reqs = some wR3 ∧ wR3.who = Requester.own wOj.id 0 ∧
    atPortResponses3.hw.atu.own = [wOj] ∧ wOj.write = true ∧ wOj.paused = false ∧ wOj.total ≤ wOj.issued ∧
    wOj.total ≤ ({ wOj with acked := wOj.acked ++ [(0, wR3.bytes)] } : OwnJob).done ∧ atPortResponses4.hw.portsReset = true := by
  and_intros <;> decide +kernel

theorem witness_FaultsAndInvalidation :
    atFaultsAndInvalidation1.hw.atu.faults[0]? = some wFr ∧ bitOf (atFaultsAndInvalidation1.hw.reg Reg.faultRingCtrl) 0 = true ∧
    BitVec.toNat (atFaultsAndInvalidation1.hw.reg Reg.faultTail - atFaultsAndInvalidation1.hw.reg Reg.faultHead) < 2 ^ ringLog (atFaultsAndInvalidation1.hw.reg Reg.faultRingCtrl) ∧
    atFaultsAndInvalidation1.hw.faultRecFlies = false ∧
    (∀ (g : FaultRec), g ∈ List.take 0 atFaultsAndInvalidation1.hw.atu.faults → g.unit_ = wFr.unit_ → g.index ≠ wFr.index) ∧
    (∀ (w : Requester), wFr.who = some w → atFaultsAndInvalidation1.hw.flying w = false) ∧
    atFaultsAndInvalidation1.hw.admitted (atFaultsAndInvalidation1.hw.ringBase Reg.faultRingBase + 64 * (BitVec.toNat (atFaultsAndInvalidation1.hw.reg Reg.faultTail) % 2 ^ ringLog (atFaultsAndInvalidation1.hw.reg Reg.faultRingCtrl))) 0 true true = true ∧
    List.find? (fun g => g.seq == wFr.seq) atFaultsAndInvalidation1.hw.atu.faults = some wFr ∧ atFaultsAndInvalidation1.serves Reg.faultHead ∧
    BitVec.toNat (atFaultsAndInvalidation1.hw.reg Reg.faultTail - 3#32) ≤ 2 ^ ringLog (atFaultsAndInvalidation1.hw.reg Reg.faultRingCtrl) ∧
    2 ^ ringLog (atFaultsAndInvalidation1.hw.reg Reg.faultRingCtrl) < BitVec.toNat (atFaultsAndInvalidation1.hw.reg Reg.faultTail - 2000#32) ∧
    atFaultsAndInvalidation2.hw.atu.faults[0]? = some wFr ∧ bitOf (atFaultsAndInvalidation2.hw.reg Reg.faultRingCtrl) 0 = true ∧
    BitVec.toNat (atFaultsAndInvalidation2.hw.reg Reg.faultTail - atFaultsAndInvalidation2.hw.reg Reg.faultHead) < 2 ^ ringLog (atFaultsAndInvalidation2.hw.reg Reg.faultRingCtrl) ∧
    atFaultsAndInvalidation2.hw.faultRecFlies = false ∧
    (∀ (g : FaultRec), g ∈ List.take 0 atFaultsAndInvalidation2.hw.atu.faults → g.unit_ = wFr.unit_ → g.index ≠ wFr.index) ∧
    (∀ (w : Requester), wFr.who = some w → atFaultsAndInvalidation2.hw.flying w = false) ∧
    atFaultsAndInvalidation2.hw.admitted (atFaultsAndInvalidation2.hw.ringBase Reg.faultRingBase + 64 * (BitVec.toNat (atFaultsAndInvalidation2.hw.reg Reg.faultTail) % 2 ^ ringLog (atFaultsAndInvalidation2.hw.reg Reg.faultRingCtrl))) 0 true true = false ∧
    atFaultsAndInvalidation3.serves Reg.ctxOp ∧ atFaultsAndInvalidation3.hw.ctx? 5 = some atFaultsAndInvalidation4 ∧ atFaultsAndInvalidation4.pause ≠ [] ∧ atFaultsAndInvalidation5.serves Reg.ctxOp ∧
    (∀ (y : Ctx), atFaultsAndInvalidation5.hw.ctx? 5 = some y → y.pause = []) ∧ atFaultsAndInvalidation6.serves Reg.tbInvCtrl ∧ atFaultsAndInvalidation6.hw.atu.inv = none ∧
    (0 = 1 → atFaultsAndInvalidation6.hw.reg64 Reg.tbInvSize % 2 ^ 48 ≠ 0) ∧ atFaultsAndInvalidation6.hw.atu.walks = [] ∧ atFaultsAndInvalidation7.serves Reg.tbInvCtrl ∧
    atFaultsAndInvalidation7.hw.atu.inv ≠ none ∧ atFaultsAndInvalidation7.hw.atu.inv = some wInvT ∧ wInvT.waits = [] := by
  unfold State.serves
  and_intros <;> decide +kernel

theorem witness_LpiPackets :
    atLpiPackets1.hw.unitUp (16 + 0) = true ∧ atLpiPackets1.hw.boot.rstPhase = none ∧ atLpiPackets1.hw.lpiFits 0 (atLpiPackets2.length / 16) = true ∧
    lpiMalformed atLpiPackets2 = false ∧ leField atLpiPackets2 0 1 = 2 ∧ atLpiPackets1.hw.scEn (16 * 0 + leField atLpiPackets2 1 1) = true ∧
    atLpiPackets1.hw.scSrc (16 * 0 + leField atLpiPackets2 1 1) = 0 ∧ atLpiPackets1.hw.scKind (16 * 0 + leField atLpiPackets2 1 1) ≠ 1 ∧
    leField atLpiPackets2 2 1 = atLpiPackets1.hw.scFmt (16 * 0 + leField atLpiPackets2 1 1) ∧
    leField atLpiPackets2 8 4 < atLpiPackets1.hw.scPositions (16 * 0 + leField atLpiPackets2 1 1) ∧ 2 = 2 ∧
    atLpiPackets1.hw.openParity (16 * 0 + leField atLpiPackets2 1 1) = none ∧ atLpiPackets3.hw.unitUp (16 + 0) = true ∧
    atLpiPackets3.hw.boot.rstPhase = none ∧ atLpiPackets3.hw.lpiFits 0 (atLpiPackets4.length / 16) = true ∧ lpiMalformed atLpiPackets4 = false ∧
    leField atLpiPackets4 0 1 = 2 ∧ atLpiPackets3.hw.scEn (16 * 0 + leField atLpiPackets4 1 1) = true ∧
    atLpiPackets3.hw.scSrc (16 * 0 + leField atLpiPackets4 1 1) = 0 ∧ atLpiPackets3.hw.scKind (16 * 0 + leField atLpiPackets4 1 1) ≠ 1 ∧
    leField atLpiPackets4 2 1 = atLpiPackets3.hw.scFmt (16 * 0 + leField atLpiPackets4 1 1) ∧
    leField atLpiPackets4 8 4 < atLpiPackets3.hw.scPositions (16 * 0 + leField atLpiPackets4 1 1) ∧
    atLpiPackets3.hw.frameCase (16 * 0 + leField atLpiPackets4 1 1) (BitVec.ofNat 32 (leField atLpiPackets4 4 4)) ≠ FrameCase.fresh ∧
    atLpiPackets3.hw.lpiFits 0 (atLpiPackets5.length / 16) = true ∧ lpiMalformed atLpiPackets5 = false ∧ leField atLpiPackets5 0 1 = 3 ∧
    atLpiPackets3.hw.scEn (16 * 0 + leField atLpiPackets5 1 1) = true ∧ atLpiPackets3.hw.scSrc (16 * 0 + leField atLpiPackets5 1 1) = 0 ∧
    atLpiPackets3.hw.scKind (16 * 0 + leField atLpiPackets5 1 1) ≠ 1 ∧
    leField atLpiPackets5 2 1 = atLpiPackets3.hw.scFmt (16 * 0 + leField atLpiPackets5 1 1) ∧
    leField atLpiPackets5 8 4 < atLpiPackets3.hw.scPositions (16 * 0 + leField atLpiPackets5 1 1) ∧ 3 = 3 ∧
    atLpiPackets3.hw.frameCase (16 * 0 + leField atLpiPackets5 1 1) (BitVec.ofNat 32 (leField atLpiPackets5 4 4)) = FrameCase.openAt 1 ∧
    atLpiPackets3.hw.gatePos (16 * 0 + leField atLpiPackets5 1 1) 1 < atLpiPackets3.hw.scPositions (16 * 0 + leField atLpiPackets5 1 1) ∧
    atLpiPackets3.hw.lpiFits 0 (atLpiPackets6.length / 16) = true ∧ lpiMalformed atLpiPackets6 = false ∧ leField atLpiPackets6 0 1 = 1 ∧
    atLpiPackets3.hw.scEn (16 * 0 + leField atLpiPackets6 1 1) = true ∧ atLpiPackets3.hw.scSrc (16 * 0 + leField atLpiPackets6 1 1) = 0 ∧
    atLpiPackets3.hw.scKind (16 * 0 + leField atLpiPackets6 1 1) ≠ 1 ∧ leField atLpiPackets6 2 1 = atLpiPackets3.hw.scFmt (16 * 0 + leField atLpiPackets6 1 1) ∧
    leField atLpiPackets6 8 4 < atLpiPackets3.hw.scPositions (16 * 0 + leField atLpiPackets6 1 1) ∧ 1 = 1 ∧
    atLpiPackets3.hw.lateAt (16 * 0 + leField atLpiPackets6 1 1) (BitVec.ofNat 32 (leField atLpiPackets6 4 4)) (leField atLpiPackets6 8 4) = false ∧
    leField atLpiPackets7 0 1 ≠ 2 ∧ leField atLpiPackets7 0 1 ≠ 3 ∧ atLpiPackets1.hw.lpiFits 0 (atLpiPackets7.length / 16) = true ∧
    lpiMalformed atLpiPackets7 = true ∧ atLpiPackets8.hw.unitUp (16 + 0) = true ∧ atLpiPackets8.hw.boot.rstPhase = none ∧
    leField atLpiPackets6 0 1 ≠ 2 ∧ leField atLpiPackets6 0 1 ≠ 3 ∧ atLpiPackets8.hw.lpiFits 0 (atLpiPackets6.length / 16) = true ∧
    atLpiPackets8.hw.scEn (16 * 0 + leField atLpiPackets6 1 1) = false ∧ atLpiPackets9.hw.unitUp (16 + 0) = true ∧ atLpiPackets9.hw.boot.rstPhase = none ∧
    atLpiPackets9.hw.lpiFits 0 (atLpiPackets6.length / 16) = true ∧ atLpiPackets9.hw.scEn (16 * 0 + leField atLpiPackets6 1 1) = true ∧
    (atLpiPackets9.hw.scSrc (16 * 0 + leField atLpiPackets6 1 1) ≠ 0 ∨ atLpiPackets9.hw.scKind (16 * 0 + leField atLpiPackets6 1 1) = 1 ∨ leField atLpiPackets6 2 1 ≠ atLpiPackets9.hw.scFmt (16 * 0 + leField atLpiPackets6 1 1) ∨ atLpiPackets9.hw.scPositions (16 * 0 + leField atLpiPackets6 1 1) ≤ leField atLpiPackets6 8 4) ∧
    atLpiPackets10.hw.unitUp (16 + 0) = true ∧ atLpiPackets10.hw.boot.rstPhase = none ∧ atLpiPackets10.hw.lpiFits 0 (atLpiPackets6.length / 16) = false := by
  and_intros <;> decide +kernel

theorem witness_StreamPositions :
    atStreamPositions1.hw.openParity 0 = some 1 ∧ atStreamPositions1.hw.gatePos 0 1 < atStreamPositions1.hw.scPositions 0 ∧
    (atStreamPositions1.hw.stream 0).holeTo ≤ atStreamPositions1.hw.gatePos 0 1 + 1 ∧ (atStreamPositions1.hw.stream 0).pend = [wMeta] ∧
    wMeta.pos = atStreamPositions1.hw.gatePos 0 1 ∧ wMeta.state ≠ stHole ∧ atStreamPositions1.hw.scLoft 0 = true ∧
    atStreamPositions1.hw.sliceOff (loftSlice (atStreamPositions1.hw.statusWord 0 (atStreamPositions1.hw.gatePos 0 1) % 2 ^ 21)) = false ∧
    atStreamPositions1.hw.loftBusy (atStreamPositions1.hw.statusWord 0 (atStreamPositions1.hw.gatePos 0 1) % 2 ^ 21) = false ∧
    (atStreamPositions1.hw.regFld (Reg.scLinePeriod 0) 23 0 = 0 ∨ BitVec.toNat atStreamPositions1.hw.now < atStreamPositions1.hw.reg64 (Reg.scOpenTime 0) + (atStreamPositions1.hw.gatePos 0 1 + 1) * atStreamPositions1.hw.regFld (Reg.scLinePeriod 0) 23 0 + atStreamPositions1.hw.regFld (Reg.scSlack 0) 23 0) ∧
    atStreamPositions2'.hw.openParity 0 = some 1 ∧ atStreamPositions2'.hw.gatePos 0 1 < atStreamPositions2'.hw.scPositions 0 ∧
    (atStreamPositions2'.hw.stream 0).holeTo ≤ atStreamPositions2'.hw.gatePos 0 1 + 1 ∧ (atStreamPositions2'.hw.stream 0).pend = [] ∧
    (atStreamPositions2'.hw.stream 0).sector = none ∧ atStreamPositions2'.hw.regFld (Reg.scLinePeriod 0) 23 0 ≠ 0 ∧
    atStreamPositions2'.hw.reg64 (Reg.scOpenTime 0) + (atStreamPositions2'.hw.gatePos 0 1 + 1) * atStreamPositions2'.hw.regFld (Reg.scLinePeriod 0) 23 0 + atStreamPositions2'.hw.regFld (Reg.scSlack 0) 23 0 ≤ BitVec.toNat atStreamPositions2'.hw.now ∧
    atStreamPositions3.hw.regBit (Reg.lnkStatus 0) 0 = true ∧ datagramOf wUdp = some wDg ∧ atStreamPositions3.hw.filterOf 0 wDg = some 3 ∧
    atStreamPositions3.hw.scEn (atStreamPositions3.hw.regFld (Reg.frCtrl 0 3) 6 0) = true ∧
    atStreamPositions3.hw.scSrc (atStreamPositions3.hw.regFld (Reg.frCtrl 0 3) 6 0) = 0 + 1 ∧
    atStreamPositions3.hw.scKind (atStreamPositions3.hw.regFld (Reg.frCtrl 0 3) 6 0) = 2 ∧ wDg.sumsOk = true ∧
    ((fld (atStreamPositions3.hw.reg (Reg.frOffsets 0 3)) 15 0 + if atStreamPositions3.hw.regBit (Reg.frCtrl 0 3) 12 = true then 4 else 2) ≤ wDg.payload.length) ∧
    fld (atStreamPositions3.hw.reg (Reg.frOffsets 0 3)) 31 16 ≤ wDg.payload.length ∧
    atStreamPositions3.hw.lpiHeld (atStreamPositions3.hw.regFld (Reg.frCtrl 0 3) 6 0 / 16) + ceilDiv (wDg.payload.length - fld (atStreamPositions3.hw.reg (Reg.frOffsets 0 3)) 31 16) 16 ≤ 16384 ∧
    atStreamPositions4.hw.regBit (Reg.lnkStatus 0) 0 = true ∧ atStreamPositions4.hw.filterOf 0 wDg = some 3 ∧
    (¬(atStreamPositions4.hw.scEn (atStreamPositions4.hw.regFld (Reg.frCtrl 0 3) 6 0) = true ∧ atStreamPositions4.hw.scSrc (atStreamPositions4.hw.regFld (Reg.frCtrl 0 3) 6 0) = 0 + 1 ∧ atStreamPositions4.hw.scKind (atStreamPositions4.hw.regFld (Reg.frCtrl 0 3) 6 0) ≠ 0) ∨ wDg.sumsOk = false ∨ (wDg.payload.length < fld (atStreamPositions4.hw.reg (Reg.frOffsets 0 3)) 15 0 + if atStreamPositions4.hw.regBit (Reg.frCtrl 0 3) 12 = true then 4 else 2) ∨ wDg.payload.length < fld (atStreamPositions4.hw.reg (Reg.frOffsets 0 3)) 31 16 ∨ 16384 < atStreamPositions4.hw.lpiHeld (atStreamPositions4.hw.regFld (Reg.frCtrl 0 3) 6 0 / 16) + ceilDiv (wDg.payload.length - fld (atStreamPositions4.hw.reg (Reg.frOffsets 0 3)) 31 16) 16) := by
  and_intros <;> decide +kernel

theorem witness_QueueSimpleCommands :
    wQ.frames = [wF] ∧ wF.buf = none ∧ atQueueSimpleCommands1.takes 0 wQ atQueueSimpleCommands2 ∧ leField atQueueSimpleCommands2 0 1 = 1 ∧ tailZero atQueueSimpleCommands2 16 = true ∧
    atQueueSimpleCommands1.takes 0 wQ atQueueSimpleCommands3 ∧ leField atQueueSimpleCommands3 0 1 = 4 ∧ vaOk atQueueSimpleCommands3 16 8 = true ∧ tailZero atQueueSimpleCommands3 32 = true ∧
    atQueueSimpleCommands1.hw.earlierDone 0 wQ = true ∧ atQueueSimpleCommands1.takes 0 wQ atQueueSimpleCommands4 ∧ leField atQueueSimpleCommands4 0 1 = 14 ∧ vaOk atQueueSimpleCommands4 16 8 = true ∧
    tailZero atQueueSimpleCommands4 24 = true ∧ atQueueSimpleCommands1.takes 0 wQ atQueueSimpleCommands5 ∧ leField atQueueSimpleCommands5 0 1 = 3 ∧ leField atQueueSimpleCommands5 32 1 = 0 ∧
    vaOk atQueueSimpleCommands5 16 8 = true ∧ leField atQueueSimpleCommands5 33 1 = 0 ∧ tailZero atQueueSimpleCommands5 34 = true ∧ atQueueSimpleCommands6.length = 8 ∧
    leField atQueueSimpleCommands5 24 8 ≤ leField atQueueSimpleCommands6 0 8 ∧ atQueueSimpleCommands1.takes 0 wQ atQueueSimpleCommands7 ∧ leField atQueueSimpleCommands7 0 1 = 3 ∧
    leField atQueueSimpleCommands7 32 1 = 0 ∧ vaOk atQueueSimpleCommands7 16 8 = true ∧ leField atQueueSimpleCommands7 33 1 = 0 ∧ tailZero atQueueSimpleCommands7 34 = true ∧
    atQueueSimpleCommands8.length = 8 ∧ leField atQueueSimpleCommands8 0 8 < leField atQueueSimpleCommands7 24 8 ∧ atQueueSimpleCommands9.takes 0 wQ atQueueSimpleCommands10 ∧
    leField atQueueSimpleCommands10 0 1 = 5 ∧ leField atQueueSimpleCommands10 16 1 < 96 ∧ leField atQueueSimpleCommands10 17 1 < 2 ∧ zeroAt atQueueSimpleCommands10 18 2 = true ∧
    tailZero atQueueSimpleCommands10 24 = true ∧ atQueueSimpleCommands9.hw.assigned (leField atQueueSimpleCommands10 16 1) wQ.ctx wQ.part = true ∧
    atQueueSimpleCommands9.hw.gateOpen (leField atQueueSimpleCommands10 16 1) (leField atQueueSimpleCommands10 17 1) (BitVec.ofNat 32 (leField atQueueSimpleCommands10 20 4)) = true ∧
    atQueueSimpleCommands9.takes 0 wQ atQueueSimpleCommands11 ∧ leField atQueueSimpleCommands11 0 1 = 5 ∧ leField atQueueSimpleCommands11 16 1 < 96 ∧ leField atQueueSimpleCommands11 17 1 < 2 ∧
    zeroAt atQueueSimpleCommands11 18 2 = true ∧ tailZero atQueueSimpleCommands11 24 = true ∧
    atQueueSimpleCommands9.hw.assigned (leField atQueueSimpleCommands11 16 1) wQ.ctx wQ.part = true ∧
    atQueueSimpleCommands9.hw.gateOpen (leField atQueueSimpleCommands11 16 1) (leField atQueueSimpleCommands11 17 1) (BitVec.ofNat 32 (leField atQueueSimpleCommands11 20 4)) = false := by
  unfold State.takes
  and_intros <;> decide +kernel

theorem witness_QueueControlCommands :
    atQueueSimpleCommands1.takes 0 wQ atQueueControlCommands1 ∧ leField atQueueControlCommands1 0 1 = 6 ∧ wQ.frames = [wF] ∧ wF.buf = none ∧
    vaOk atQueueControlCommands1 16 8 = true ∧ leField atQueueControlCommands1 40 1 < 4 ∧ zeroAt atQueueControlCommands1 41 1 = true ∧
    tailZero atQueueControlCommands1 44 = true ∧ atQueueSimpleCommands1.takes 0 wQ atQueueControlCommands2 ∧ leField atQueueControlCommands2 0 1 = 7 ∧ leField atQueueControlCommands2 16 8 = 0 ∧
    tailZero atQueueControlCommands2 30 = true ∧ leField atQueueControlCommands2 28 2 ≠ 0 ∧ leField atQueueControlCommands2 24 4 ≠ 0 ∧ atQueueSimpleCommands1.takes 0 wQ atQueueControlCommands3 ∧
    leField atQueueControlCommands3 0 1 = 8 ∧ vaOk atQueueControlCommands3 16 64 = true ∧ tailZero atQueueControlCommands3 28 = true ∧ leField atQueueControlCommands3 24 4 ≠ 0 ∧
    atQueueControlCommands4.takes 0 wQr atQueueControlCommands5 ∧ leField atQueueControlCommands5 0 1 = 9 ∧ wQr.frames = [wG, wF] ∧ wG.buf ≠ none ∧ wG.item = some 0 ∧
    wQr.batch = [] ∧ tailZero atQueueControlCommands5 16 = true ∧ atQueueControlCommands4.hw.item? 0 = some wIt ∧ wIt.queue = 0 ∧ wIt.quiet = false ∧
    wIt.state ≠ ItemState.done := by
  unfold State.takes
  and_intros <;> decide +kernel

theorem witness_QueueDispatchCommands :
    atQueueDispatchCommands1.takes 0 wQ wLa ∧ wQ.frames = [wF] ∧ wF.buf = none ∧ leField wLa 0 1 = 2 ∧
    launchBad { q := 0, x := wQ, p := wLa ++ atQueueDispatchCommands2, major := wQ.major, minor := leField wLa 1 1 % 16, item := 0 } = false ∧
    (kdescChecks wKd (wLa ++ atQueueDispatchCommands2) ((Option.map Ctx.cellarStride (atQueueDispatchCommands1.hw.ctx? wQ.ctx)).getD 0)).status = none ∧
    (leField wKd 24 4).testBit 1 = false ∧ (atQueueDispatchCommands1.hw.keep wQ.part).retired = false ∧ atQueueDispatchCommands1.takes 0 wQ atQueueDispatchCommands3 ∧
    leField atQueueDispatchCommands3 0 1 = 10 ∧ vaOk atQueueDispatchCommands3 16 1 = true ∧ tailZero atQueueDispatchCommands3 24 = true ∧ atQueueDispatchCommands1.takes 0 wQ atQueueDispatchCommands4 ∧
    leField atQueueDispatchCommands4 0 1 = 11 ∧ vaOk atQueueDispatchCommands4 16 128 = true ∧ leField atQueueDispatchCommands4 24 8 % 128 = 0 ∧
    leField atQueueDispatchCommands4 32 1 = 0 ∧ tailZero atQueueDispatchCommands4 33 = true ∧ atQueueDispatchCommands1.takes 0 wQ atQueueDispatchCommands5 ∧ leField atQueueDispatchCommands5 0 1 = 12 ∧
    leField atQueueDispatchCommands5 16 1 < 64 ∧ leField atQueueDispatchCommands5 17 1 < 2 ∧ zeroAt atQueueDispatchCommands5 18 2 = true ∧
    leField atQueueDispatchCommands5 20 4 < 2 ^ 21 ∧ leField atQueueDispatchCommands5 24 4 ≤ 8192 ∧ zeroAt atQueueDispatchCommands5 28 4 = true ∧
    tailZero atQueueDispatchCommands5 40 = true ∧ (atQueueDispatchCommands1.hw.loftHatch (leField atQueueDispatchCommands5 16 1)).isOpen = false ∧
    atQueueDispatchCommands1.hw.hatchRange wQ.part (leField atQueueDispatchCommands5 20 4) (leField atQueueDispatchCommands5 24 4) = true ∧ atQueueDispatchCommands6.takes 0 wQ atQueueDispatchCommands7 ∧
    leField atQueueDispatchCommands7 0 1 = 13 ∧ leField atQueueDispatchCommands7 16 1 < 64 ∧ tailZero atQueueDispatchCommands7 17 = true ∧
    (atQueueDispatchCommands6.hw.loftHatch (leField atQueueDispatchCommands7 16 1)).isOpen = true ∧
    (atQueueDispatchCommands6.hw.loftHatch (leField atQueueDispatchCommands7 16 1)).ctx = wQ.ctx ∧
    atQueueDispatchCommands6.hw.closers (BitVec.toNat (atQueueDispatchCommands6.hw.loftHatch (leField atQueueDispatchCommands7 16 1)).senders % 2 ^ atQueueDispatchCommands6.hw.inService) (atQueueDispatchCommands6.hw.loftHatch (leField atQueueDispatchCommands7 16 1)).partner ≠ [] ∧
    atQueueDispatchCommands1.takes 0 wQ atQueueDispatchCommands8 ∧ leField atQueueDispatchCommands8 0 1 = 11 ∧ vaOk atQueueDispatchCommands8 16 128 = true ∧
    leField atQueueDispatchCommands8 24 8 % 128 = 0 ∧ leField atQueueDispatchCommands8 24 8 ≠ 0 ∧ leField atQueueDispatchCommands8 32 1 = 1 ∧
    tailZero atQueueDispatchCommands8 33 = true := by
  unfold State.takes
  and_intros <;> decide +kernel

theorem witness_BatchesAndPolls :
    atQueueSimpleCommands1.takes 0 wQ atBatchesAndPolls1 ∧ wQ.frames = [wF] ∧ wF.buf = none ∧ leField atBatchesAndPolls1 0 1 = 15 ∧
    vaOk atBatchesAndPolls1 16 64 = true ∧ tailZero atBatchesAndPolls1 24 = true ∧ (bdescChecks wBd).status = none ∧ leField wBd 8 4 ≠ 0 ∧
    leField wBd 28 4 ≠ 0 ∧ leField wBd 24 4 ≠ 0 ∧
    ({ item := atQueueSimpleCommands1.hw.caller.nextItem, seqVa := leField wBd 0 8, stepRows := leField wBd 12 2, chunkMax := leField wBd 14 2, bufVa := leField wBd 16 8, packets := leField wBd 24 4, maxSteps := leField wBd 28 4, compVa := leField wBd 32 8, decodeMax := leField wBd 40 2, seqs := seqsOf wTab (leField wBd 8 4), rotor := 0, step := 0, segments := [], bad := none, finished := 0 } : Batch).compose ≠ [] ∧
    atBatchesAndPolls2.hw.queue? 0 = some wQb ∧ wQb.hold = some Hold.batch ∧ wQb.batch = [wBa] ∧
    (∀ (y : Item), y ∈ atBatchesAndPolls2.hw.itemsOf 0 → y.enclosing.contains wBa.item = true → y.state = ItemState.done) ∧
    atBatchesAndPolls2.hw.noStart wQb.ctx = false ∧ atBatchesAndPolls2.hw.resident wQb.ctx = true ∧ wBa.bad = none ∧ wBa.maxSteps ≤ wBa.step + 1 ∧
    atBatchesAndPolls2.hw.item? wBa.item = some atBatchesAndPolls3 ∧ atBatchesAndPolls3.queue = 0 ∧ atBatchesAndPolls3.quiet = false ∧
    atBatchesAndPolls3.state ≠ ItemState.done ∧ atBatchesAndPolls4.hw.queue? 0 = some wQf ∧ wQf.hold = some (Hold.fence 64 5) ∧
    wQf.holdItem = some 0 ∧ wQf.destroying = none ∧ atBatchesAndPolls4.hw.ctx? wQf.ctx = some wCtx ∧ wCtx.slot.isSome = true ∧
    wCtx.evicting = false ∧ atBatchesAndPolls4.hw.noStart wQf.ctx = false ∧ wQf.frames = [wF] ∧ wQf.loops = [] ∧ wQf.plan = none ∧
    atBatchesAndPolls4.hw.item? 0 = some atBatchesAndPolls5 ∧ atBatchesAndPolls5.queue = 0 ∧ atBatchesAndPolls5.quiet = false ∧
    atBatchesAndPolls5.state ≠ ItemState.done ∧ atBatchesAndPolls6.length = 8 ∧ 5 ≤ leField atBatchesAndPolls6 0 8 ∧ atBatchesAndPolls7.hw.queue? 0 = some wQw ∧
    wQw.hold = some Hold.write ∧ wQw.batch = [wBa] ∧ wBa.packets ≠ 0 := by
  unfold State.takes
  and_intros <;> decide +kernel

theorem witness_AdminOperations :
    atAdminOperations1.serves Reg.adminOp ∧ atAdminOperations1.hw.regBit Reg.adminStatus 31 = false ∧ (fld 0#32 7 0 = 0 ∨ 5 < fld 0#32 7 0) ∧
    atAdminOperations1.hw.caller.adminDue = none ∧ atAdminOperations1.hw.adminReady = true ∧ atAdminOperations1.hw.arg0 < 2 ^ 48 ∧ wCd.length = 64 ∧
    atAdminOperations1.hw.admitted atAdminOperations1.hw.arg0 0 true false = true ∧ ctxDescBad wCd = false ∧
    atAdminOperations1.hw.ctx? (leField wCd 0 2) = none ∧ atAdminOperations2.length = 64 ∧ ctxDescBad atAdminOperations2 = false ∧
    (atAdminOperations1.hw.ctx? (leField atAdminOperations2 0 2)).isSome = true ∧ wQd.length = 64 ∧
    (∀ (c : Bool × Status), c ∈ atAdminOperations1.hw.queueDescCodes wQd → c.fst = false) ∧
    atAdminOperations1.hw.queue? (leField wQd 0 2) = none ∧ atAdminOperations1.hw.ctx? (leField wQd 2 2) = some wCtx ∧ wCtx.plan = false ∧
    atAdminOperations1.hw.partEn (leField wQd 4 1) = true ∧ atAdminOperations1.hw.partPlan (leField wQd 4 1) = false ∧ atAdminOperations3.serves Reg.adminOp ∧
    atAdminOperations3.hw.regBit Reg.adminStatus 31 = false ∧ atAdminOperations3.hw.caller.adminDue = none ∧ atAdminOperations3.hw.adminReady = true ∧
    atAdminOperations3.hw.arg0 < 4096 ∧ atAdminOperations3.hw.ctx? atAdminOperations3.hw.arg0 = some wCtx ∧ atAdminOperations3.hw.queuesOf atAdminOperations3.hw.arg0 = [] ∧
    atAdminOperations4.serves Reg.adminOp ∧ atAdminOperations4.hw.regBit Reg.adminStatus 31 = false ∧ atAdminOperations4.hw.caller.adminDue = none ∧
    atAdminOperations4.hw.adminReady = true ∧ atAdminOperations4.hw.arg0 < 1024 ∧ atAdminOperations4.hw.queue? atAdminOperations4.hw.arg0 = some wQ ∧ wQ.plan = none ∧
    wQ.destroying = none ∧ atAdminOperations4.hw.ctx? wQ.ctx = some wCtx ∧ wCtx.evicting = false ∧ atAdminOperations5.serves Reg.adminOp ∧
    atAdminOperations5.hw.regBit Reg.adminStatus 31 = false ∧ atAdminOperations5.hw.caller.adminDue = none ∧ atAdminOperations5.hw.adminReady = true ∧
    atAdminOperations5.hw.arg0 < 4096 ∧ atAdminOperations5.hw.ctx? atAdminOperations5.hw.arg0 = some wCtx ∧ wCtx.slot.isSome = true ∧
    (∃ i, i ∈ atAdminOperations5.hw.ctxItems atAdminOperations5.hw.arg0 ∧ i.state ≠ ItemState.waiting) ∧ atAdminOperations6.serves Reg.adminOp ∧
    atAdminOperations6.hw.regBit Reg.adminStatus 31 = true ∧ atAdminOperations6.hw.caller.adminDue = none ∧
    atAdminOperations7 ∈ [Instr.ctxCreate (MemAnswer.data wCd), Instr.ctxDestroy, Instr.queueCreate (MemAnswer.data wCd), Instr.queueDestroy, Instr.ctxEvict] := by
  unfold State.serves
  and_intros <;> decide +kernel

theorem witness_Doorbells :
    atQueueSimpleCommands1.hw.queue? 0 = some wQ ∧ atQueueSimpleCommands1.serves (Reg.dbTail 0) ∧ wQ.plan = none ∧ wQ.destroying = none ∧
    BitVec.toNat (16#32 - wQ.head) ≤ 2 ^ wQ.ringLog ∧ BitVec.toNat (16#32 - wQ.tail) < 2 ^ 31 ∧
    atQueueSimpleCommands1.hw.resident wQ.ctx = true ∧ wQ.loops = [] ∧ atQueueSimpleCommands1.hw.noStart wQ.ctx = false ∧
    Option.map Ctx.evicting (atQueueSimpleCommands1.hw.ctx? wQ.ctx) = some false ∧ atQueueSimpleCommands1.serves (Reg.dbRecHead 0) ∧
    (¬(BitVec.toNat (wQ.recTail - 16#32) ≤ 2 ^ wQ.recLog ∧ BitVec.toNat (16#32 - wQ.recHead) < 2 ^ 31)) ∧
    (wQ.plan ≠ none ∨ wQ.destroying ≠ none ∨ ¬(BitVec.toNat (17#32 - wQ.head) ≤ 2 ^ wQ.ringLog ∧ BitVec.toNat (17#32 - wQ.tail) < 2 ^ 31)) ∧
    atDoorbells1.hw.queue? 0 = some wQ ∧ atDoorbells1.serves (Reg.dbTail 0) ∧ atDoorbells1.hw.ctx? wQ.ctx = some atDoorbells2 ∧
    atDoorbells2.slot = none ∧ atDoorbells2.resetMark = false ∧ atDoorbells1.hw.freeSlot = some 0 ∧ atDoorbells3.hw.queue? 0 = some wQ2 ∧
    atDoorbells3.serves (Reg.dbRecHead 0) ∧ wQ2.plan = none ∧ BitVec.toNat (wQ2.recTail - 5#32) ≤ 2 ^ wQ2.recLog ∧
    BitVec.toNat (5#32 - wQ2.recHead) < 2 ^ 31 := by
  unfold State.serves
  and_intros <;> decide +kernel

theorem witness_Kernels :
    atKernels1.hw.mayChoose 0 = true ∧ atKernels1.hw.choice 0 = some wJob0 ∧ atKernels1.hw.place 0 wJob0 = some 0 ∧
    wJob0.kflags.testBit 1 = false ∧ atKernels2.hw.spillDue 0 = some 6 ∧ atKernels2.hw.ctx? 6 = some atKernels3 ∧
    atKernels4.hw.kernel? 0 = some wK1 ∧ wK1.phase = 1 ∧ wK1.kind = RunKind.plain ∧ atKernels4.hw.noStart wK1.job.ctx = false ∧
    (atKernels4.hw.partPhys 0).Nodup ∧ atKernels5.hw.kernel? 0 = some wK3 ∧ wK3.phase = 2 ∧ wK3.kind = RunKind.plain ∧
    wK3.jobsCancelled = false ∧ atKernels5.hw.classAHeld = false ∧ atKernels5.hw.partSafety 0 = false ∧
    (∀ (p : Nat), p ∈ atKernels5.hw.partPhys 0 → (atKernels5.before p).run = CoreRun.idle ∧ (atKernels5.before p).loaded = true ∧ (atKernels5.before p).flags = 0#4) ∧
    atKernels5.hw.item? wK3.job.item = some wIt ∧ wIt.quiet = false ∧ wIt.state ≠ ItemState.done ∧
    atKernels6.hw.mayChoose 0 = true ∧ atKernels6.hw.nextCopy 0 = some wPri ∧ atKernels6.hw.noStart wPri.job.ctx = false ∧
    atKernels6.hw.place 0 wPri.job = some 0 ∧ atKernels7.hw.kernel? 0 = some atKernels8 ∧ atKernels8.phase = 0 ∧
    atKernels7.hw.noStart atKernels8.job.ctx = false ∧ atKernels7.hw.outgoingDone 0 = true ∧ atKernels8.cleared = false ∧
    atKernels7.hw.switches 0 atKernels8 = true ∧ (atKernels7.hw.keep 0).lastCtx = some 6 ∧ (atKernels7.hw.keep 0).hi ≤ 131072 ∧
    atKernels9.hw.kernel? 0 = some wKr ∧ wKr.phase = 0 ∧ wKr.restoreDue = true ∧ atKernels9.hw.noStart wKr.job.ctx = false ∧
    atKernels10.hw.kernel? 0 = some wKc ∧ wKc.phase = 0 ∧ atKernels10.hw.noStart wKc.job.ctx = false ∧
    atKernels10.hw.outgoingDone 0 = true ∧ wKc.cleared = true ∧ wKc.restoreDue = false ∧ wCode.length = wKc.job.bundles := by
  and_intros <;> decide +kernel

theorem witness_RecordsAndPlans :
    atRecordsAndPlans1.hw.queue? 0 = some wQ ∧ atRecordsAndPlans1.hw.oldestDone 0 = some wDone ∧ wDone.held = false ∧
    atRecordsAndPlans1.hw.recordFlies 0 = false ∧ (¬2 ^ wQ.recLog ≤ BitVec.toNat (wQ.recTail - wQ.recHead)) ∧ wDone.final = false ∧
    wQ.destroying = none ∧ atRecordsAndPlans1.hw.ctx? wQ.ctx = some wCtx ∧ wCtx.evicting = false ∧ atRecordsAndPlans2.hw.queue? 0 = some wQfull ∧
    atRecordsAndPlans2.hw.oldestDone 0 = some wDone ∧ atRecordsAndPlans2.hw.recordFlies 0 = false ∧
    2 ^ wQfull.recLog ≤ BitVec.toNat (wQfull.recTail - wQfull.recHead) ∧ wQfull.plan = none ∧
    atRecordsAndPlans3.hw.queue? 0 = some wQp ∧ atRecordsAndPlans3.hw.caller.planDue.contains 0 = true ∧ atRecordsAndPlans3.hw.classAHeld = false ∧
    wQp.plan = some (64, 4, 1) ∧ (atRecordsAndPlans3.hw.keep wQp.part).retired = false ∧ atRecordsAndPlans3.hw.partHeldBack wQp.part = false ∧
    wQp.frames = [] ∧ 0 < 4 ∧ (∀ (y : Item), y ∈ atRecordsAndPlans3.hw.itemsOf 0 → y.state = ItemState.done) ∧
    atRecordsAndPlans4.hw.queue? 0 = some wQp2 ∧ atRecordsAndPlans4.hw.caller.planDue.contains 0 = true ∧ atRecordsAndPlans4.hw.classAHeld = false ∧
    wQp2.plan = some (64, 4, 1) ∧ (atRecordsAndPlans4.hw.keep wQp2.part).retired = false ∧ atRecordsAndPlans4.hw.partHeldBack wQp2.part = false ∧
    wQp2.frames ≠ [] ∧ atRecordsAndPlans5.hw.queue? 0 = some wQ ∧ atRecordsAndPlans5.hw.recordFlies 0 = true := by
  and_intros <;> decide +kernel

theorem witness_OperatingPoints :
    atOperatingPoints1.hw.boot.good = true ∧ atOperatingPoints1.hw.session = false ∧ atOperatingPoints1.hw.power.hand = Handshake.idle ∧
    atOperatingPoints1.hw.power.next = none ∧ atOperatingPoints1.hw.regFault = false ∧ atOperatingPoints1.hw.desired < atOperatingPoints1.hw.curOp ∧
    atOperatingPoints2.hw.boot.good = true ∧ atOperatingPoints2.hw.power.hand = Handshake.asked ∧
    atOperatingPoints2.hw.power.goal = VoltGoal.raise 7 ∧ 7 < 8 ∧ atOperatingPoints3.hw.boot.good = true ∧
    atOperatingPoints3.hw.power.hand = Handshake.acked ∧ atOperatingPoints3.hw.power.next = none ∧ atOperatingPoints4.hw.boot.good = true ∧
    atOperatingPoints4.hw.session = false ∧ atOperatingPoints4.hw.power.hand = Handshake.idle ∧ atOperatingPoints4.hw.power.next = none ∧
    atOperatingPoints4.hw.regFault = false ∧ atOperatingPoints4.hw.curOp < atOperatingPoints4.hw.desired ∧ atOperatingPoints5.hw.boot.good = true ∧
    atOperatingPoints5.hw.power.hand = Handshake.asked ∧ atOperatingPoints5.hw.power.since + 1000000 ≤ atOperatingPoints5.hw.elapsed := by
  and_intros <;> decide +kernel

theorem witness_PowerMeasurements :
    atPowerMeasurements1.hw.boot.good = true ∧ atPowerMeasurements2.length = 17 ∧ atPowerMeasurements1.hw.regFld (Reg.pwrVid atPowerMeasurements1.hw.curOp) 15 8 < 10 ∧
    atPowerMeasurements1.hw.partEn 0 = true ∧ (atPowerMeasurements1.hw.partPhys 0).Nodup ∧
    (if atPowerMeasurements1.hw.regBit Reg.pwrCtrl 0 = true then Tbl.get (fun x => 0) atPowerMeasurements1.hw.power.bubbles 0 else 0) < 8 ∧
    atPowerMeasurements1.serves Reg.pwrCtrl ∧ atPowerMeasurements3.hw.boot.good = true ∧ 10 ≤ atPowerMeasurements3.hw.regFld (Reg.pwrVid atPowerMeasurements3.hw.curOp) 15 8 := by
  unfold State.serves
  and_intros <;> decide +kernel

theorem witness_DomainsComeUp :
    atDomainsComeUp1.hw.power.rising.contains 2 = true := by
  decide +kernel

theorem witness_DealerAdjustments :
    atDealerAdjustments1.hw.dealer.running = true ∧ atDealerAdjustments1.hw.tickWaits = false ∧ atDealerAdjustments1.hw.dealer.adjust = [] ∧
    atDealerAdjustments2.hw.dealer.running = true ∧ atDealerAdjustments2.hw.tickWaits = false ∧ atDealerAdjustments2.hw.dealer.adjust = [Adjust.step (-3 : Int)] ∧
    (0 : Int) ≤ ↑((atDealerAdjustments2.hw.dealer.time + atDealerAdjustments2.hw.dealer.incr) % timeWrap) + (-3 : Int) * (2 : Int) ^ 32 ∧
    atDealerAdjustments1.serves Reg.incr ∧ atDealerAdjustments1.hw.incrOf Reg.calIncrMin ≤ (4#36 * 2#36 ^ 32).toNat ∧
    (4#36 * 2#36 ^ 32).toNat ≤ atDealerAdjustments1.hw.incrOf Reg.calIncrMax ∧ atDealerAdjustments1.serves Reg.adjStep ∧
    (BitVec.toInt 3#32).natAbs ≤ atDealerAdjustments1.hw.regFld Reg.calStepMax 30 0 ∧ atDealerAdjustments1.serves Reg.loadCtrl ∧
    atDealerAdjustments1.hw.regFld Reg.loadNs 29 0 ≤ 999999999 ∧ atDealerAdjustments1.serves Reg.timeSource ∧
    atDealerAdjustments1.hw.regFld Reg.timeSource 1 0 ≠ BitVec.toNat 1#2 ∧
    (¬(atDealerAdjustments1.hw.incrOf Reg.calIncrMin ≤ BitVec.toNat 0#36 ∧ BitVec.toNat 0#36 ≤ atDealerAdjustments1.hw.incrOf Reg.calIncrMax)) ∧
    atDealerAdjustments1.hw.regFld Reg.calStepMax 30 0 < (BitVec.toInt 2147483647#32).natAbs ∧ atDealerAdjustments3.hw.dealer.running = true ∧
    atDealerAdjustments3.serves Reg.loadCtrl ∧ 999999999 < atDealerAdjustments3.hw.regFld Reg.loadNs 29 0 := by
  unfold State.serves
  and_intros <;> decide +kernel

theorem witness_DealerEvents :
    atDealerEvents1.hw.boot.aon = true ∧ atDealerEvents1.hw.dealer.running = false ∧ atDealerEvents1.hw.dealer.sealValid = true ∧
    atDealerEvents1.hw.dealer.sealLost = [] ∧ atDealerEvents1.hw.dealer.ledgerBad = [] ∧ atDealerEvents1.hw.dealer.openMark = false ∧
    atDealerEvents1.hw.boot.good = true ∧ atDealerEvents2.serves (Reg.stamp 0) ∧ atDealerEvents2.hw.dealer.running = true ∧
    atDealerEvents2.hw.dealer.ppsLast = none ∧ atDealerEvents2.hw.dealer.genDue 0 = true ∧ atDealerEvents2.hw.dealer.pulse 2 = [wPu] ∧
    wPu.edge ≤ atDealerEvents2.hw.dealer.elapsed ∧ atDealerEvents2.hw.dealer.ppsDue = true ∧
    atDealerEvents3.hw.genSettings 0 = ((atDealerEvents3.hw.dealer.gen 0).period, (atDealerEvents3.hw.dealer.gen 0).phase, (atDealerEvents3.hw.dealer.gen 0).align) := by
  unfold State.serves
  and_intros <;> decide +kernel

theorem witness_DealerSeal :
    atDealerSeal1.hw.dealer.running = true ∧ atDealerSeal1.serves Reg.sealCtrl ∧ atDealerSeal1.hw.regBit Reg.dlrStatus 0 = true ∧
    atDealerSeal1.hw.dealer.sealCount ≠ 4294967295#32 ∧ (¬atDealerSeal1.hw.regBit Reg.dlrStatus 0 = true ∨ false = false) ∧
    atDealerSeal1.serves (327680 + BitVec.toNat 280#16) ∧ 280 ≤ BitVec.toNat 280#16 ∧ BitVec.toNat 280#16 < 300 ∧
    BitVec.toNat 280#16 % 4 = 0 ∧ atDealerSeal1.hw.dealer.refused = none ∧ atDealerSeal2.hw.dealer.running = true ∧
    atDealerSeal2.serves Reg.sealCtrl ∧ (¬atDealerSeal2.hw.regBit Reg.dlrStatus 0 = true) ∧ atDealerSeal2.serves (327680 + BitVec.toNat 296#16) ∧
    280 ≤ BitVec.toNat 296#16 ∧ BitVec.toNat 296#16 < 300 ∧ BitVec.toNat 296#16 % 4 = 0 ∧
    atDealerSeal3.hw.dealer.running = true ∧ atDealerSeal3.hw.dealer.refused = some (0, 1, 280) ∧ 0 < atDealerSeal3.hw.dealer.elapsed / unitSec ∧
    atDealerSeal3.serves (Reg.ledgerData 0) ∧ atDealerSeal3.hw.dealer.entry (atDealerSeal3.hw.reg Reg.ledgerIdx) = some atDealerSeal4 ∧
    atDealerSeal3.hw.dealer.ledgerBad.contains (atDealerSeal3.hw.reg Reg.ledgerIdx) = false ∧ atDealerSeal5.hw.dealer.running = true ∧
    atDealerSeal5.hw.dealer.sealDue = true ∧ (¬atDealerSeal5.hw.regBit Reg.dlrStatus 0 = true) := by
  unfold State.serves
  and_intros <;> decide +kernel

theorem witness_LinkFrames :
    atLinkFrames1.hw.linkUp 0 = true ∧ atLinkFrames1.hw.regBit (Reg.injCtrl 0) 0 = false ∧
    (¬(64 ≤ atLinkFrames2.length + 4 ∧ atLinkFrames2.length + 4 ≤ atLinkFrames1.hw.regFld (Reg.lnkMaxframe 0) 13 0 + if frameTagged atLinkFrames2 = true then 4 else 0)) ∧
    atLinkFrames1.serves (Reg.txrTail 0 0) ∧
    BitVec.toNat (0#32 - atLinkFrames1.hw.reg (Reg.txrHead 0 0)) ≤ 2 ^ atLinkFrames1.hw.regFld (Reg.txrCtrl 0 0) 7 4 ∧
    atLinkFrames1.serves (Reg.rxrTail 0) ∧
    BitVec.toNat (0#32 - atLinkFrames1.hw.reg (Reg.rxrHead 0)) ≤ 2 ^ atLinkFrames1.hw.regFld (Reg.rxrCtrl 0) 7 4 ∧
    atLinkFrames1.hw.partner.path = none ∧ atLinkFrames1.hw.regBit (Reg.lnkCtrl 0) 3 = true ∧ atLinkFrames1.hw.unitUp (22 + 0) = true ∧
    64 ≤ atLinkFrames3.length + 4 ∧
    (atLinkFrames3.length + 4 ≤ atLinkFrames1.hw.regFld (Reg.lnkMaxframe 0) 13 0 + if frameTagged atLinkFrames3 = true then 4 else 0) ∧
    (beField atLinkFrames3 12 2 = 34824 ∨ frameType atLinkFrames3 = 34824) ∧ 64 ≤ atLinkFrames4.length + 4 ∧
    (atLinkFrames4.length + 4 ≤ atLinkFrames1.hw.regFld (Reg.lnkMaxframe 0) 13 0 + if frameTagged atLinkFrames4 = true then 4 else 0) ∧
    (¬(beField atLinkFrames4 12 2 = 34824 ∨ frameType atLinkFrames4 = 34824)) ∧ atLinkFrames1.hw.addressed 0 atLinkFrames4 = false ∧
    atLinkFrames5.hw.linkUp 0 = true ∧ atLinkFrames5.hw.regBit (Reg.injCtrl 0) 0 = false ∧ 64 ≤ atLinkFrames6.length + 4 ∧
    (atLinkFrames6.length + 4 ≤ atLinkFrames5.hw.regFld (Reg.lnkMaxframe 0) 13 0 + if frameTagged atLinkFrames6 = true then 4 else 0) ∧
    (¬(beField atLinkFrames6 12 2 = 34824 ∨ frameType atLinkFrames6 = 34824)) ∧ atLinkFrames5.hw.addressed 0 atLinkFrames6 = true ∧
    frameType atLinkFrames6 ≠ atLinkFrames5.hw.regFld Reg.htpCfg 15 0 ∧ frameStacked atLinkFrames6 = false ∧ frameType atLinkFrames6 = 35063 ∧
    List.take 6 atLinkFrames6 = asMulticast ∧ beField (frameBody atLinkFrames6) 4 1 = 0 ∧
    (atLinkFrames5.hw.regFld (Reg.lnkCtrl 0) 6 5 ≠ 0 ∧ beField (frameBody atLinkFrames6) 0 1 % 16 = 2 ∨ atLinkFrames5.hw.regFld (Reg.lnkCtrl 0) 6 5 = 2 ∧ beField (frameBody atLinkFrames6) 0 1 % 16 ∈ [0, 3, 8, 10]) ∧
    64 ≤ atLinkFrames7.length + 4 ∧
    (atLinkFrames7.length + 4 ≤ atLinkFrames1.hw.regFld (Reg.lnkMaxframe 0) 13 0 + if frameTagged atLinkFrames7 = true then 4 else 0) ∧
    (¬(beField atLinkFrames7 12 2 = 34824 ∨ frameType atLinkFrames7 = 34824)) ∧ atLinkFrames1.hw.addressed 0 atLinkFrames7 = true ∧
    frameType atLinkFrames7 ≠ atLinkFrames1.hw.regFld Reg.htpCfg 15 0 ∧
    (frameType atLinkFrames7 ≠ 35063 ∨ ¬beField (frameBody atLinkFrames7) 0 1 % 16 ∈ [0, 2, 3, 8, 10]) ∧
    ((datagramOf atLinkFrames7).bind fun g => atLinkFrames1.hw.filterOf 0 g) = none ∧
    (atLinkFrames1.hw.regBit (Reg.rxrCtrl 0) 0 = false ∨ atLinkFrames1.hw.reg (Reg.rxrHead 0) + BitVec.ofNat 32 (atLinkFrames1.hw.ringPending 0 8) = atLinkFrames1.hw.reg (Reg.rxrTail 0)) ∧
    atLinkFrames8.hw.linkUp 0 = true ∧ atLinkFrames8.hw.regBit (Reg.injCtrl 0) 0 = false ∧ 64 ≤ atLinkFrames9.length + 4 ∧
    (atLinkFrames9.length + 4 ≤ atLinkFrames8.hw.regFld (Reg.lnkMaxframe 0) 13 0 + if frameTagged atLinkFrames9 = true then 4 else 0) ∧
    (¬(beField atLinkFrames9 12 2 = 34824 ∨ frameType atLinkFrames9 = 34824)) ∧ atLinkFrames8.hw.addressed 0 atLinkFrames9 = true ∧
    frameType atLinkFrames9 ≠ atLinkFrames8.hw.regFld Reg.htpCfg 15 0 ∧
    (frameType atLinkFrames9 ≠ 35063 ∨ ¬beField (frameBody atLinkFrames9) 0 1 % 16 ∈ [0, 2, 3, 8, 10]) ∧
    ((datagramOf atLinkFrames9).bind fun g => atLinkFrames8.hw.filterOf 0 g) = none ∧ atLinkFrames8.hw.regBit (Reg.rxrCtrl 0) 0 = true ∧
    atLinkFrames8.hw.reg (Reg.rxrHead 0) + BitVec.ofNat 32 (atLinkFrames8.hw.ringPending 0 8) ≠ atLinkFrames8.hw.reg (Reg.rxrTail 0) ∧
    atLinkFrames8.hw.hostOk 0 = true ∧ frameStacked atLinkFrames9 = false ∧ atLinkFrames10.head? = some (MemAnswer.data wBuf) ∧
    wBuf.length = 32 ∧ leField wBuf 0 8 < 2 ^ 48 ∧ leField wBuf 0 8 % 64 = 0 ∧ leField wBuf 8 2 % 64 = 0 ∧
    atLinkFrames9.length ≤ leField wBuf 8 2 ∧ leField wBuf 8 2 ≤ 9664 ∧ zeroAt wBuf 10 6 = true ∧
    atLinkFrames8.hw.regBit (Reg.txrCtrl 0 2) 0 = true ∧
    atLinkFrames8.hw.reg (Reg.txrHead 0 2) + BitVec.ofNat 32 (atLinkFrames8.hw.ringPending 0 2) ≠ atLinkFrames8.hw.reg (Reg.txrTail 0 2) ∧
    atLinkFrames8.hw.classAHeld = false ∧
    (∀ (x : TxFrame), x ∈ Tbl.get (fun x => []) (atLinkFrames8.hw.link 0).queues 2 → x.src.rank ≠ 2) ∧ wTxd.length = 32 ∧
    leField wTxd 10 2 = 0 ∧ leField wTxd 0 8 < 2 ^ 48 ∧ zeroAt wTxd 14 2 = true ∧
    leField wTxd 8 2 + 4 ≤ atLinkFrames8.hw.regFld (Reg.lnkMaxframe 0) 13 0 ∧ leField wTxd 8 2 ≠ 0 ∧
    frameType (sliceBytes atLinkFrames11 0 (leField wTxd 8 2)) ≠ 34824 ∧ wTxz.length = 32 ∧ leField wTxz 10 2 = 0 ∧
    leField wTxz 0 8 < 2 ^ 48 ∧ zeroAt wTxz 14 2 = true ∧ leField wTxz 8 2 = 0 ∧ atLinkFrames12.hw.linkUp 0 = true ∧
    atLinkFrames12.hw.regBit (Reg.injCtrl 0) 0 = false ∧ atLinkFrames12.hw.session = false ∧ atLinkFrames12.hw.loft.mesh = [] ∧
    atLinkFrames12.hw.partner.closes = [] ∧ ((atLinkFrames12.hw.settle 0).link 0).sending = none ∧
    (atLinkFrames12.hw.settle 0).txClass 0 = some (3, wTf) := by
  unfold State.serves
  and_intros <;> decide +kernel

theorem witness_LinkAgents :
    (atLinkAgents1.hw.link 0).gclNext = some wGl ∧ wGl.cycleAt ≤ atLinkAgents1.hw.dealer.time ∧
    Tbl.get (fun x => []) (atLinkAgents1.hw.link 0).queues 7 = [] ∧ atLinkAgents1.hw.linkUp 0 = true ∧
    atLinkAgents1.hw.regFld (Reg.lnkCtrl 0) 6 5 = 1 ∧ atLinkAgents1.hw.regBit Reg.dlrStatus 1 = false ∧
    (atLinkAgents1.hw.link 0).as_.lastSync = none ∧ (atLinkAgents1.hw.link 0).as_.lastAnnounce = none ∧
    (atLinkAgents1.hw.link 0).asIn = [(atLinkAgents2, 5)] ∧ beField atLinkAgents2 0 1 % 16 = 2 ∧ atLinkAgents1.serves (Reg.injCtrl 0) ∧
    bitOf 1#32 0 = true ∧ (atLinkAgents3.hw.link 0).gclNext = none ∧ (atLinkAgents3.hw.link 0).gcl = some wGl ∧
    wGl.endsAt ≤ atLinkAgents3.hw.dealer.time ∧ wGl.gap = none ∧ Tbl.get (fun x => []) (atLinkAgents3.hw.link 0).queues 7 = [] ∧
    atLinkAgents3.hw.linkUp 0 = true ∧ atLinkAgents3.hw.regFld (Reg.lnkCtrl 0) 6 5 = 2 ∧ (atLinkAgents3.hw.link 0).as_.lastPdelay = none ∧
    (atLinkAgents3.hw.link 0).asIn = [(atLinkAgents4, 5)] ∧ beField atLinkAgents4 0 1 % 16 = 0 ∧
    (beField atLinkAgents4 6 2).testBit 9 = false ∧ Tbl.get (fun x => []) (atLinkAgents5.hw.link 0).queues 7 = [] ∧
    atLinkAgents5.hw.linkUp 0 = true ∧ atLinkAgents5.hw.regFld (Reg.lnkCtrl 0) 6 5 = 1 ∧ atLinkAgents5.hw.regBit Reg.dlrStatus 1 = true ∧
    (atLinkAgents5.hw.link 0).as_.lastSync = none ∧ Tbl.get (fun x => []) (atLinkAgents5.hw.link 0).held 0 = [wHf] ∧
    wHf.since + 100000 ≤ atLinkAgents5.hw.elapsed := by
  unfold State.serves
  and_intros <;> decide +kernel

theorem witness_PartnerSession :
    atPartnerSession1.hw.partner.inbox = [wB0] ∧ leField wB0 0 1 % 16 = HtpType.opening ∧ atPartnerSession1.hw.session = false ∧
    atPartnerSession1.hw.regFld Reg.ptnStatus 5 4 ≠ 1 ∧ atPartnerSession1.hw.peerPath = some 2 ∧ atPartnerSession1.hw.partnered = true ∧
    atPartnerSession1.hw.partner.lastOpen = none ∧ atPartnerSession1.hw.regFld Reg.ptnStatus 5 4 = 0 ∧ atPartnerSession2.hw.partner.inbox = [wB1] ∧
    leField wB1 0 1 % 16 = HtpType.openAck ∧ atPartnerSession2.hw.regFld Reg.ptnStatus 5 4 = 1 ∧
    leField wB1 1 1 = atPartnerSession2.hw.sessionNo ∧ atPartnerSession3.hw.partner.inbox = [wB2] ∧ leField wB2 0 1 % 16 = HtpType.ack ∧
    atPartnerSession3.hw.partner.unacked = [wHx] ∧
    (decide (1 ≤ (leField wB2 8 4 + 2 ^ 32 - wHx.seq) % 2 ^ 32 ∧ (leField wB2 8 4 + 2 ^ 32 - wHx.seq) % 2 ^ 32 < 2 ^ 31) = true) ∧
    atPartnerSession3.hw.partner.waiting = [] ∧ atPartnerSession4.hw.session = true ∧ atPartnerSession4.hw.partner.ackDue = true ∧
    atPartnerSession4.hw.partner.path = some 2 ∧ atPartnerSession5.hw.session = true ∧ atPartnerSession5.hw.partner.unacked = [wHx] ∧
    atPartnerSession5.hw.partner.timer = some 0 ∧ 0 + atPartnerSession5.hw.regFld Reg.htpRto 15 0 * 1000 ≤ atPartnerSession5.hw.elapsed ∧
    (¬atPartnerSession5.hw.regFld Reg.htpRetry 7 0 ≤ atPartnerSession5.hw.partner.retries + 1) ∧ atPartnerSession6.hw.session = true ∧
    atPartnerSession6.hw.partner.unacked = [wHx] ∧ atPartnerSession6.hw.partner.timer = some 0 ∧
    0 + atPartnerSession6.hw.regFld Reg.htpRto 15 0 * 1000 ≤ atPartnerSession6.hw.elapsed ∧
    atPartnerSession6.hw.regFld Reg.htpRetry 7 0 ≤ atPartnerSession6.hw.partner.retries + 1 ∧
    (∀ (k : Nat), k < 16 → atPartnerSession6.hw.ptnWaiters k = []) ∧ atPartnerSession7.hw.partner.inbox = [wB3] ∧
    leField wB3 0 1 % 16 = HtpType.data ∧ atPartnerSession8.hw.partner.inbox = [wB4] ∧ leField wB4 0 1 % 16 = HtpType.answer ∧
    List.find? (fun z => z.fst == leField wB4 16 4) atPartnerSession8.hw.partner.pieces = some (leField wB4 16 4, [wPo]) ∧
    atPartnerSession8.hw.partner.closes = [] ∧ atPartnerSession8.hw.partner.waiting = [] ∧ atPartnerSession9.hw.partner.inbox = [atPartnerSession10] ∧
    leField atPartnerSession10 0 1 % 16 = HtpType.notice ∧ coreTarget (leField atPartnerSession10 17 1) (leField atPartnerSession10 18 1) = true ∧
    (leField atPartnerSession10 16 1 = 0 ∨ atPartnerSession9.hw.partner.closes = [] ∧ atPartnerSession9.hw.partner.waiting = [] ∧ 0 < atPartnerSession9.hw.inService) ∧
    atPartnerSession11.hw.partner.inbox = [wB6] ∧ leField wB6 0 1 % 16 = HtpType.noticeReply ∧
    coreTarget (leField wB6 17 1) (leField wB6 18 1) = true ∧
    ((atPartnerSession11.hw.body (atPartnerSession11.hw.phys (hatchKey (leField wB6 17 1) (leField wB6 18 1) / 16))).hatch (hatchKey (leField wB6 17 1) (leField wB6 18 1) % 16)).closing = true ∧
    ((atPartnerSession11.hw.body (atPartnerSession11.hw.phys (hatchKey (leField wB6 17 1) (leField wB6 18 1) / 16))).hatch (hatchKey (leField wB6 17 1) (leField wB6 18 1) % 16)).gen = BitVec.ofNat 8 (leField wB6 19 1) := by
  and_intros <;> decide +kernel

theorem witness_PartnerFrames :
    atPartnerFrames1.hw.partner.inbox = [wB9] ∧ leField wB9 0 1 % 16 = HtpType.heartbeat ∧
    atPartnerFrames1.hw.partner.beaten = false ∧ atPartnerFrames1.serves Reg.ptnCtrl ∧ atPartnerFrames2.hw.partner.inbox = [wB7] ∧
    leField wB7 0 1 % 16 = HtpType.mirror ∧ atPartnerFrames2.hw.role = 2 ∧ atPartnerFrames2.hw.partner.mirrorIn = none ∧
    atPartnerFrames2.hw.mirrorEntry wEnt = some wMe ∧ leField wB7 20 2 < atPartnerFrames2.hw.mirrorCount ∧ leField wB7 24 8 = 0 ∧
    (sliceBytes wB7 32 (leField wB7 12 2)).length ≤ wMe.framed ∧
    0 < min (sliceBytes wB7 32 (leField wB7 12 2)).length wMe.bytes ∧ atPartnerFrames3.hw.partner.inbox = [wB8] ∧
    leField wB8 0 1 % 16 = HtpType.mirrorCommit ∧ (atPartnerFrames3.hw.underWay fun g => g == OwnGoal.mirror) = false ∧
    atPartnerFrames3.hw.role = 2 ∧ atPartnerFrames3.hw.partner.mirrorIn = some (atPartnerFrames3.hw.ownEpoch (leField wB8 16 4), atPartnerFrames4, wMd, false) ∧
    (∀ (j : Nat), j < atPartnerFrames3.hw.mirrorCount → ∃ e, atPartnerFrames3.hw.mirrorEntry ([wEnt].getD j []) = some e ∧ e.framed = mirrorGot atPartnerFrames4 j) ∧
    leField wB8 20 4 = atPartnerFrames3.hw.mirrorCount ∧ leField wB8 24 4 = wMd.length ∧
    leField wB8 28 4 = BitVec.toNat (crc32 wMd) ∧ atPartnerFrames5.hw.partner.inbox = [wB10] ∧
    leField wB10 0 1 % 16 = HtpType.cutArrive ∧ atPartnerFrames6.hw.partPhys 0 ≠ [] ∧ (atPartnerFrames6.hw.partPhys 0).Nodup ∧
    (∀ (c : Nat), c ∈ atPartnerFrames6.hw.partPhys 0 → ∃ w, (atPartnerFrames6.before c).cut = some w ∧ w.id = 3 ∧ w.x = true ∧ w.release = none) ∧
    atPartnerFrames6.hw.cutRun 0 3 = some wCu ∧ wCu.launch = none ∧ wCu.own = some (5 : Int) ∧
    List.find? (fun y => y.fst == wCu.use) wCu.others = some (wCu.use, (7 : Int)) ∧
    max (5 : Int) (7 : Int) + ((atPartnerFrames6.hw.regFld Reg.cutLead 19 0 * 2 ^ 32 : Nat) : Int) ≤ atPartnerFrames6.hw.cutTime ∧
    atPartnerFrames7.hw.partPhys 0 ≠ [] ∧ (atPartnerFrames7.hw.partPhys 0).Nodup ∧
    (∀ (c : Nat), c ∈ atPartnerFrames7.hw.partPhys 0 → ∃ w, (atPartnerFrames7.before c).cut = some w ∧ w.id = 3 ∧ w.x = true ∧ w.release = none) ∧
    atPartnerFrames7.hw.cutRun 0 3 = some wCu ∧
    atPartnerFrames7.hw.cutTime < max (5 : Int) (7 : Int) + ((atPartnerFrames7.hw.regFld Reg.cutLead 19 0 * 2 ^ 32 : Nat) : Int) ∧
    atPartnerFrames8.hw.partner.inbox = [atPartnerFrames9] ∧ leField atPartnerFrames9 0 1 % 16 = HtpType.opExchange ∧
    leField atPartnerFrames9 16 1 = 0 ∧ atPartnerFrames10.hw.power.proposal = some wPp ∧ wPp.n = leField atPartnerFrames11 20 4 ∧
    wPp.confirmed = false ∧ atPartnerFrames10.hw.partner.inbox = [atPartnerFrames11] ∧ leField atPartnerFrames11 0 1 % 16 = HtpType.opExchange ∧
    leField atPartnerFrames11 16 1 = 2 ∧ atPartnerFrames10.hw.leads = false ∧ atPartnerFrames12.hw.power.proposal = some wPp ∧
    wPp.n = leField atPartnerFrames13 20 4 ∧ atPartnerFrames12.hw.partner.inbox = [atPartnerFrames13] ∧
    leField atPartnerFrames13 0 1 % 16 = HtpType.opExchange ∧ leField atPartnerFrames13 16 1 = 2 ∧ atPartnerFrames12.hw.leads = true ∧
    wPp.volt = true ∧ atPartnerFrames12.hw.cutNs + (20000 : Int) ≤ ↑wPp.tsw ∧ atPartnerFrames14.hw.power.proposal = some wPp ∧
    wPp.n = leField atPartnerFrames15 20 4 ∧ atPartnerFrames14.hw.partner.inbox = [atPartnerFrames15] ∧
    leField atPartnerFrames15 0 1 % 16 = HtpType.opExchange ∧ leField atPartnerFrames15 16 1 = 3 ∧ atPartnerFrames14.hw.cutNs < ↑wPp.tsw ∧
    atPartnerFrames16.hw.partner.inbox = [atPartnerFrames17] ∧ leField atPartnerFrames17 0 1 % 16 = HtpType.opExchange ∧
    leField atPartnerFrames17 16 1 = 4 ∧ atPartnerFrames18.hw.partner.inbox = [wB11'] ∧ leField wB11' 0 1 % 16 = HtpType.opExchange ∧
    leField wB11' 16 1 = 1 ∧
    (¬(atPartnerFrames18.hw.power.inForce < atPartnerFrames18.hw.vidOf (leField wB11' 17 1) ∧ atPartnerFrames18.hw.curOp < leField wB11' 17 1)) := by
  unfold State.serves
  and_intros <;> decide +kernel

theorem witness_SafetyMonitor :
    0 < atSafetyMonitor1'.hw.inService ∧ atSafetyMonitor1'.hw.coreUp (atSafetyMonitor1'.hw.phys 0) = true ∧ (atSafetyMonitor1'.hw.joker 0).running = none ∧
    (atSafetyMonitor1'.hw.joker 0).begun < 8 ∧ atSafetyMonitor1'.hw.jokerTime 0 (atSafetyMonitor1'.hw.joker 0).begun = true ∧
    ((atSafetyMonitor1'.before (atSafetyMonitor1'.hw.phys 0)).canIssue = true → (atSafetyMonitor1'.before (atSafetyMonitor1'.hw.phys 0)).clock % 8 = 0) ∧
    atSafetyMonitor1'.hw.boot.good = true ∧ atSafetyMonitor1'.hw.classAHeld = false ∧
    (atSafetyMonitor1'.hw.checking = true → atSafetyMonitor1'.hw.regBit Reg.lfcStatus 31 = true) ∧ 1 ≤ BitVec.toNat 12#8 ∧
    BitVec.toNat 12#8 ≤ 12 ∧ atSafetyMonitor1'.hw.regBit Reg.smInjCtrl 31 = true ∧ atSafetyMonitor1'.serves Reg.smInjCtrl ∧
    atSafetyMonitor1'.serves Reg.ageHead ∧
    BitVec.toNat (atSafetyMonitor1'.hw.reg (safetyRing true).snd.snd.snd - 0#32) ≤ 2 ^ ringLog (atSafetyMonitor1'.hw.reg (safetyRing true).snd.fst) ∧
    atSafetyMonitor1'.hw.regBit Reg.smStatus 30 = false ∧ (atSafetyMonitor2.hw.joker 0).running = some (0, 0) ∧ atSafetyMonitor2.hw.safety.injJoker = [] ∧
    atSafetyMonitor2.serves Reg.smInjCtrl ∧ atSafetyMonitor2.hw.regBit Reg.smInjCtrl 31 = false ∧
    List.find? (fun y => y.part == 0 && y.ended && y.copy.isSome) atSafetyMonitor3.hw.caller.primaries = some wPri2 ∧
    atSafetyMonitor3.hw.safety.injRedeal = [] ∧ wPri2.mismatches false = [] ∧
    (if true = true then atSafetyMonitor4.hw.safety.verdictWait else atSafetyMonitor4.hw.safety.ageWait) = [wRec] ∧
    atSafetyMonitor4.hw.regBit (safetyRing true).snd.fst 0 = true ∧
    ringRoom (atSafetyMonitor4.hw.reg (safetyRing true).snd.snd.snd) (atSafetyMonitor4.hw.reg (safetyRing true).snd.snd.fst) (ringLog (atSafetyMonitor4.hw.reg (safetyRing true).snd.fst)) = true ∧
    atSafetyMonitor4.hw.admitted (atSafetyMonitor4.hw.ringBase (safetyRing true).fst + 32 * (BitVec.toNat (atSafetyMonitor4.hw.reg (safetyRing true).snd.snd.snd) % 2 ^ ringLog (atSafetyMonitor4.hw.reg (safetyRing true).snd.fst))) 0 true true = true ∧
    (atSafetyMonitor4.hw.underWay fun g => g == OwnGoal.safetyRing true) = false ∧ atSafetyMonitor4.hw.regBit Reg.smStatus 30 = true ∧
    atSafetyMonitor4.serves Reg.ageHead ∧
    2 ^ ringLog (atSafetyMonitor4.hw.reg (safetyRing false).snd.fst) < BitVec.toNat (atSafetyMonitor4.hw.reg (safetyRing false).snd.snd.snd - 100#32) ∧
    List.find? (fun y => y.part == 0) atSafetyMonitor5.hw.safety.verdicts = some wVr ∧ atSafetyMonitor5.hw.verdictReady wVr = true := by
  unfold State.serves
  and_intros <;> decide +kernel

theorem witness_CofferStores :
    atCofferStores1.serves Reg.elogCtrl ∧ atCofferStores1.serves (Reg.elogData 0) ∧ atCofferStores1.serves Reg.dumpData ∧ atCofferStores1.serves Reg.dumpStatus ∧
    atCofferStores1.serves (Reg.cofStage 1023) ∧ atCofferStores1.serves Reg.cofStoreCtrl ∧ atCofferStores1.hw.coffer.due = [] ∧
    atCofferStores1.hw.bootDone = true ∧ atCofferStores1.hw.coffer.session = none ∧ BitVec.toNat 0#4 ∈ [0, 3, 4, 7] ∧
    atCofferStores1.hw.regFld Reg.cofStoreLen 17 0 ≠ 0 ∧
    atCofferStores1.hw.regFld Reg.cofStoreLen 17 0 ≤ (cofferKind (BitVec.toNat 0#4)).limit ∧
    atCofferStores1.hw.wornCopy (BitVec.toNat 0#4) (atCofferStores1.hw.storeTarget (BitVec.toNat 0#4)).fst = false ∧
    (¬2 ∈ atCofferStores1.hw.coffer.due) ∧ atCofferStores2.serves Reg.cofStoreCtrl ∧ atCofferStores2.hw.coffer.due = [] ∧ atCofferStores2.hw.bootDone = true ∧
    atCofferStores2.hw.coffer.session = some wSs ∧ BitVec.toNat (1 : Byte) < wSs.reach ∧
    (¬BitVec.toNat (1 : Byte) ∈ wSs.chunks) ∧ atCofferStores3.serves Reg.cofStoreCtrl ∧ atCofferStores3.hw.coffer.due = [] ∧
    atCofferStores3.hw.bootDone = true ∧ atCofferStores3.hw.coffer.session = some wSs2 ∧ (∀ (k : Nat), k < wSs2.reach → k ∈ wSs2.chunks) ∧
    atCofferStores3.hw.coffer.bad (wSs2.base + 64) wSs2.length = false ∧ atCofferStores4.serves Reg.cofStoreCtrl ∧ atCofferStores4.hw.coffer.due ≠ [] ∧
    2 ∈ atCofferStores4.hw.coffer.due := by
  unfold State.serves
  and_intros <;> decide +kernel

theorem witness_CommitProtocol :
    atCommitProtocol1.serves Reg.commitCtrl ∧ atCommitProtocol1.hw.captured = none ∧ atCommitProtocol1.hw.bootDone = true ∧ atCommitProtocol2.serves Reg.commitCtrl ∧
    atCommitProtocol2.hw.captured ≠ none ∧ atCommitProtocol2.hw.captured = some atCommitProtocol3 ∧ atCommitProtocol3.due = true ∧
    conflicts ({ atCommitProtocol2.hw with captured := none } : Hw) (({ atCommitProtocol2.hw with captured := none } : Hw).withSet atCommitProtocol3.regs) ≠ [] ∧
    atCommitProtocol4.serves Reg.commitCtrl ∧ atCommitProtocol4.hw.captured = some wGoodC ∧ wGoodC.due = true ∧
    conflicts ({ atCommitProtocol4.hw with captured := none } : Hw) (({ atCommitProtocol4.hw with captured := none } : Hw).withSet wGoodC.regs) = [] := by
  unfold State.serves
  and_intros <;> decide +kernel

theorem witness_ActiveCopy :
    atActiveCopy1 = some atActiveCopy2 ∧ atActiveCopy3 = some atActiveCopy4 ∧ atActiveCopy5 = some atActiveCopy6 ∧ atActiveCopy7 = some atActiveCopy8 := by
  and_intros <;> decide +kernel

theorem witness_ResetsAndRetirement :
    atResetsAndRetirement1.serves Reg.ctxRst ∧ atResetsAndRetirement1.hw.regBit Reg.rstStatus 31 = true ∧ atResetsAndRetirement2.serves Reg.ctxRst ∧
    atResetsAndRetirement2.hw.regBit Reg.rstStatus 31 = false ∧ atResetsAndRetirement2.hw.ctx? 6 = none ∧ (atResetsAndRetirement2.hw.ctx? 5).isSome = true ∧
    atResetsAndRetirement2.hw.kernelsOf 5 = [] ∧ atResetsAndRetirement2.hw.caller.resets = [] ∧ (∀ (q : Nat), q < 16 → (atResetsAndRetirement2.hw.keep q).retired = false) ∧
    atResetsAndRetirement3.hw.caller.resets = [wR0] ∧ wR0.ctx = 5 ∧ wR0.ended = false ∧ wR0.clears = [] ∧ atResetsAndRetirement3.hw.recordsDue 5 = false ∧
    wR0.genDone = false ∧ (atResetsAndRetirement3.hw.ctx? 5).isSome = true ∧
    atResetsAndRetirement3.hw.orphanHolds 5 ((atResetsAndRetirement3.hw.genOf 5 + 1) % 16) = false ∧ atResetsAndRetirement4.hw.caller.resets = [wR0] ∧
    (atResetsAndRetirement4.hw.ctx? 5).isSome = true ∧ atResetsAndRetirement4.hw.orphanHolds 5 ((atResetsAndRetirement4.hw.genOf 5 + 1) % 16) = true ∧
    List.find? (fun x => x.fst == 0) atResetsAndRetirement5.hw.boot.retiring = some (0, 1) ∧ atResetsAndRetirement5.hw.servedBy 0 = some 0 ∧
    atResetsAndRetirement5.hw.atBoundary 0 = true ∧ atResetsAndRetirement5.hw.boot.kittyFree ≠ [] ∧
    List.find? (fun x => x.fst == 0) atResetsAndRetirement6.hw.boot.leaving = some (0, 1) ∧ atResetsAndRetirement6.hw.servedBy 0 = some 0 ∧
    atResetsAndRetirement6.hw.nearestKitty 0 = some 64 ∧ List.find? (fun x => x.fst == 0) atResetsAndRetirement7.hw.boot.leaving = some (0, 1) ∧
    atResetsAndRetirement7.hw.servedBy 0 = some 0 ∧ atResetsAndRetirement7.hw.boot.kittyFree = [] ∧ atResetsAndRetirement7.hw.atBoundary (atResetsAndRetirement7.hw.inService - 1) = true ∧
    0 < atResetsAndRetirement7.hw.inService ∧
    (∀ (q : Nat), atResetsAndRetirement7.hw.partOf (atResetsAndRetirement7.hw.inService - 1) = some q → atResetsAndRetirement7.hw.partPlan q = false ∧ (atResetsAndRetirement7.hw.keep q).lastCtx = none) := by
  unfold State.serves
  and_intros <;> decide +kernel

theorem witness_BootAndEngineReset :
    atBootAndEngineReset1.serves Reg.engRst ∧ atBootAndEngineReset1.hw.boot.good = true ∧ atBootAndEngineReset1.hw.boot.rstPhase = none ∧ atBootAndEngineReset1.hw.contexts = [] ∧
    (21060#16 ≠ 21061#16 ∨ atBootAndEngineReset1.hw.boot.rstPhase ≠ none) ∧ atBootAndEngineReset2.hw.boot.rstPhase = some 1 ∧
    atBootAndEngineReset2.hw.planRecordsDue = false ∧ atBootAndEngineReset3.hw.boot.rstPhase = some 2 ∧ atBootAndEngineReset3.hw.saved = true ∧
    atBootAndEngineReset4.hw.boot.rstPhase = some 3 ∧ atBootAndEngineReset4.hw.boot.held = false ∧ atBootAndEngineReset4.hw.boot.engLow = true ∧
    atBootAndEngineReset5.hw.boot.rstPhase = some 3 ∧ atBootAndEngineReset5.hw.boot.held = false ∧ atBootAndEngineReset5.hw.boot.engLow = false ∧
    atBootAndEngineReset6.hw.boot.rstPhase = some 5 ∧ atBootAndEngineReset6.hw.checkPassed = true ∧ atBootAndEngineReset7.hw.checking = true ∧
    atBootAndEngineReset7.hw.regBit Reg.lfcStatus 31 = false ∧ 131070#17 ≠ 131071#17 ∧ atBootAndEngineReset8.hw.boot.phase = some 1 ∧
    atBootAndEngineReset8.hw.boot.rstPhase = none ∧ atBootAndEngineReset9.hw.boot.phase = some 2 ∧ atBootAndEngineReset9.hw.checkPassed = true ∧
    atBootAndEngineReset10.hw.boot.phase = some 4 ∧ atBootAndEngineReset10.hw.fetchOver = true ∧ atBootAndEngineReset11.hw.boot.phase = some 4 ∧
    atBootAndEngineReset11.hw.regBit Reg.bootStatus 12 = false ∧ atBootAndEngineReset11.hw.boot.image < atBootAndEngineReset11.hw.imageCount ∧
    atBootAndEngineReset11.hw.boot.again = false ∧ atBootAndEngineReset12.hw.boot.phase = some 4 ∧ atBootAndEngineReset12.hw.regBit Reg.bootStatus 12 = false ∧
    atBootAndEngineReset12.hw.boot.image < atBootAndEngineReset12.hw.imageCount ∧ atBootAndEngineReset12.hw.boot.again = true := by
  unfold State.serves
  and_intros <;> decide +kernel

theorem witness_PinsAndPower :
    atPinsAndPower1.hw.boot.aon = false ∧ atPinsAndPower1.hw.boot.testEn = false ∧ atPinsAndPower2.hw.boot.aon = true ∧ atPinsAndPower2.hw.boot.good = false ∧
    atPinsAndPower2.hw.boot.engLow = false ∧ atPinsAndPower2.hw.boot.dlrLow = false ∧ atPinsAndPower3.hw.boot.good = true ∧
    atPinsAndPower3.hw.boot.rstPhase = none ∧ atPinsAndPower3.hw.contexts = [] ∧ atPinsAndPower3.hw.bootDone = true ∧ atPinsAndPower4.hw.boot.held = true ∧
    atPinsAndPower4.hw.boot.good = true ∧ atPinsAndPower5.hw.boot.held = false ∧ atPinsAndPower5.hw.boot.good = true ∧ atPinsAndPower5.hw.boot.rstPhase = none ∧
    atPinsAndPower5.hw.boot.phase = none ∧ atPinsAndPower5.hw.bootDone = false ∧ atPinsAndPower5.hw.boot.stopped = false ∧ atPinsAndPower6.hw.boot.testEn = true ∧
    atPinsAndPower7.hw.boot.testEn = true ∧ atPinsAndPower7.hw.boot.wir = 4#4 ∧ atPinsAndPower7.hw.boot.good = true ∧ 5 ∈ atPinsAndPower7.hw.boot.segments ∧
    atPinsAndPower7.hw.boot.held = true ∧ atPinsAndPower8.hw.boot.testEn = true ∧ atPinsAndPower8.hw.boot.wir = 4 ∧ atPinsAndPower8.hw.boot.good = true ∧
    5 ∈ atPinsAndPower8.hw.boot.segments ∧ atPinsAndPower8.hw.boot.held = false := by
  and_intros <;> decide +kernel

theorem witness_ReservedOffsetsAndPairs :
    regRow (BitVec.toNat 8388604#23) = none ∧ atReservedOffsetsAndPairs1.hw.boot.aon = true ∧
    (15#4 ≠ 15#4 ∨ BitVec.toNat 8388605#23 % 4 ≠ 0) ∧ regRow (BitVec.ofNat 23 wLoOff).toNat = some atReservedOffsetsAndPairs2 ∧
    (BitVec.ofNat 23 wLoOff).toNat % 4 = 0 ∧ atReservedOffsetsAndPairs1.serves (BitVec.ofNat 23 wLoOff).toNat ∧
    deniedAccess false (BitVec.ofNat 23 wLoOff).toNat (BitVec.toNat 1#3) = false ∧ atReservedOffsetsAndPairs2.pair = RegPair.lo ∧
    regRow (BitVec.ofNat 23 (wLoOff + 4)).toNat = some atReservedOffsetsAndPairs3 ∧ (BitVec.ofNat 23 (wLoOff + 4)).toNat % 4 = 0 ∧
    atReservedOffsetsAndPairs1.serves (BitVec.ofNat 23 (wLoOff + 4)).toNat ∧
    deniedAccess false (BitVec.ofNat 23 (wLoOff + 4)).toNat (BitVec.toNat 1#3) = false ∧ atReservedOffsetsAndPairs3.pair = RegPair.hi := by
  unfold State.serves
  and_intros <;> decide +kernel

theorem witness_AbiRequestWithQueues :
    atAbiRequestWithQueues1.serves Reg.abiReq ∧ atAbiRequestWithQueues1.hw.hostQueues = true := by
  unfold State.serves
  and_intros <;> decide +kernel

theorem witness_RegisterWrites :
    (14#4 ≠ 15#4 ∨ BitVec.toNat 16#23 % 4 ≠ 0) ∧ atRegisterWrites1.serves Reg.hangCtrl ∧ atRegisterWrites1.serves Reg.pwrOpReq ∧
    atRegisterWrites1.serves Reg.faultRingBase ∧ atRegisterWrites1.serves (Reg.faultRingBase + 4) ∧ atRegisterWrites1.serves Reg.abiReq ∧
    atRegisterWrites1.hw.hostQueues = false ∧ atRegisterWrites1.hw.boot.good = true ∧ (atRegisterWrites1.hw.reg64 Reg.irqPend).testBit 5 = true ∧
    (atRegisterWrites1.hw.irqOffer = some 5 ∨ atRegisterWrites1.hw.irqOffer = none ∧ lowestVector (atRegisterWrites1.hw.reg64 Reg.irqPend) = some 5) ∧
    atRegisterWrites1.serves Reg.irqTest := by
  unfold State.serves
  and_intros <;> decide +kernel

end Sys2Proof.Tests
end

section
/-!
PROOFS. The register port and interrupt messages (00_scope.md R11 to R23; 16_boundary_and_register_map.md R612): the
register file, the accesses of the port case by case, and the statements that these settle.
-/
namespace Sys2Proof

/-- A key reads what it was given when it is among those written, or when it read that before. -/
theorem Tbl.get_foldl_put {α : Type} [DecidableEq α] (d f : Nat → α) (xs : List Nat) (t : Tbl α) {x : Nat}
    (hx : x ∈ xs ∨ Tbl.get d t x = f x) : Tbl.get d (xs.foldl (fun t y => Tbl.put d t y (f y)) t) x = f x := by
  induction xs generalizing t with
  | nil => exact hx.resolve_left List.not_mem_nil
  | cons y ys ih =>
    refine ih _ ?_
    by_cases hxy : x = y
    · exact .inr (by rw [hxy, Tbl.get_put_same])
    · simpa [Tbl.get_put, hxy] using hx

end Sys2Proof

namespace Sys2Proof.Machine

open Sys2Proof

/-! ### The register file -/

theorem Hw.reg_setReg (h : Hw) (o x : Nat) (v : Word) : (h.setReg o v).reg x = if x = o then v else h.reg x :=
  Tbl.get_put _ _ _ _ _

@[simp] theorem Hw.reg_setReg_same (h : Hw) (o : Nat) (v : Word) : (h.setReg o v).reg o = v := by simp [Hw.reg_setReg]

theorem Hw.reg_setReg_other (h : Hw) {o x : Nat} (v : Word) (hx : x ≠ o) : (h.setReg o v).reg x = h.reg x := by
  simp [Hw.reg_setReg, hx]

@[simp] theorem Hw.setReg_shadowReg (h : Hw) (o x : Nat) (v : Word) : (h.setReg o v).shadowReg x = h.shadowReg x := rfl

@[simp] theorem Hw.setShadow_reg (h : Hw) (o x : Nat) (v : Word) : (h.setShadow o v).reg x = h.reg x := rfl

@[simp] theorem Hw.shadowReg_setShadow_same (h : Hw) (o : Nat) (v : Word) : (h.setShadow o v).shadowReg o = v :=
  Tbl.get_put_same _ _ _ _

@[simp] theorem Hw.stagedLo_stage_same (h : Hw) (o : Nat) (v : Word) : (h.stage o v).stagedLo o = v :=
  Tbl.get_put_same _ _ _ _

theorem Hw.reg64_lt (h : Hw) (o : Nat) : h.reg64 o < 2 ^ 64 := by
  have lo := (h.reg o).isLt
  have hi := (h.reg (o + 4)).isLt
  unfold Hw.reg64
  omega

/-- A pair reads as it was set (R19). -/
theorem Hw.reg64_setReg64 (h : Hw) (o : Nat) {n : Nat} (hn : n < 2 ^ 64) : (h.setReg64 o n).reg64 o = n := by
  simp only [Hw.reg64, Hw.setReg64, Hw.reg_setReg_same, Hw.reg_setReg_other _ _ (show o ≠ o + 4 by omega),
    BitVec.toNat_ofNat]
  omega

/-- A register outside a pair keeps the pair's value when it is set. -/
theorem Hw.reg64_setReg_other (h : Hw) {o x : Nat} (v : Word) (hlo : o ≠ x) (hhi : o + 4 ≠ x) :
    (h.setReg x v).reg64 o = h.reg64 o := by
  simp [Hw.reg64, Hw.reg_setReg_other, hlo, hhi]

@[simp] theorem word_and_ones (w : Word) : w &&& 4294967295#32 = w := BitVec.and_allOnes

@[simp] theorem mixMask_zero (old new : Word) : mixMask 0 old new = old := by simp [mixMask]

/-! ### The commands, by the effect of each -/

theorem exec_pairLoRead (s : State) (o : BitVec 23) (be : BitVec 4) (cls : BitVec 3) :
    exec (.pairLoRead o be cls) s = s.done fun e => e.portRead o.toNat be.toNat cls.toNat := rfl

theorem exec_registerWrite (s : State) (o : BitVec 23) (be : BitVec 4) (v : Word) (cls : BitVec 3) :
    exec (.registerWrite o be v cls) s = s.done fun e => e.portWrite o.toNat be.toNat v cls.toNat := rfl

/-- PAIR_HI_WRITE is the write of a _HI word (R20). -/
theorem exec_pairHiWrite (s : State) {o : BitVec 23} (v : Word) (cls : BitVec 3) (hp : pairHigh o.toNat = true) :
    exec (.pairHiWrite o v cls) s = exec (.registerWrite o 15 v cls) s := by
  have hexec : exec (.pairHiWrite o v cls) s =
    s.done fun e => if pairHigh o.toNat then e.portWrite o.toNat 15 v cls.toNat else e := rfl
  simp [hexec, exec_registerWrite, hp]

/-- A command at the register port, where its offset is served, changes the hardware alone. -/
theorem State.done_atPort (s : State) {o : Nat} (f : Hw → Hw) (hs : s.serves o) :
    s.done (fun e => e.atPort o fun e => e.up f) = .next (s.withHw (f s.hw)) := by
  have hs : (Eff.start s.hw s.mem).hw.served o = true := hs
  rw [State.done_next, Eff.atPort_served _ hs]
  rfl

theorem exec_abiReqWrite (s : State) (v : Word) (hs : s.serves Reg.abiReq) :
    exec (.abiReqWrite v) s = .next (s.withHw (s.hw.abiWrite v)) :=
  s.done_atPort (fun h => h.abiWrite v) hs

theorem exec_irqMessage (s : State) : exec .irqMessage s = .next (s.withHw s.hw.irqMessage) := rfl

theorem exec_irqTest (s : State) (vec : BitVec 6) (hs : s.serves Reg.irqTest) :
    exec (.irqTest vec) s = .next (s.withHw (s.hw.irq vec.toNat)) :=
  s.done_atPort (fun h => h.irq vec.toNat) hs

/-! ### Accesses that reach no register (R17, R18) -/

/-- An access that is no aligned whole word, as the port's test sees it. -/
theorem narrow_toNat {o : BitVec 23} {be : BitVec 4} (hn : be ≠ 15 ∨ o.toNat % 4 ≠ 0) :
    be.toNat ≠ 15 ∨ o.toNat % 4 ≠ 0 :=
  hn.imp_left fun hb heq => hb (BitVec.eq_of_toNat_eq heq)

theorem exec_pairLoRead_narrow (s : State) {o : BitVec 23} {be : BitVec 4} (cls : BitVec 3)
    (hn : be ≠ 15 ∨ o.toNat % 4 ≠ 0) (ha : s.hw.boot.aon = true) :
    exec (.pairLoRead o be cls) s = .next (s.withHw { s.hw with rdata := 0 }) := by
  have hn := narrow_toNat hn
  simp [exec_pairLoRead, Eff.portRead, State.done_up, State.withHw, ha, hn]

theorem exec_registerWrite_narrow (s : State) {o : BitVec 23} {be : BitVec 4} (v : Word) (cls : BitVec 3)
    (hn : be ≠ 15 ∨ o.toNat % 4 ≠ 0) : exec (.registerWrite o be v cls) s = .next s := by
  have hn := narrow_toNat hn
  simp [exec_registerWrite, Eff.portWrite, State.done_next, hn]

/-- From `h` to `k` no core changes, no shadow or staged word, and no register but the log of a denied access. -/
def Hw.logsOnly (h k : Hw) : Prop :=
  k.cores = h.cores ∧ k.shadow = h.shadow ∧ k.staged = h.staged ∧
    ∀ r, r ∉ [Reg.regFwLog, Reg.regFwCnt] → k.reg r = h.reg r

theorem Hw.logsOnly_refl (h : Hw) : h.logsOnly h := ⟨rfl, rfl, rfl, fun _ _ => rfl⟩

/-- What the log of a denied access takes: a word, and one more count. -/
theorem Hw.logsOnly_setReg_satReg (h : Hw) (v : Word) :
    h.logsOnly ((h.setReg Reg.regFwLog v).satReg Reg.regFwCnt) := by
  refine ⟨rfl, rfl, rfl, fun r hr => ?_⟩
  obtain ⟨hlog, hcnt⟩ : r ≠ Reg.regFwLog ∧ r ≠ Reg.regFwCnt := by simpa using hr
  exact (Hw.reg_setReg_other _ _ hcnt).trans (Hw.reg_setReg_other _ _ hlog)

theorem Hw.logsOnly_denied (h : Hw) (write : Bool) (o cls : Nat) : h.logsOnly (h.denied write o cls) := by
  unfold Hw.denied
  split
  · exact h.logsOnly_setReg_satReg _
  · exact h.logsOnly_refl

/-- A read where no register is assigned returns zero, and at most its denial is logged. -/
theorem exec_pairLoRead_unassigned (s : State) {o : BitVec 23} (be : BitVec 4) (cls : BitVec 3)
    (hr : regRow o.toNat = none) (ha : s.hw.boot.aon = true) :
    ∃ k, exec (.pairLoRead o be cls) s = .next (s.withHw { k with rdata := 0 }) ∧ s.hw.logsOnly k := by
  simp only [exec_pairLoRead, Eff.portRead, State.done_up, State.withHw, ha, hr]
  split
  · contradiction
  · split
    · exact ⟨s.hw, rfl, s.hw.logsOnly_refl⟩
    · split
      · exact ⟨_, rfl, s.hw.logsOnly_denied _ _ _⟩
      · exact ⟨s.hw, rfl, s.hw.logsOnly_refl⟩

/-- A write where no register is assigned changes nothing, but that its denial may be logged. -/
theorem exec_registerWrite_unassigned (s : State) {o : BitVec 23} (be : BitVec 4) (v : Word) (cls : BitVec 3)
    (hr : regRow o.toNat = none) :
    ∃ k, exec (.registerWrite o be v cls) s = .next (s.withHw k) ∧ s.hw.logsOnly k := by
  simp only [exec_registerWrite, Eff.portWrite, State.done_next, State.withHw, hr]
  split
  · exact ⟨s.hw, rfl, s.hw.logsOnly_refl⟩
  · split
    · exact ⟨_, rfl, s.hw.logsOnly_denied _ _ _⟩
    · exact ⟨s.hw, rfl, s.hw.logsOnly_refl⟩

/-! ### Reads of an assigned register (R19) -/

/-- A served word read by a class that may is the read of the register. -/
theorem exec_pairLoRead_assigned (s : State) {o : BitVec 23} {cls : BitVec 3} {r : Sys2Proof.RegRow}
    (hr : regRow o.toNat = some r) (hal : o.toNat % 4 = 0) (hs : s.serves o.toNat)
    (hd : deniedAccess false o.toNat cls.toNat = false) :
    exec (.pairLoRead o 15 cls) s = .next (s.withHw (s.hw.regRead o.toNat)) := by
  have hs : s.hw.served o.toNat = true := hs
  have ha : s.hw.boot.aon = true := by
    simp only [Hw.served, Bool.and_eq_true] at hs
    exact hs.1
  simp [exec_pairLoRead, Eff.portRead, State.done_up, State.withHw, ha, hr, hal, hs, hd]

/-- The registers whose read the model singles out by offset, but for AS_OFFSET, which is a pair. -/
def singledReads : List Nat :=
  [Reg.stamp 0, Reg.ledgerData 0, Reg.elogData 0, Reg.dumpData, Reg.timeSecLo, Reg.timeSecHi, Reg.timeNs, Reg.timeFrac] ++
    ((List.range 2).map fun l => [Reg.asLinkdelay l, Reg.asRatio l, Reg.asStatus l]).flatten

theorem singledReads_unpaired : ∀ x ∈ singledReads, (regRow x).map RegRow.pair = some .none := by decide +kernel

/-- A word of a pair is none of them. -/
theorem not_mem_singledReads {o : Nat} {r : Sys2Proof.RegRow} (hr : regRow o = some r) (hp : r.pair ≠ .none) :
    o ∉ singledReads := by
  intro hm
  have hn := singledReads_unpaired o hm
  rw [hr] at hn
  exact hp (Option.some.inj hn)

theorem ne_singled_of_paired {o : Nat} {r : Sys2Proof.RegRow} (hr : regRow o = some r) (hp : r.pair ≠ .none) :
    o ≠ Reg.stamp 0 ∧ o ≠ Reg.ledgerData 0 ∧ o ≠ Reg.elogData 0 ∧ o ≠ Reg.dumpData ∧ o ≠ Reg.timeSecLo := by
  have hm := not_mem_singledReads hr hp
  simp only [singledReads, List.mem_append, List.mem_cons, not_or] at hm
  obtain ⟨⟨hstamp, hledger, helog, hdump, hsec, -⟩, -⟩ := hm
  exact ⟨hstamp, hledger, helog, hdump, hsec⟩

theorem readsSnapshot_of_hi {o : Nat} {r : Sys2Proof.RegRow} (hr : regRow o = some r) (hp : r.pair = .hi) :
    readsSnapshot o = true := by
  simp [readsSnapshot, hr, hp]

theorem readsSnapshot_of_lo {o : Nat} {r : Sys2Proof.RegRow} (hr : regRow o = some r) (hp : r.pair = .lo) :
    readsSnapshot o = false := by
  have hm := not_mem_singledReads hr (by simp [hp])
  simp [singledReads, List.range_succ] at hm
  simp [readsSnapshot, isOne, List.range_succ, hr, hp, hm]

/-- A _LO word captures the word behind it, AS_OFFSET further words with it. -/
theorem mem_captures_of_lo {o : Nat} {r : Sys2Proof.RegRow} (hr : regRow o = some r) (hp : r.pair = .lo) :
    o + 4 ∈ captures o := by
  obtain ⟨-, -, -, -, hsec⟩ := ne_singled_of_paired hr (by simp [hp])
  unfold captures
  rw [if_neg hsec]
  split
  · rename_i l hl
    have ho : o = Reg.asOffset l := by simpa using List.find?_some hl
    simp [ho]
  · simp [hr, hp]

theorem Hw.regRead_hi (h : Hw) {o : Nat} {r : Sys2Proof.RegRow} (hr : regRow o = some r) (hp : r.pair = .hi) :
    h.regRead o = { h with rdata := Tbl.get (fun _ => 0) h.snaps o } := by
  obtain ⟨hstamp, hledger, helog, hdump, -⟩ := ne_singled_of_paired hr (by simp [hp])
  unfold Hw.regRead
  rw [if_neg hstamp, if_neg hledger, if_neg helog, if_neg hdump, if_pos (readsSnapshot_of_hi hr hp)]

theorem Hw.regRead_lo (h : Hw) {o : Nat} {r : Sys2Proof.RegRow} (hr : regRow o = some r) (hp : r.pair = .lo) :
    (h.regRead o).cores = h.cores ∧ (h.regRead o).rdata = h.value o ∧
      Tbl.get (fun _ => 0) (h.regRead o).snaps (o + 4) = h.value (o + 4) := by
  obtain ⟨hstamp, hledger, helog, hdump, -⟩ := ne_singled_of_paired hr (by simp [hp])
  have hget := Tbl.get_foldl_put (fun _ => 0) h.value _ h.snaps (.inl (mem_captures_of_lo hr hp))
  unfold Hw.regRead
  rw [if_neg hstamp, if_neg hledger, if_neg helog, if_neg hdump, if_neg (by simp [readsSnapshot_of_lo hr hp])]
  dsimp only
  split
  · exact ⟨rfl, rfl, hget⟩
  · exact ⟨rfl, rfl, hget⟩

/-- Settles O58, by the kinds of access: a narrow one, one where no register is, and the reads of a _LO and a _HI word. -/
theorem reservedOffsetsAndPairs : Obligations.ReservedOffsetsAndPairs := by
  unfold Obligations.ReservedOffsetsAndPairs
  intro s o be v cls r
  dsimp only
  refine ⟨fun hn ha => exec_pairLoRead_narrow s cls hn ha, fun hr ha => ⟨?read, ?write⟩,
    fun hr hal hs hd => ⟨fun hp => ?lo, fun hp => ?hi⟩⟩
  case read =>
    obtain ⟨k, hk, hcores, hshadow, -, hregs⟩ := exec_pairLoRead_unassigned s be cls hr ha
    exact ⟨_, hk, ⟨rfl, hcores⟩, rfl, hregs, hshadow⟩
  case write =>
    obtain ⟨k, hk, hcores, hshadow, hstaged, hregs⟩ := exec_registerWrite_unassigned s be v cls hr
    exact ⟨_, hk, ⟨rfl, hcores⟩, hregs, hshadow, hstaged⟩
  case lo =>
    obtain ⟨hcores, hdata, hsnap⟩ := s.hw.regRead_lo hr hp
    exact ⟨_, exec_pairLoRead_assigned s hr hal hs hd, ⟨rfl, hcores⟩, hdata, hsnap⟩
  case hi =>
    refine ⟨_, exec_pairLoRead_assigned s hr hal hs hd, ?_⟩
    rw [s.hw.regRead_hi hr hp]
    exact ⟨⟨rfl, rfl⟩, rfl, rfl⟩

/-! ### Writes by access codes (R20, R23) -/

/-- A register that a class may write, and whose write does nothing but what its access codes say. -/
structure PlainReg (o cls : Nat) : Prop where
  noAct : ∀ (e : Eff) (v : Word), e.actWrite o v = none
  byCodes : ∀ (h : Hw) (v : Word), h.classWrite o v cls = h.plainWrite o v
  allowed : deniedAccess true o cls = false

/-- The registers whose written value is changed or refused. -/
def coercedRegs : List Nat :=
  [Reg.faultRingCtrl, Reg.ageRingCtrl, Reg.verdictRingCtrl] ++ linkRingCtrls ++
    [Reg.waitPoll, Reg.corrLimit, Reg.smInjCtrl] ++
    ((List.range 16).map fun p => [Reg.partCtrl p, Reg.partRun p, Reg.partCore p, Reg.partCore p + 4]).flatten

theorem Hw.coerced_of_not_mem (h : Hw) {o : Nat} (v : Word) (ho : o ∉ coercedRegs) : h.coerced o v = some v := by
  simp only [coercedRegs, List.mem_append, not_or] at ho
  obtain ⟨⟨⟨hsize, hlink⟩, hone⟩, hpart⟩ := ho
  obtain ⟨hpoll, hcorr, hinj⟩ : o ≠ Reg.waitPoll ∧ o ≠ Reg.corrLimit ∧ o ≠ Reg.smInjCtrl := by simpa using hone
  have hplan : ((List.range 16).any fun p =>
      h.partPlan p && isOne o [Reg.partCtrl p, Reg.partRun p, Reg.partCore p, Reg.partCore p + 4]) = false := by
    rw [List.any_eq_false]
    intro p hp hc
    simp only [isOne, Bool.and_eq_true, List.contains_iff_mem] at hc
    exact hpart (List.mem_flatten_of_mem (List.mem_map_of_mem hp) hc.2)
  have hsize : isOne o [Reg.faultRingCtrl, Reg.ageRingCtrl, Reg.verdictRingCtrl] = false := by
    simpa [isOne] using hsize
  have hlink : isOne o linkRingCtrls = false := by simpa [isOne] using hlink
  simp [Hw.coerced, hsize, hlink, hpoll, hcorr, hinj, hplan]

section
variable (h : Hw) {o : Nat} {r : Sys2Proof.RegRow} (v : Word)

/-- A register that is no word of a pair takes the value at once. -/
theorem Hw.plainWrite_single (ho : o ∉ coercedRegs) (hr : regRow o = some r) (hw : RegBits.writable r.bits = true)
    (hp : r.pair = .none) : h.plainWrite o v = h.writeCodes o r.bits v := by
  simp [Hw.plainWrite, hr, h.coerced_of_not_mem v ho, hw, hp]

/-- A _LO word is staged. -/
theorem Hw.plainWrite_lo (ho : o ∉ coercedRegs) (hr : regRow o = some r) (hw : RegBits.writable r.bits = true)
    (hp : r.pair = .lo) : h.plainWrite o v = h.stage o v := by
  simp [Hw.plainWrite, hr, h.coerced_of_not_mem v ho, hw, hp]

/-- A _HI word is written with the _LO word that was staged. -/
theorem Hw.plainWrite_hi {l : Sys2Proof.RegRow} (ho : o + 4 ∉ coercedRegs) (hr : regRow (o + 4) = some r)
    (hl : regRow o = some l) (hw : RegBits.writable r.bits = true) (hp : r.pair = .hi) :
    h.plainWrite (o + 4) v = (h.writeCodes o l.bits (h.stagedLo o)).writeCodes (o + 4) r.bits v := by
  simp [Hw.plainWrite, hr, hl, h.coerced_of_not_mem v ho, hw, hp]

theorem Hw.writeCodes_rw (o m : Nat) : h.writeCodes o { rw := m } v = h.setReg o (mixMask m (h.reg o) v) := by
  simp [Hw.writeCodes]

/-- RWS bits go to the shadow; the live register stays (R23). -/
theorem Hw.writeCodes_rws (o m : Nat) (hm : m ≠ 0) :
    h.writeCodes o { rws := m } v = (h.setReg o (h.reg o)).setShadow o (mixMask m (h.shadowReg o) v) := by
  simp [Hw.writeCodes, hm]
end

/-- A whole word written to a plain register that is served. -/
theorem exec_registerWrite_plain (s : State) {o : Nat} {cls : BitVec 3} {r : Sys2Proof.RegRow} (v : Word)
    (hp : PlainReg o cls.toNat) (hr : regRow o = some r) (ho : o < 2 ^ 23) (hal : o % 4 = 0) (hs : s.serves o) :
    exec (.registerWrite (BitVec.ofNat 23 o) 15 v cls) s = .next (s.withHw (s.hw.plainWrite o v)) := by
  have hs : s.hw.served o = true := hs
  have hmod : o % 2 ^ 23 = o := Nat.mod_eq_of_lt ho
  simp [exec_registerWrite, Eff.portWrite, Eff.regWrite, State.done_next, State.withHw, -Nat.reducePow, hmod,
    hal, hs, hp.allowed, hr, hp.noAct, hp.byCodes]

theorem plainReg_hangCtrl : PlainReg Reg.hangCtrl 1 := ⟨fun _ _ => rfl, fun _ _ => rfl, by decide +kernel⟩
theorem plainReg_pwrOpReq : PlainReg Reg.pwrOpReq 2 := ⟨fun _ _ => rfl, fun _ _ => rfl, by decide +kernel⟩
theorem plainReg_faultRingBase : PlainReg Reg.faultRingBase 1 := ⟨fun _ _ => rfl, fun _ _ => rfl, by decide +kernel⟩
theorem plainReg_faultRingBaseHi : PlainReg (Reg.faultRingBase + 4) 1 :=
  ⟨fun _ _ => rfl, fun _ _ => rfl, by decide +kernel⟩

/-- HANG_CTRL is written: its RW bits, and nothing else. -/
theorem exec_write_hangCtrl (s : State) (v : Word) (hs : s.serves Reg.hangCtrl) :
    exec (.registerWrite (BitVec.ofNat 23 Reg.hangCtrl) 15 v 1) s =
      .next (s.withHw (s.hw.setReg Reg.hangCtrl (mixMask 0x8100FFFF (s.hw.reg Reg.hangCtrl) v))) := by
  have hr : regRow Reg.hangCtrl = some ⟨0x810, 0, 1, .none, 0x2, 0x80001E03, { rw := 0x8100FFFF }⟩ := by decide +kernel
  rw [exec_registerWrite_plain s v plainReg_hangCtrl hr (by decide) (by decide) hs,
    s.hw.plainWrite_single v (by decide +kernel) hr (by decide) rfl, Hw.writeCodes_rw]

/-- PWR_OP_REQ is written: its shadow, and nothing else. -/
theorem exec_write_pwrOpReq (s : State) (v : Word) (hs : s.serves Reg.pwrOpReq) :
    exec (.registerWrite (BitVec.ofNat 23 Reg.pwrOpReq) 15 v 2) s =
      .next (s.withHw ((s.hw.setReg Reg.pwrOpReq (s.hw.reg Reg.pwrOpReq)).setShadow Reg.pwrOpReq
        (mixMask 7 (s.hw.shadowReg Reg.pwrOpReq) v))) := by
  have hr : regRow Reg.pwrOpReq = some ⟨0x4, 0, 1, .none, 0x4, 0x7, { rws := 7 }⟩ := by decide +kernel
  rw [exec_registerWrite_plain s v plainReg_pwrOpReq hr (by decide) (by decide) hs,
    s.hw.plainWrite_single v (by decide +kernel) hr (by decide) rfl, Hw.writeCodes_rws _ _ _ _ (by decide)]

theorem regRow_faultRingBase :
    regRow Reg.faultRingBase = some ⟨0x10, 0, 1, .lo, 0x2, 0, { rw := 0xFFFFF000 }⟩ := by decide +kernel

theorem regRow_faultRingBaseHi :
    regRow (Reg.faultRingBase + 4) = some ⟨0x14, 0, 1, .hi, 0x2, 0, { rw := 0xFFFF }⟩ := by decide +kernel

/-- The _LO word of FAULT_RING_BASE is staged. -/
theorem exec_write_faultRingBase (s : State) (v : Word) (hs : s.serves Reg.faultRingBase) :
    exec (.registerWrite (BitVec.ofNat 23 Reg.faultRingBase) 15 v 1) s =
      .next (s.withHw (s.hw.stage Reg.faultRingBase v)) := by
  rw [exec_registerWrite_plain s v plainReg_faultRingBase regRow_faultRingBase (by decide) (by decide) hs,
    s.hw.plainWrite_lo v (by decide +kernel) regRow_faultRingBase (by decide) rfl]

/-- The _HI word of FAULT_RING_BASE is written with the staged _LO word. -/
theorem exec_write_faultRingBaseHi (s : State) (w : Word) (hs : s.serves (Reg.faultRingBase + 4)) :
    exec (.pairHiWrite (BitVec.ofNat 23 (Reg.faultRingBase + 4)) w 1) s =
      .next (s.withHw ((s.hw.setReg Reg.faultRingBase
        (mixMask 0xFFFFF000 (s.hw.reg Reg.faultRingBase) (s.hw.stagedLo Reg.faultRingBase))).setReg
          (Reg.faultRingBase + 4) (mixMask 0xFFFF (s.hw.reg (Reg.faultRingBase + 4)) w))) := by
  rw [exec_pairHiWrite s w 1 (by decide +kernel),
    exec_registerWrite_plain s w plainReg_faultRingBaseHi regRow_faultRingBaseHi (by decide) (by decide) hs,
    s.hw.plainWrite_hi w (by decide +kernel) regRow_faultRingBaseHi regRow_faultRingBase (by decide) rfl,
    Hw.writeCodes_rw, Hw.writeCodes_rw, Hw.reg_setReg_other _ _ (by decide)]

/-! ### ABI negotiation (R11, R13) -/

theorem Hw.abiWrite_of_queues (h : Hw) (v : Word) (hq : h.hostQueues = true) :
    h.abiWrite v = h.setReg Reg.abiAck (setBit (h.reg Reg.abiAck) 17 true) := by
  simp [Hw.abiWrite, hq, Hw.setRegBit]

theorem Hw.abiWrite_of_no_queues (h : Hw) (v : Word) (hq : h.hostQueues = false) :
    h.abiWrite v =
      (h.setReg Reg.abiReq (mixMask 0xFFFFFF (h.reg Reg.abiReq) v)).setReg Reg.abiAck (abiGrant v) := by
  have hr : regRow Reg.abiReq = some ⟨0x20, 0, 1, .none, 0x4, 0, { rw := 0xFFFFFF }⟩ := by decide +kernel
  simp [Hw.abiWrite, hq, h.plainWrite_single v (by decide +kernel) hr (by decide) rfl, Hw.writeCodes_rw]

/-- Settles O59: with a host queue registered the write sets one bit of ABI_ACK. -/
theorem abiRequestWithQueues : Obligations.AbiRequestWithQueues := by
  unfold Obligations.AbiRequestWithQueues
  intro s v hs hq
  refine ⟨_, exec_abiReqWrite s v hs, ?_⟩
  rw [s.hw.abiWrite_of_queues v hq]
  refine ⟨⟨rfl, rfl⟩, fun o ho => ?_, Hw.reg_setReg_same _ _ _⟩
  exact Hw.reg_setReg_other _ _ (by simpa using ho)

/-! ### Interrupt messages (16 R612) -/

/-- The vector on offer leaves, its bit clears, and the next is offered. -/
theorem Hw.irqMessage_offered (h : Hw) {n : Nat} (hg : h.boot.good = true) (hn : (h.reg64 Reg.irqPend).testBit n = true)
    (ho : (h.irqOffer <|> lowestVector (h.reg64 Reg.irqPend)) = some n) :
    h.irqMessage =
      { ((h.setReg64 Reg.irqPend (h.reg64 Reg.irqPend - 2 ^ n)).setReg Reg.irqSent (h.reg Reg.irqSent + 1)).out (.irq n) with
        irqOffer := lowestVector (h.reg64 Reg.irqPend - 2 ^ n) } := by
  unfold Hw.irqMessage
  simp only [ho, hg, hn, if_true]

/-- A vector becomes pending, and is offered where none was. -/
theorem Hw.irq_of_lt (h : Hw) {v : Nat} (hv : v < 64) :
    h.irq v = { h.setReg64 Reg.irqPend (h.reg64 Reg.irqPend ||| 2 ^ v) with
      irqOffer := h.irqOffer <|> lowestVector (h.reg64 Reg.irqPend ||| 2 ^ v) } := by
  simp only [Hw.irq, Nat.mod_eq_of_lt hv]

/-- IRQ_MESSAGE with a vector that is pending and offered, or that is the lowest pending one. -/
theorem exec_irqMessage_offered (s : State) {n : Nat} (hg : s.hw.boot.good = true)
    (hn : (s.hw.reg64 Reg.irqPend).testBit n = true)
    (ho : (s.hw.irqOffer <|> lowestVector (s.hw.reg64 Reg.irqPend)) = some n) :
    ∃ t, exec .irqMessage s = .next t ∧ s.quiet t ∧ t.hw.outs = .irq n :: s.hw.outs ∧
      t.hw.reg64 Reg.irqPend = s.hw.reg64 Reg.irqPend - 2 ^ n ∧ t.hw.reg Reg.irqSent = s.hw.reg Reg.irqSent + 1 ∧
      t.hw.irqOffer = lowestVector (s.hw.reg64 Reg.irqPend - 2 ^ n) := by
  refine ⟨_, exec_irqMessage s, ?_⟩
  rw [s.hw.irqMessage_offered hg hn ho]
  have hlt : s.hw.reg64 Reg.irqPend - 2 ^ n < 2 ^ 64 := Nat.lt_of_le_of_lt (Nat.sub_le _ _) (s.hw.reg64_lt _)
  refine ⟨⟨rfl, rfl⟩, rfl, ?_, Hw.reg_setReg_same _ _ _, rfl⟩
  exact (Hw.reg64_setReg_other _ _ (by decide) (by decide)).trans (Hw.reg64_setReg64 _ _ hlt)

/-- IRQ_TEST pends its vector and sends nothing yet. -/
theorem exec_irqTest_pends (s : State) (vec : BitVec 6) (hs : s.serves Reg.irqTest) :
    ∃ t, exec (.irqTest vec) s = .next t ∧ s.quiet t ∧ t.hw.outs = s.hw.outs ∧
      t.hw.reg64 Reg.irqPend = s.hw.reg64 Reg.irqPend ||| 2 ^ vec.toNat ∧
      t.hw.irqOffer = (s.hw.irqOffer <|> lowestVector (s.hw.reg64 Reg.irqPend ||| 2 ^ vec.toNat)) := by
  have hv : vec.toNat < 64 := vec.isLt
  have hlt : s.hw.reg64 Reg.irqPend ||| 2 ^ vec.toNat < 2 ^ 64 :=
    Nat.or_lt_two_pow (s.hw.reg64_lt _) (Nat.pow_lt_pow_right (by decide) hv)
  refine ⟨_, exec_irqTest s vec hs, ?_⟩
  rw [s.hw.irq_of_lt hv]
  exact ⟨⟨rfl, rfl⟩, rfl, Hw.reg64_setReg64 _ _ hlt, rfl⟩

/-- Settles O60: each clause is the command's effect on the register file. -/
theorem registerWrites : Obligations.RegisterWrites := by
  unfold Obligations.RegisterWrites
  intro s o be v w cls vec n
  dsimp only
  refine ⟨fun hn => exec_registerWrite_narrow s v cls hn, fun hs => ?hang, fun hs => ?opReq, fun hlo hhi => ⟨?lo, ?hi⟩,
    fun hs hq => ?abi, fun hg hn ho => ?message, fun hs => exec_irqTest_pends s vec hs⟩
  case hang =>
    refine ⟨_, exec_write_hangCtrl s v hs, ⟨rfl, rfl⟩, fun x hx => ?_, Hw.reg_setReg_same _ _ _, rfl⟩
    exact Hw.reg_setReg_other _ _ (by simpa using hx)
  case opReq =>
    refine ⟨_, exec_write_pwrOpReq s v hs, ⟨rfl, rfl⟩, fun x _ => ?_, Hw.shadowReg_setShadow_same _ _ _⟩
    by_cases hx : x = Reg.pwrOpReq
    · rw [hx]; exact Hw.reg_setReg_same _ _ _
    · exact Hw.reg_setReg_other _ _ hx
  case lo =>
    exact ⟨_, exec_write_faultRingBase s v hlo, ⟨rfl, rfl⟩, rfl, Hw.stagedLo_stage_same _ _ _⟩
  case hi =>
    refine ⟨_, exec_write_faultRingBaseHi s w hhi, ⟨rfl, rfl⟩, fun x hx => ?_, ?_, Hw.reg_setReg_same _ _ _⟩
    · obtain ⟨hxlo, hxhi⟩ : x ≠ Reg.faultRingBase ∧ x ≠ Reg.faultRingBase + 4 := by simpa using hx
      exact (Hw.reg_setReg_other _ _ hxhi).trans (Hw.reg_setReg_other _ _ hxlo)
    · exact (Hw.reg_setReg_other _ _ (by decide)).trans (Hw.reg_setReg_same _ _ _)
  case abi =>
    refine ⟨_, exec_abiReqWrite s v hs, ?_⟩
    rw [s.hw.abiWrite_of_no_queues v hq]
    refine ⟨⟨rfl, rfl⟩, fun x hx => ?_, Hw.reg_setReg_same _ _ _⟩
    obtain ⟨hreq, hack⟩ : x ≠ Reg.abiReq ∧ x ≠ Reg.abiAck := by simpa using hx
    exact (Hw.reg_setReg_other _ _ hack).trans (Hw.reg_setReg_other _ _ hreq)
  case message =>
    refine exec_irqMessage_offered s hg hn ?_
    rcases ho with ho | ⟨hnone, hlow⟩
    · rw [ho]; rfl
    · rw [hnone, hlow]; rfl

end Sys2Proof.Machine
end

section
/-!
PROOFS. Vector syllables of one source (05_core_program.md R97, R201, R202, R206).
-/
namespace Sys2Proof.Machine

open Sys2Proof

/-- Lanes that set no flag set none together, whatever the predicate. -/
theorem lanes_noFlags (on : BitVec 64) (f : Nat → Word) : lanes on (fun i => (f i, 0)) = (Vec.tab f, 0) := by
  have hflags : ∀ xs : List Nat,
      xs.foldl (fun (acc : AFlags) i => if on.getLsbD i then acc ||| 0 else acc) 0 = 0 := by
    intro xs
    induction xs with
    | nil => rfl
    | cons x xs ih =>
      have hx : (if on.getLsbD x then (0 : AFlags) ||| 0 else 0) = 0 := by
        split
        · rfl
        · rfl
      rw [List.foldl_cons, hx, ih]
  rw [lanes_eq]
  exact congrArg (Prod.mk (Vec.tab f)) (hflags (List.range 64))

theorem rsSrcs_of_le {code : Nat} (h : code ≤ 1) : rsSrcs code = [] := if_neg (by omega)

theorem sylVbcs_eq (d a pg : Nat) (b : CoreBody) :
    sylVbcs d a pg b = sylVec d pg 1 [keyS a] (lanes (b.pr pg) fun _ => (b.sr a, 0)) b := by
  rw [lanes_noFlags, sylVbcs]

/-- VCVT between types that are not reserved converts every lane. -/
theorem sylVcvt_of_le {src dst : Nat} (d a pg : Nat) (b : CoreBody) (hs : src ≤ 3) (hd : dst ≤ 3) :
    sylVcvt src dst d a pg b = sylLane1 (laneCvt src dst) d a pg 3 b := by
  unfold sylVcvt
  rw [if_neg (by simp; omega)]

/-- VFQ in a mode without seeds, to a format without block scale, requantises every lane. -/
theorem sylVfq_of_le (d a pg : Nat) {fmt mode : Nat} (v : Word) (b : CoreBody) (hm : mode ≤ 1)
    (hf : fmtIsMx fmt = false) :
    sylVfq d a pg fmt mode v b = sylVec d pg 4 [keyV a] (lanes (b.pr pg) fun i =>
      let y := requantFloat (b.rs.mode mode i) (fp32 ((b.vr a).lane i)) fmt
      (BitVec.ofNat 32 y.1, y.2)) b := by
  unfold sylVfq
  rw [if_neg (by omega), hf, if_neg Bool.false_ne_true, rsSrcs_of_le hm, List.append_nil]

/-- A lane operation of one source that ends a bundle which issues. -/
theorem State.syl_closes_lane1 (s : State) (p : Nat) (f : Word → Lane) (d a pg lat : Nat)
    (h : s.closes p { srcs := maskedSrcs d pg [keyV a], dests := [(keyV d, lat)] }) :
    s.syl p 3 (fun _ _ b _ => sylLane1 f d a pg lat b) =
      .next (s.issued p ((s.sofar p).laneWrite (s.before p) d pg fun i => f (((s.before p).vr a).lane i))
        { srcs := maskedSrcs d pg [keyV a], dests := [(keyV d, lat)] }) :=
  s.syl_closes_lanes p d pg lat [keyV a] _ _ rfl h

/-- A syllable whose command then changes the hardware once more. -/
theorem State.done_syllable_up {s t : State} {p k : Nat} {mk : Hw → PantryView → CoreBody → CoreBody → Syl}
    (f : Hw → Hw) (h : s.syl p k mk = .next t) :
    s.done (fun e => (e.syllable p k mk).up f) = .next (t.withHw (f t.hw)) := by
  rw [State.syl, State.done_next] at h
  cases h
  rfl

/-- Settles O18: each syllable is a lane operation under the predicate, and VFQ takes an open value after it. -/
theorem vectorOneSource : Obligations.VectorOneSource := by
  unfold Obligations.VectorOneSource
  intro s p t d a pg src dst fmt mode
  dsimp only
  refine ⟨s.syl_closes_lane1 p _ d a pg 1, s.syl_closes_lane1 p _ d a pg 1, fun hs hd => ?cvt,
    s.syl_closes_lane1 p _ d a pg 6, s.syl_closes_lane1 p _ d a pg 6, s.syl_closes_lane1 p _ d a pg 6,
    s.syl_closes_lane1 p _ d a pg 6, s.syl_closes_lane1 p _ d a pg 10, s.syl_closes_lane1 p _ d a pg 20,
    s.syl_closes_lane1 p _ d a pg 28, ?bcs, fun hm hf h => ?fq⟩
  case cvt =>
    exact s.syl_closes_lanes p d pg 3 [keyV a] _ _ (sylVcvt_of_le d a pg (s.before p) hs hd)
  case bcs =>
    exact s.syl_closes_lanes p d pg 1 [keyS a] _ _ (sylVbcs_eq d a pg (s.before p))
  case fq =>
    exact State.done_syllable_up (fun h => h.fresh.2)
      (s.syl_closes_lanes p d pg 4 [keyV a] _ _ (sylVfq_of_le d a pg _ (s.before p) hm hf) h)

end Sys2Proof.Machine
end

section
/-!
PROOFS. Requantising, container and stream syllables of slot 3 (05_core_program.md R203 to R207; 02 R85 to R90).
-/
namespace Sys2Proof.Machine

open Sys2Proof

/-! ### Writing a vector register -/

@[simp] theorem CoreBody.vr_setV_same (n : CoreBody) (d : Nat) (x : Vec) : (n.setV d x).vr d = x :=
  Tbl.get_put_same _ _ _ _

theorem CoreBody.vr_setV_other (n : CoreBody) {d r : Nat} (x : Vec) (h : r ≠ d) : (n.setV d x).vr r = n.vr r :=
  Tbl.get_put_other _ _ _ h

@[simp] theorem CoreBody.vr_setS (n : CoreBody) (d r : Nat) (v : Word) : (n.setS d v).vr r = n.vr r := by
  unfold CoreBody.setS
  split <;> rfl

theorem CoreBody.sr_setS_same (n : CoreBody) {d : Nat} (v : Word) (h : d ≠ 0) : (n.setS d v).sr d = v := by
  simp [CoreBody.setS, CoreBody.sr, h]

/-- Every vector register but `d`, and the address registers, predicates, counters, walk parameters and accumulators, are
in `m` as in `n`. -/
structure CoreBody.KeepsBut (n m : CoreBody) (d : Fin 32) : Prop where
  vr : ∀ r : Fin 32, r ≠ d → m.vr r = n.vr r
  a : m.a = n.a
  p : m.p = n.p
  cnt : m.cnt = n.cnt
  gen : m.gen = n.gen
  acc : m.mx.acc = n.mx.acc

theorem CoreBody.keepsBut_setV (n : CoreBody) (d : Fin 32) (x : Vec) : n.KeepsBut (n.setV d x) d :=
  ⟨fun _ hr => n.vr_setV_other x (Fin.val_ne_of_ne hr), rfl, rfl, rfl, rfl, rfl⟩

/-- What else a syllable changes (flags, the walk, the Drain Queue) is none of what `KeepsBut` names. -/
theorem CoreBody.KeepsBut.of_eq {n m k : CoreBody} {d : Fin 32} (h : n.KeepsBut m d) (hv : k.v = m.v) (ha : k.a = m.a)
    (hp : k.p = m.p) (hcnt : k.cnt = m.cnt) (hgen : k.gen = m.gen) (hacc : k.mx.acc = m.mx.acc) : n.KeepsBut k d where
  vr r hr := (congrArg (Tbl.get (fun _ => Vec.zero) · r) hv).trans (h.vr r hr)
  a := ha.trans h.a
  p := hp.trans h.p
  cnt := hcnt.trans h.cnt
  gen := hgen.trans h.gen
  acc := hacc.trans h.acc

theorem CoreBody.KeepsBut.setS {n m : CoreBody} {d : Fin 32} (h : n.KeepsBut m d) (r : Nat) (v : Word) :
    n.KeepsBut (m.setS r v) d := by
  unfold CoreBody.setS
  split
  · exact h
  · exact h.of_eq rfl rfl rfl rfl rfl rfl

/-- The command `i` of core `p`, as slot 3 of a bundle that issues: it writes vector register `d`, keeps what `KeepsBut`
names, and leaves a core of which `post` holds. -/
def State.runs (s : State) (p : CoreIx) (d : Fin 32) (i : Instr) (srcs : List Nat) (dests : List (Nat × Nat))
    (post : CoreBody → Prop) : Prop :=
  s.closes p { srcs, dests } → ∃ m, exec i s = .next (s.issued p m { srcs, dests }) ∧
    (∀ r : Fin 32, r ≠ d → m.vr r = (s.sofar p).vr r) ∧ m.a = (s.sofar p).a ∧ m.p = (s.sofar p).p ∧
    m.cnt = (s.sofar p).cnt ∧ m.gen = (s.sofar p).gen ∧ m.mx.acc = (s.sofar p).mx.acc ∧ post m

/-- A syllable runs as its effect on the core says. -/
theorem State.runs_of_eff {s : State} {p : CoreIx} {d : Fin 32} {i : Instr} {srcs : List Nat}
    {dests : List (Nat × Nat)} {post : CoreBody → Prop} {mk : CoreBody → Syl} {eff : CoreBody → CoreBody}
    (hi : exec i s = s.syl p 3 fun _ _ b _ => mk b) (hy : mk (s.before p) = { srcs, dests, eff })
    (hk : (s.sofar p).KeepsBut (eff (s.sofar p)) d) (hp : post (eff (s.sofar p))) :
    s.runs p d i srcs dests post := by
  intro hs
  obtain ⟨hvr, ha, hp', hcnt, hgen, hacc⟩ := hk
  exact ⟨_, hi.trans (s.syl_closes p _ { srcs, dests, eff } hy hs), hvr, ha, hp', hcnt, hgen, hacc, hp⟩

/-- Under P0 a vector syllable writes every lane and reads nothing for its predicate (R202). -/
theorem sylVec_p0 (d lat : Nat) (srcs : List Nat) (r : Vec × AFlags) (b : CoreBody) :
    sylVec d 0 lat srcs r b =
      { srcs, dests := [(keyV d, lat)], eff := fun n => { n.setV d r.1 with arith := n.arith ||| r.2 } } := by
  simp [sylVec]

/-- A syllable that writes a vector register under P0 runs, and the register then holds what it is given. -/
theorem State.runs_of_sylVec {s : State} {p : CoreIx} {d : Fin 32} {i : Instr} {srcs : List Nat} {lat : Nat}
    {post : CoreBody → Prop} {mk : CoreBody → Syl} {r : Vec × AFlags}
    (hi : exec i s = s.syl p 3 fun _ _ b _ => mk b) (hy : mk (s.before p) = sylVec d 0 lat srcs r (s.before p))
    (hp : ∀ m : CoreBody, m.vr d = r.1 → post m) : s.runs p d i srcs [(keyV d, lat)] post :=
  State.runs_of_eff hi (hy.trans (sylVec_p0 _ _ _ _ _))
    ((CoreBody.keepsBut_setV _ d _).of_eq rfl rfl rfl rfl rfl rfl) (hp _ (CoreBody.vr_setV_same _ _ _))

/-! ### Containers (R79, R207) -/

theorem container_toNat (c : Acc) :
    (container c).toNat = (c.a.toInt % 2 ^ 120).toNat + c.poison.toNat * 2 ^ 120 := by
  unfold container
  rw [BitVec.toNat_ofInt]
  cases c.poison <;> simp <;> omega

/-- A container gives back the cell that it was made from. -/
theorem ofContainer_container (c : Acc) : ofContainer (container c) = c := by
  obtain ⟨a, poison⟩ := c
  have ha : a.toInt = if 2 * a.toNat < 2 ^ 72 then (a.toNat : Int) else a.toNat - 2 ^ 72 := by
    simp [BitVec.toInt]
  have hlt : a.toNat < 2 ^ 72 := a.isLt
  unfold ofContainer
  rw [Acc.mk.injEq]
  constructor
  · apply BitVec.eq_of_toNat_eq
    rw [BitVec.toNat_ofNat, container_toNat]
    cases poison <;> simp <;> split at ha <;> omega
  · rw [BitVec.getLsbD, Nat.testBit_eq_decide_div_mod_eq, container_toNat]
    cases poison <;> simp <;> omega

/-- The four words of a 128-bit value, put together again. -/
theorem words_join (v : BitVec 128) :
    (List.range 4).foldl (fun acc k => acc ||| ((BitVec.ofNat 32 (v.toNat >>> (32 * k))).zeroExtend 128 <<< (32 * k)))
      (0 : BitVec 128) = v := by
  have hr : List.range 4 = [0, 1, 2, 3] := rfl
  have hw : ∀ k, BitVec.ofNat 32 (v.toNat >>> (32 * k)) = v.extractLsb' (32 * k) 32 := fun _ => rfl
  rw [hr]
  simp only [hw]
  ext i hi
  -- each bit of `v` is in the one word whose range of 32 bits it falls in
  simp [← BitVec.getLsbD_eq_getElem]
  grind

theorem containerLanes_getD (c : Acc) {i : Nat} (hi : i < 4) :
    (containerLanes c).getD i 0 = BitVec.ofNat 32 ((container c).toNat >>> (32 * i)) := by
  simp [containerLanes, List.getD, hi]

/-- A register whose lanes 4k to 4k + 3 are those of a cell's container holds that cell in container k. -/
theorem Vec.container_eq_of_lanes (x : Vec) (k : Nat) (c : Acc)
    (h : ∀ i < 4, x.lane (4 * k + i) = (containerLanes c).getD i 0) : x.container k = c := by
  have hfold := foldl_congr_mem
    (fun (acc : BitVec 128) i => acc ||| ((x.lane (4 * k + i)).zeroExtend 128 <<< (32 * i)))
    (fun acc i => acc ||| ((BitVec.ofNat 32 ((Sys2Proof.container c).toNat >>> (32 * i))).zeroExtend 128 <<< (32 * i)))
    (List.range 4) 0 (fun acc i hi => by
      have hi : i < 4 := List.mem_range.mp hi
      rw [h i hi, containerLanes_getD c hi])
  unfold Vec.container
  rw [hfold, words_join, ofContainer_container]

/-- An element of lists of one length laid end to end. -/
theorem flatten_getD {α : Type} (z : α) {m : Nat} (xss : List (List α)) (h : ∀ xs ∈ xss, xs.length = m) (k : Nat)
    {i : Nat} (hi : i < m) : xss.flatten.getD (m * k + i) z = (xss.getD k []).getD i z := by
  induction xss generalizing k with
  | nil => simp
  | cons xs xss ih =>
    have hl : xs.length = m := h xs List.mem_cons_self
    cases k with
    | zero => simp [List.getD, List.getElem?_append_left, hl, hi]
    | succ k =>
      have ih := ih (fun ys hy => h ys (List.mem_cons_of_mem _ hy)) k
      have hidx : m * (k + 1) + i = xs.length + (m * k + i) := by
        rw [hl, Nat.mul_succ]
        omega
      simpa [List.getD, hidx, List.getElem?_append_right] using ih

/-! ### Requantising (R85 to R90, R204, R206) -/

/-- Element `k` of VRQ with multiplier Sx and control word Sc: the number and its flags. -/
def vrqElem (b : CoreBody) (a sx c k : Nat) : Int × AFlags :=
  requantInt (b.rs.mode (fld (b.sr c) 9 8) k)
    (signed 64 (((b.vr a).lane (2 * k)).toNat + 2 ^ 32 * ((b.vr a).lane (2 * k + 1)).toNat)) (b.sr sx).toInt
    (fld (b.sr c) 6 0) (signed 16 (fld (b.sr c) 31 16)) (fld (b.sr c) 15 12)

/-- Lane `i` of a half of a register that takes 32 elements in order. -/
theorem halfLane_eq (f : Nat → Int × AFlags) (old : Word) (half : Bool) (i : Nat) :
    (if (if half then 32 else 0) ≤ i && i < (if half then 32 else 0) + 32 then
      BitVec.ofInt 32 (((List.range 32).map f).getD (i - if half then 32 else 0) (0, 0)).1 else old) =
      if i / 32 = half.toNat then BitVec.ofInt 32 (f (i % 32)).1 else old := by
  have hin : ((if half then 32 else 0) ≤ i ∧ i < (if half then 32 else 0) + 32) ↔ i / 32 = half.toNat := by
    cases half <;> simp only [Bool.toNat, cond, if_true, if_false, Bool.false_eq_true] <;> omega
  simp only [Bool.and_eq_true, decide_eq_true_eq, hin]
  by_cases h : i / 32 = half.toNat
  · have hk : i - (if half then 32 else 0) = i % 32 := by cases half <;> simp at h ⊢ <;> omega
    have hlt : i % 32 < 32 := Nat.mod_lt _ (by decide)
    simp [h, hk, List.getD, hlt]
  · rw [if_neg h, if_neg h]

/-- VRQ with a control word in range and a mode without seeds: one half of Vd takes the 32 elements. -/
theorem sylVrq_of_inRange (d a sx c : Nat) (half : Bool) (b : CoreBody) (hsh : fld (b.sr c) 6 0 ≤ 95)
    (hm : fld (b.sr c) 9 8 ≤ 1) (hz : fld (b.sr c) 11 10 = 0) (hf : fld (b.sr c) 15 12 ≤ 3) :
    sylVrq d a sx c half b =
      { srcs := [keyV a, keyV d, keyS sx, keyS c], dests := [(keyV d, 5)]
        eff := fun n =>
          { n.setV d (Vec.tab fun i =>
              if i / 32 = half.toNat then BitVec.ofInt 32 (vrqElem b a sx c (i % 32)).1 else (b.vr d).lane i) with
            arith := ((List.range 32).map (vrqElem b a sx c)).foldl (fun f r => f ||| r.2) n.arith } } := by
  have hok : ¬ (95 < fld (b.sr c) 6 0 || fld (b.sr c) 9 8 == 3 || fld (b.sr c) 11 10 != 0 ||
      !(decide (fld (b.sr c) 15 12 ≤ 3) || fld (b.sr c) 15 12 == 15)) = true := by
    simp [hz, hf]
    omega
  unfold sylVrq
  rw [if_neg hok, rsSrcs_of_le hm, List.append_nil,
    Vec.tab_congr fun i _ => (halfLane_eq (vrqElem b a sx c) _ half i).symm]
  rfl

theorem clampInt_toNat_le (z : Int) : (clampInt 0 254 z).toNat ≤ 254 := by
  unfold clampInt
  split
  · decide
  · split <;> omega

/-- A block has an element for every value, and its scale is a byte. -/
theorem requantMx_shape (modes : List RMode) (vs : List Fp) (fmt : Nat) {n : Nat} (hm : modes.length = n)
    (hv : vs.length = n) : (requantMx modes vs fmt).1.length = n ∧ (requantMx modes vs fmt).2.1 < 256 := by
  unfold requantMx
  extract_lets isSpecial
  split
  · exact ⟨(List.length_map _).trans hv, by simp⟩
  · split
    · exact ⟨(List.length_map _).trans hv, by simp⟩
    · rename_i lg _
      extract_lets raw scale one rs
      have hs : scale ≤ 254 := clampInt_toNat_le raw
      exact ⟨by simp [rs, hm, hv], by dsimp only; omega⟩

/-- Block `h` of VMXQ under mode 0. -/
def mxBlock (b : CoreBody) (a fmt h : Nat) : List Nat × Nat × AFlags :=
  requantMx ((List.range 32).map fun _ => .rne) ((List.range 32).map fun i => fp32 ((b.vr a).lane (32 * h + i))) fmt

theorem mxBlock_shape (b : CoreBody) (a fmt h : Nat) :
    (mxBlock b a fmt h).1.length = 32 ∧ (mxBlock b a fmt h).2.1 < 256 :=
  requantMx_shape _ _ fmt ((List.length_map _).trans List.length_range) ((List.length_map _).trans List.length_range)

theorem mxBlock_zero (b : CoreBody) (a fmt : Nat) :
    mxBlock b a fmt 0 = requantMx ((List.range 32).map fun _ => .rne)
      ((List.range 32).map fun k => fp32 ((b.vr a).lane k)) fmt := by
  simp only [mxBlock, Nat.mul_zero, Nat.zero_add]

/-- VMXQ to a block-scaled format under mode 0. -/
theorem sylVmxq_rne (d a sx fmt : Nat) (b : CoreBody) (hf : fmtIsMx fmt = true) :
    sylVmxq d a sx fmt 0 b =
      { srcs := [keyV a], dests := [(keyV d, 8), (keyS sx, 8)]
        eff := fun n =>
          { (n.setV d (Vec.tab fun i =>
              BitVec.ofNat 32 (((mxBlock b a fmt 0).1 ++ (mxBlock b a fmt 1).1).getD i 0))).setS sx
              (BitVec.ofNat 32 ((mxBlock b a fmt 0).2.1 + 256 * (mxBlock b a fmt 1).2.1)) with
            arith := n.arith ||| (mxBlock b a fmt 0).2.2 ||| (mxBlock b a fmt 1).2.2 } } := by
  unfold sylVmxq
  rw [if_neg (by simp [hf])]
  rfl

theorem fld_low_byte {x : Nat} (y : Nat) (hx : x < 256) : fld (BitVec.ofNat 32 (x + 256 * y)) 7 0 = x := by
  simp only [fld, BitVec.toNat_ofNat]
  omega

/-! ### Container syllables (R80, R207) -/

/-- The sum of container `k` of two registers. -/
def cellSum (x y : Vec) (k : Nat) : Acc :=
  ⟨(x.container k).a + (y.container k).a, (x.container k).poison || (y.container k).poison⟩

/-- The register whose containers are given. -/
def Vec.ofCells (f : Nat → Acc) : Vec := Vec.ofList ((List.range 16).map fun k => containerLanes (f k)).flatten

theorem Vec.container_ofCells (f : Nat → Acc) {k : Nat} (hk : k < 16) : (Vec.ofCells f).container k = f k := by
  refine Vec.container_eq_of_lanes _ k _ fun i hi => ?_
  have hlen : ∀ xs ∈ (List.range 16).map fun k => containerLanes (f k), xs.length = 4 := by
    intro xs hxs
    obtain ⟨j, -, rfl⟩ := List.mem_map.mp hxs
    simp [containerLanes]
  rw [Vec.ofCells, Vec.ofList, Vec.lane_tab _ (by omega), flatten_getD 0 _ hlen k hi]
  simp [List.getD, hk]

theorem sylV72add_p0 (d a c : Nat) (b : CoreBody) :
    sylV72add d a c 0 b =
      sylVec d 0 2 [keyV a, keyV c] (Vec.ofCells (cellSum (b.vr a) (b.vr c)), 0) b := rfl

/-- V72CVT in F32 form: one lane for each container. -/
theorem sylV72cvt_f32 (d a s : Nat) (b : CoreBody) :
    ∃ r : Vec × AFlags, sylV72cvt d a s 0 1 b = sylVec d 0 4 [keyV a, keyS s] r b ∧
      ∀ k < 16, r.1.lane k = (drainF32 ((b.vr a).container k) (signed 8 (fld (b.sr s) 7 0))).1 := by
  unfold sylV72cvt
  rw [if_neg (by decide)]
  refine ⟨_, rfl, fun k hk => ?_⟩
  rw [Vec.ofList, Vec.lane_tab _ (by omega), List.map_map]
  -- the lists of one lane each, end to end, are the list of those lanes
  refine (congrArg (List.getD · k 0) (List.map_eq_flatMap (l := List.range 16)
    (f := fun k => (drainF32 ((b.vr a).container k) (signed 8 (fld (b.sr s) 7 0))).1)).symm).trans ?_
  simp [List.getD, hk]

/-- The container of VFIXSUM: the lanes added on the grid that Ss gives. -/
def fixSum (b : CoreBody) (d a s : Nat) : BitVec 72 :=
  (List.range 64).foldl (fun acc i => acc + BitVec.ofInt 72
    (match fp32 ((b.vr a).lane i) with
     | .fin neg mant e => sm neg (gridMag .rne mant e ((b.sr s).toInt - 40))
     | _ => 0)) ((b.vr d).container 0).a

theorem sylVfixsum_p0 (d a s : Nat) (b : CoreBody) :
    sylVfixsum d a s 0 b = sylVec d 0 8 [keyV a, keyV d, keyS s] (Vec.tab fun i =>
      if i < 4 then (containerLanes ⟨fixSum b d a s, ((b.vr d).container 0).poison⟩).getD i 0
      else (b.vr d).lane i, 0) b := rfl

/-! ### Columns of the walk and rows of the Drain Queue (R156, R203) -/

/-- The lanes and flags of a column of a plane. -/
def columnLanes (b : CoreBody) (pl : Plane) (j : Nat) : Vec × AFlags :=
  lanes (b.pr 0) fun r => b.genP.vectorLane ((b.genP.column pl.index j pl.elems).getD r b.genP.padElem)

theorem columnLanes_lane (b : CoreBody) (pl : Plane) (j : Nat) {r : Nat} (hr : r < 64) :
    (columnLanes b pl j).1.lane r =
      (b.genP.vectorLane ((b.genP.column pl.index j pl.elems).getD r b.genP.padElem)).1 := by
  rw [columnLanes, lanes_eq, Vec.lane_tab _ hr]

/-- VWLD of a column: its lanes, and the walk goes on by one column. -/
theorem sylVwld_column (d : Nat) {b : CoreBody} {pl : Plane} {j : Nat} (h : b.nextColumn = .column pl j) :
    sylVwld d 0 b =
      { srcs := [], dests := [(keyV d, 1)]
        eff := fun n =>
          { n.setV d (columnLanes b pl j).1 with
            arith := n.arith ||| (columnLanes b pl j).2, walk := n.walk.map fun w => w.take b.genP 1 } } := by
  unfold sylVwld
  rw [h]
  rfl

/-- VPOP with a row in the queue: its lanes, and the queue loses its head. -/
theorem sylVpop_row (d : Nat) {b : CoreBody} {x : Vec} {rest : List Vec} (h : b.mx.drainQueue = x :: rest) :
    sylVpop d 0 b =
      { srcs := [], dests := [(keyV d, 1)]
        eff := fun n =>
          { n.setV d x with
            arith := n.arith ||| 0, mx := { n.mx with drainQueue := n.mx.drainQueue.drop 1 } } } := by
  unfold sylVpop
  rw [h]
  dsimp only
  rw [sylVec_p0]
  rfl

/-- Settles O20: each syllable runs as its effect says, clause by clause. -/
theorem vectorRequantAndStreams : Obligations.VectorRequantAndStreams := by
  unfold Obligations.VectorRequantAndStreams
  intro s p d a sx c fmt half x rest pl j
  dsimp only
  refine ⟨fun hsh hm hz hf => ?vrq, fun hf => ?vmxq, ?v72add, ?v72cvt, ?vfixsum, fun hcol => ?vwld,
    fun hb hn => ?vpop⟩
  case vrq =>
    refine State.runs_of_eff rfl (sylVrq_of_inRange d a sx c half (s.before p) hsh hm hz hf)
      ((CoreBody.keepsBut_setV _ d _).of_eq rfl rfl rfl rfl rfl rfl) fun i hi => ?_
    exact (congrArg (Vec.lane · i) (CoreBody.vr_setV_same _ _ _)).trans (Vec.lane_tab _ hi)
  case vmxq =>
    obtain ⟨hlen, hscale⟩ := mxBlock_shape (s.before p) a fmt 0
    refine State.runs_of_eff rfl (sylVmxq_rne d a sx fmt (s.before p) hf)
      (((CoreBody.keepsBut_setV _ d _).setS sx _).of_eq rfl rfl rfl rfl rfl rfl) ⟨fun i hi => ?_, fun hx => ?_⟩
    · rw [← mxBlock_zero]
      refine (congrArg (Vec.lane · i) ((CoreBody.vr_setS _ _ _ _).trans (CoreBody.vr_setV_same _ _ _))).trans ?_
      rw [Vec.lane_tab _ (by omega), List.getD_eq_getElem?_getD, List.getElem?_append_left (by omega),
        ← List.getD_eq_getElem?_getD]
    · rw [← mxBlock_zero]
      exact (congrArg (fld · 7 0) (CoreBody.sr_setS_same _ _ hx)).trans (fld_low_byte _ hscale)
  case v72add =>
    refine State.runs_of_sylVec rfl (sylV72add_p0 d a c (s.before p)) fun m hm k hk => ?_
    rw [hm, Vec.container_ofCells _ hk]
    rfl
  case v72cvt =>
    obtain ⟨r, hr, hlane⟩ := sylV72cvt_f32 d a c (s.before p)
    refine State.runs_of_sylVec rfl hr fun m hm k hk => ?_
    rw [hm, hlane k hk]
  case vfixsum =>
    refine State.runs_of_sylVec rfl (sylVfixsum_p0 d a c (s.before p)) fun m hm => ?_
    have hcell : (m.vr d).container 0 =
        ⟨fixSum (s.before p) d a c, (((s.before p).vr d).container 0).poison⟩ := by
      refine Vec.container_eq_of_lanes _ 0 _ fun i hi => ?_
      rw [hm, Vec.lane_tab _ (by omega), Nat.mul_zero, Nat.zero_add, if_pos hi]
    have hsum : ((m.vr d).container 0).a = fixSum (s.before p) d a c := congrArg Acc.a hcell
    have hpoison := congrArg Acc.poison hcell
    refine ⟨hpoison, hsum, fun i hi hi' => ?_⟩
    rw [hm, Vec.lane_tab _ hi', if_neg (by omega)]
  case vwld =>
    refine State.runs_of_eff rfl (sylVwld_column d hcol)
      ((CoreBody.keepsBut_setV _ d _).of_eq rfl rfl rfl rfl rfl rfl) ⟨rfl, fun r hr => ?_⟩
    exact (congrArg (Vec.lane · r) (CoreBody.vr_setV_same _ _ _)).trans (columnLanes_lane _ _ _ hr)
  case vpop =>
    refine State.runs_of_eff rfl (sylVpop_row d hb)
      ((CoreBody.keepsBut_setV _ d _).of_eq rfl rfl rfl rfl rfl rfl) ⟨?_, fun i _ => ?_⟩
    · exact congrArg (List.drop 1) hn
    · exact congrArg (Vec.lane · i) (CoreBody.vr_setV_same _ _ _)

end Sys2Proof.Machine
end

section
/-!
PROOFS. Matrix syllables of slot 2 (05_core_program.md R198 to R200; 03_matrix_unit.md R105 to R115).
-/
namespace Sys2Proof.Machine

open Sys2Proof

/-- A syllable of slot 2 that traps on nothing and queues an entry joins the bundle (R105, R199). -/
theorem State.syl_queues (s : State) (p : Nat) (mk : Hw → PantryView → CoreBody → CoreBody → Syl) (op : MxOp)
    (srcs : List Nat) (hs : s.slotNext p 2)
    (hy : mk s.hw ⟨s.mem, p⟩ (s.before p) (s.sofar p) =
      { srcs, stall := (s.before p).mxFull, eff := fun c => c.queueMx op }) :
    s.syl p 2 mk = .next (s.join p ((s.sofar p).queueMx op) { srcs, stall := (s.before p).mxFull }) := by
  refine s.syl_joins_as p 2 mk _ _ ?_ ?_ hs (by decide)
  · rw [hy]
  · rw [hy]

/-- MMA with its steps in range and formats that form an operand pair (R200). -/
theorem sylMma_of_ok (bank clear : Bool) {j0 n : Nat} (b : CoreBody) {now : CoreBody} (hn : j0 + n ≤ 64)
    (hp : pairOk (now.field 0) now.wfmtAhead = true) :
    sylMma bank clear j0 n b now = { stall := b.mxFull, eff := fun c => c.queueMx (.mma bank clear j0 n 0) } := by
  simp [sylMma, hn, hp]

/-- DLOAD of rows of 16 bytes with its image in range (R111, R200). -/
theorem sylDload_of_ok (a : Nat) {rows : Nat} (mx : Bool) {up : Nat} {b now : CoreBody} (hr : rows ≤ 64)
    (ht : b.imageTraps up (b.ar a).toNat (imageBytes rows 16 mx (reductionPerRow now.wfmtAhead 16)) 256 = []) :
    sylDload a rows 0 mx up b now =
      { srcs := [keyA a], stall := b.mxFull, eff := fun c => c.queueMx (.dload (b.ar a).toNat rows 16 mx) } := by
  have hr : ¬ 64 < rows := by omega
  simp [sylDload, dloadWidth, hr, ht]

/-- DRAIN to the Drain Queue reads no register and checks no range (R115). -/
theorem sylDrain_toQueue (bank : Bool) {form : Nat} (neg : Bool) (mask a up : Nat) (b : CoreBody) (hf : form ≤ 2) :
    sylDrain bank form neg mask false a up b =
      { stall := b.mxFull, eff := fun c => c.queueMx (.drain bank form neg mask false (b.ar a).toNat) } := by
  have hf : ¬ 2 < form := by omega
  simp [sylDrain, hf]

/-- DRAIN to the Pantry with its rows in range (R116, R200). -/
theorem sylDrain_toPantry (bank : Bool) {form : Nat} (neg : Bool) {mask a up : Nat} {b : CoreBody} (hf : form ≤ 2)
    (ht : b.imageTraps up (b.ar a).toNat (64 * (maskArrays mask).length * rowBytes form) (rowBytes form) = []) :
    sylDrain bank form neg mask true a up b =
      { srcs := [keyA a], stall := b.mxFull
        eff := fun c => c.queueMx (.drain bank form neg mask true (b.ar a).toNat) } := by
  have hf : ¬ 2 < form := by omega
  simp [sylDrain, hf, ht]

/-- Settles O13: with its operands in range each syllable queues its entry, and joins the bundle with it. -/
theorem matrixSyllables : Obligations.MatrixSyllables := by
  unfold Obligations.MatrixSyllables
  intro s p x mask rows n mx bank clear neg j0 e f hs
  dsimp only
  refine ⟨?swap, ?seteacc, ?setfmt, fun hn hp => ?mma, fun hr _ ht => ?dload, ?drainQueue, fun ht => ?drainPantry⟩
  case swap => exact s.syl_queues p _ .swap [] hs rfl
  case seteacc => exact s.syl_queues p _ (.setEacc e) [] hs rfl
  case setfmt => exact s.syl_queues p _ (.setFmt f) [] hs rfl
  case mma => exact s.syl_queues p _ _ [] hs (sylMma_of_ok bank clear _ hn hp)
  case dload => exact s.syl_queues p _ _ [keyA x] hs (sylDload_of_ok x mx hr ht)
  case drainQueue => exact s.syl_queues p _ _ [] hs (sylDrain_toQueue bank neg mask x _ _ (by decide))
  case drainPantry => exact s.syl_queues p _ _ [keyA x] hs (sylDrain_toPantry bank neg (by decide) ht)

end Sys2Proof.Machine
end

section
/-!
PROOFS. The matrix sequencer, the Deck loader and SWAP (03_matrix_unit.md R106, R107, R111 to R113).
-/
namespace Sys2Proof.Machine

open Sys2Proof

/-! ### The commands of the matrix unit that change its core alone -/

section
variable (s : State) (p : CoreIx) (hs : s.unitFree p)
include hs

theorem exec_matrixHandover : exec (.matrixHandover p) s = .next (s.withBody p (s.before p).handover) :=
  s.unit_body p CoreBody.handover hs

theorem exec_swapExecute : exec (.swapExecute p) s = .next (s.withBody p (s.before p).swapDecks) :=
  s.unit_body p CoreBody.swapDecks hs

theorem exec_dloadBegin : exec (.dloadBegin p) s = .next (s.withBody p (s.before p).dloadBegin) :=
  s.unit_body p CoreBody.dloadBegin hs

theorem exec_dloadComplete : exec (.dloadComplete p) s = .next (s.withBody p (s.before p).dloadComplete) :=
  s.unit_body p CoreBody.dloadComplete hs

theorem exec_matrixStepStart : exec (.matrixStepStart p) s = .next (s.withBody p (s.before p).matrixCycle) :=
  s.unit_body p CoreBody.matrixCycle hs

theorem exec_matrixStepWrite : exec (.matrixStepWrite p) s = .next (s.withBody p (s.before p).writeStep) :=
  s.unit_body p CoreBody.writeStep hs

theorem exec_drainRowRead : exec (.drainRowRead p) s = .next (s.withBody p (s.before p).drainRead) :=
  s.unit_body p CoreBody.drainRead hs

end

/-! ### The head of the Matrix Queue -/

/-- A queue whose head has something to do settles as it is. -/
theorem MatrixUnit.settle_of_settled {m : MatrixUnit}
    (h : settleQueue m.cycled m.eacc m.wfmt m.queue = (m.eacc, m.wfmt, m.queue)) : m.settle = m := by
  unfold MatrixUnit.settle
  rw [h]

theorem MatrixUnit.settle_dload {m : MatrixUnit} {base rows width : Nat} {mx : Bool} {q : List MxOp}
    (hq : m.queue = .dload base rows width mx :: q) (hr : rows ≠ 0) : m.settle = m := by
  obtain ⟨n, rfl⟩ := Nat.exists_eq_succ_of_ne_zero hr
  exact MatrixUnit.settle_of_settled (by rw [hq]; rfl)

theorem MatrixUnit.settle_drain {m : MatrixUnit} {bank neg toP : Bool} {form mask base : Nat} {q : List MxOp}
    (hq : m.queue = .drain bank form neg mask toP base :: q) (hm : mask % 16 ≠ 0) : m.settle = m :=
  MatrixUnit.settle_of_settled (by rw [hq, settleQueue, if_neg hm])

theorem MatrixUnit.settle_swap {m : MatrixUnit} {q : List MxOp} (hq : m.queue = .swap :: q) : m.settle = m :=
  MatrixUnit.settle_of_settled (by rw [hq]; rfl)

/-- The first pass of a cycle, or the third (R106). -/
theorem MatrixUnit.pass_not_over {m : MatrixUnit} (h : m.cycled = false ∨ m.pass3 = true) :
    ¬ (m.cycled && !m.pass3) = true := by
  rcases h with h | h
  · simp [h]
  · simp [h]

/-- The job of a DLOAD as its unit takes it over (R107, R111). -/
def MatrixUnit.loadJob (m : MatrixUnit) (base rows width : Nat) (mx : Bool) : DloadJob :=
  { base, rows, width, mx, perRow := reductionPerRow m.wfmt.toNat width, fresh := true, image := [], cyc := 0 }

theorem MatrixUnit.handover_dload {m : MatrixUnit} {base rows width : Nat} {mx : Bool} {q : List MxOp}
    (hq : m.queue = .dload base rows width mx :: q) (hr : rows ≠ 0) (hpass : m.cycled = false ∨ m.pass3 = true)
    (hp : m.loadPend = none) :
    m.handover = some { m with queue := q, loadPend := some (m.loadJob base rows width mx) }.settle := by
  unfold MatrixUnit.handover
  simp only [MatrixUnit.settle_dload hq hr, if_neg (MatrixUnit.pass_not_over hpass), hq, hp]
  rfl

/-- The job of a DRAIN as its unit takes it over (R107, R115). -/
def DrainJob.ofEntry (bank : Bool) (form : Nat) (neg : Bool) (mask : Nat) (toP : Bool) (base : Nat) : DrainJob :=
  { bank, form, neg, mask, toPantry := toP, base, next := 0, second := false, fresh := true }

theorem MatrixUnit.handover_drain {m : MatrixUnit} {bank neg toP : Bool} {form mask base : Nat} {q : List MxOp}
    (hq : m.queue = .drain bank form neg mask toP base :: q) (hm : mask % 16 ≠ 0)
    (hpass : m.cycled = false ∨ m.pass3 = true) (hp : m.drainPend = none) :
    m.handover = some { m with
      queue := q, drainPend := some (DrainJob.ofEntry bank form neg mask toP base) }.settle := by
  unfold MatrixUnit.handover
  simp only [MatrixUnit.settle_drain hq hm, if_neg (MatrixUnit.pass_not_over hpass), hq, hp]
  rfl

/-- A SWAP at the head in the first pass of a cycle, with no load left or completed in this cycle (R113). -/
theorem MatrixUnit.swap_head {m : MatrixUnit} {q : List MxOp} (hq : m.queue = .swap :: q) (hc : m.cycled = false)
    (hrun : m.loadRun = none) (hpend : m.loadPend = none) (hl : m.loaded = false) :
    m.swap = some { m with queue := q, activeD1 := !m.activeD1, shadowOk := false }.settle := by
  unfold MatrixUnit.swap
  simp only [MatrixUnit.settle_swap hq, hq, hc, hrun, hpend, hl]
  rfl

/-! ### The same on the core -/

theorem CoreBody.handover_of_some {b : CoreBody} {m : MatrixUnit} (h : b.mx.handover = some m) :
    b.handover = { b with mx := m } := by simp [CoreBody.handover, h]

theorem CoreBody.swapDecks_of_some {b : CoreBody} {m : MatrixUnit} (h : b.mx.swap = some m) :
    b.swapDecks = { b with mx := m } := by simp [CoreBody.swapDecks, h]

/-! ### The Deck loader -/

theorem CoreBody.dloadBegin_due {b : CoreBody} {j : DloadJob} (hrun : b.mx.loadRun = none) (hl : b.mx.loaded = false)
    (hpend : b.mx.loadPend = some j) (hf : j.fresh = false) :
    b.dloadBegin = { b with mx := { b.mx with loadPend := none, loadRun := some j } } := by
  have hdue : b.mx.beginDue = true := by simp [MatrixUnit.beginDue, hrun, hl, hpend, hf]
  rw [CoreBody.dloadBegin, if_pos hdue, hpend]

theorem CoreBody.dloadComplete_due {b : CoreBody} {j : DloadJob} (hrun : b.mx.loadRun = some j)
    (hc : j.cyc = j.accesses + 5) :
    b.dloadComplete = { b with
      mx := { b.mx.setShadow (b.mx.shadowDeck.load j.rows j.width j.mx j.perRow j.image) with
        loadRun := none, shadowOk := true, loaded := true } } := by
  have hdue : b.mx.completeDue = true := by simp [MatrixUnit.completeDue, hrun, hc]
  unfold CoreBody.dloadComplete
  simp only [hrun, if_pos hdue]

/-- The bytes of one access of the loader with their poison marks, and the image with them behind (R112). -/
def DloadJob.read (j : DloadJob) (m : Memory) (p a : Nat) : DloadJob :=
  { j with image := j.image ++ (List.range 256).map fun i =>
      (m.byte (pantryAddr p (a + i)), (m.state (pantryAddr p (a + i))).bad) }

/-- An access of the loader to clean words reads 256 bytes and leaves no trace but in the image. -/
theorem Eff.deckCycle_clean {e : Eff} {p : Nat} {j : DloadJob} (hb : e.hw.between p = true)
    (hrun : (e.hw.body p).mx.loadRun = some j) (hc : j.cyc < j.accesses)
    (hclean : e.mem.cleanAt (pantryAddr p ((e.hw.body p).phys j.base + 256 * j.cyc)) 256) :
    e.deckCycle p = e.up fun h => h.updBody p fun b => { b with mx := { (e.hw.body p).mx with
      loadRun := some (j.read e.mem p ((e.hw.body p).phys j.base + 256 * j.cyc)) } } := by
  unfold Eff.deckCycle
  simp only [hrun, if_neg (Nat.not_le.mpr hc), Eff.coreRead_clean _ _ _ _ hclean]
  simp only [Eff.up, Hw.updBody_between hb]
  rfl

/-- Settles O14: each clause is what its command does to the matrix unit of a core whose units may act. -/
theorem matrixSequencer : Obligations.MatrixSequencer := by
  unfold Obligations.MatrixSequencer
  intro s p q base rows width form mask mx bank neg toP j hs
  dsimp only
  refine ⟨fun hq hpass hr hp => ?dload, fun hq hpass hm hp => ?drain, fun hq hc hrun hpend hl => ?swap,
    fun hrun hl hpend hf => ?begins, fun hrun hc hclean => ?reads, fun hrun hc => ?completes⟩
  case dload =>
    rw [exec_matrixHandover s p hs, CoreBody.handover_of_some (MatrixUnit.handover_dload hq hr hpass hp)]
    rfl
  case drain =>
    rw [exec_matrixHandover s p hs, CoreBody.handover_of_some (MatrixUnit.handover_drain hq hm hpass hp)]
    rfl
  case swap =>
    rw [exec_swapExecute s p hs, CoreBody.swapDecks_of_some (MatrixUnit.swap_head hq hc hrun hpend hl)]
  case begins => rw [exec_dloadBegin s p hs, CoreBody.dloadBegin_due hrun hl hpend hf]
  case reads =>
    obtain ⟨-, hbetween, -⟩ := hs
    exact Eff.deckCycle_clean hbetween hrun hc hclean
  case completes => rw [exec_dloadComplete s p hs, CoreBody.dloadComplete_due hrun hc]

end Sys2Proof.Machine
end

section
/-!
PROOFS. One cycle of the matrix unit, and the write of a step (03_matrix_unit.md R100, R106, R110, R122, R123, R135).
-/
namespace Sys2Proof.Machine

open Sys2Proof

/-! ### The state with another core body -/

@[simp] theorem State.before_withBody (s : State) (p : Nat) (b : CoreBody) : (s.withBody p b).before p = b :=
  Hw.body_setCore_same _ _ _

theorem State.core_withBody_other (s : State) {p q : Nat} (b : CoreBody) (hq : q ≠ p) :
    (s.withBody p b).hw.core q = s.hw.core q := Hw.core_setCore_other _ _ hq

/-! ### What settling the queue and a new cycle leave -/

/-- The scalar and vector registers, the accumulators and both Decks are in `n` as in `b`. -/
structure CoreBody.KeepsCells (b n : CoreBody) : Prop where
  s : n.s = b.s
  v : n.v = b.v
  acc : n.mx.acc = b.mx.acc
  deck0 : n.mx.deck0 = b.mx.deck0
  deck1 : n.mx.deck1 = b.mx.deck1

theorem MatrixUnit.drainCan_settle (m : MatrixUnit) : m.settle.drainCan = m.drainCan := rfl

/-- A choice of two states neither of which is `z`. -/
theorem CycleState.ite_ne {c : Prop} [Decidable c] {x y z : CycleState} (hx : x ≠ z) (hy : y ≠ z) :
    (if c then x else y) ≠ z := by
  by_cases hc : c
  · rwa [if_pos hc]
  · rwa [if_neg hc]

/-- A cycle is one of drain back-up only where the drainer is backed up (R122). -/
theorem cycleState_ne_drainBackup {b : CoreBody} (h : b.mx.drainCan ≠ .backup) : cycleState b ≠ .drainBackup := by
  unfold cycleState
  dsimp only
  rw [if_neg h]
  refine CycleState.ite_ne (by decide) ?_
  split
  · -- an MMA has a step left: idle, one of the four freezes, or a start
    refine CycleState.ite_ne (by decide) <| CycleState.ite_ne (by decide) <| CycleState.ite_ne (by decide) <|
      CycleState.ite_ne (by decide) <| CycleState.ite_ne (by decide) ?_
    decide
  · decide

/-! ### The decision of a cycle (R122, R135) -/

/-- The unit with the counter of a state in which no step starts one higher (R135). -/
def MatrixUnit.counted (m : MatrixUnit) : CycleState → MatrixUnit
  | .active => { m with active := m.active + 1 }
  | .rampFreeze => { m with frzRamp := m.frzRamp + 1 }
  | .deckFreeze => { m with frzDeck := m.frzDeck + 1 }
  | .bankFreeze => { m with frzBank := m.frzBank + 1 }
  | .feedFreeze => { m with frzFeed := m.frzFeed + 1 }
  | _ => m

/-- The core as a step starts on it: its queue has settled, the pipeline has gone on, the cycle counts as active and the
ramp's window is open (R122, R127). -/
def CoreBody.starting (b : CoreBody) : CoreBody :=
  { b with mx := { b.mx.settle.advance with
      cycled := true, active := b.mx.active + 1, ramp := b.mx.ramp.map (rampOpen b.logical) } }

section
variable {b : CoreBody} (hc : b.mx.cycled = false) (hd : b.mx.beforeDue = false) (hr : b.readyDue = false)
include hc hd hr

/-- A cycle in which the drainer is backed up counts as such, and nothing moves. -/
theorem CoreBody.matrixCycle_backup (h : b.mx.drainCan = .backup) :
    b.matrixCycle = { b with mx := { b.mx with cycled := true, frzDrain := b.mx.frzDrain + 1 } } := by
  simp [CoreBody.matrixCycle, hc, hd, hr, h]

/-- A cycle in which no step starts moves the pipeline on and counts its state. -/
theorem CoreBody.matrixCycle_counts (h : b.mx.drainCan ≠ .backup)
    (hst : cycleState { b with mx := b.mx.settle } ≠ .starts) :
    b.matrixCycle = { b with mx :=
      { b.mx.settle.advance with cycled := true }.counted (cycleState { b with mx := b.mx.settle }) } := by
  have hback : cycleState { b with mx := b.mx.settle } ≠ .drainBackup := cycleState_ne_drainBackup h
  simp only [CoreBody.matrixCycle, hc, hd, hr, h, Bool.or_self, Bool.false_eq_true, if_false]
  generalize cycleState { b with mx := b.mx.settle } = st at hst hback
  cases st with
  | drainBackup => exact absurd rfl hback
  | starts => exact absurd rfl hst
  | active | idle | rampFreeze | deckFreeze | bankFreeze | feedFreeze => rfl

/-- A cycle in which a step may start starts it. -/
theorem CoreBody.matrixCycle_starts (h : b.mx.drainCan ≠ .backup)
    (hst : cycleState { b with mx := b.mx.settle } = .starts) : b.matrixCycle = b.starting.startStep := by
  simp only [CoreBody.matrixCycle, hc, hd, hr, h, hst, Bool.or_self, Bool.false_eq_true, if_false]
  rfl

end

/-! ### A step that starts (R100, R103, R110) -/

/-- The step that the head of the queue and a plane give, as it enters the pipeline. -/
def CoreBody.stepOf (b : CoreBody) (bank clear : Bool) (j0 started : Nat) (w : Walk) (p : Plane) : StepFlight :=
  let g := b.genP
  let wf := b.mx.wfmt.toNat
  let ff := isFourFour g.fmt wf
  let c1 := g.column p.index w.col p.elems
  let c2 := g.column p.index (w.col + 1) p.elems
  { bank, clear := clear && started == 0, eacc := b.mx.eacc, afmt := g.fmt, wfmt := wf
    col := (List.range 64).map fun r =>
      (if ff then [c1.getD r g.padElem, c2.getD r g.padElem] else [c1.getD r g.padElem]).map g.stepElem
    wts := b.mx.activeDeck.row wf ff (j0 + started), age := 0, passesLeft := if isSixteen g.fmt wf then 3 else 0 }

/-- The unit with a step `f` of the MMA at its head in the pipeline: the MMA leaves with its last step. -/
def MatrixUnit.withStep (m : MatrixUnit) (f : StepFlight) (bank clear : Bool) (j0 n started : Nat) (q : List MxOp) :
    MatrixUnit :=
  let last := decide (n ≤ started + 1)
  let m' := { m with
    queue := if last then q else .mma bank clear j0 n (started + 1) :: q, flights := m.flights ++ [f], pass3 := last }
  if last then m'.settle else m'

theorem MatrixUnit.withStep_frame (m : MatrixUnit) (f : StepFlight) (bank clear : Bool) (j0 n started : Nat)
    (q : List MxOp) :
    (m.withStep f bank clear j0 n started q).flights = m.flights ++ [f] ∧
      (m.withStep f bank clear j0 n started q).cycled = m.cycled ∧
      (m.withStep f bank clear j0 n started q).active = m.active ∧
      (m.withStep f bank clear j0 n started q).acc = m.acc ∧
      (m.withStep f bank clear j0 n started q).deck0 = m.deck0 ∧
      (m.withStep f bank clear j0 n started q).deck1 = m.deck1 := by
  unfold MatrixUnit.withStep
  cases decide (n ≤ started + 1) with
  | false => exact ⟨rfl, rfl, rfl, rfl, rfl, rfl⟩
  | true => exact ⟨rfl, rfl, rfl, rfl, rfl, rfl⟩

/-- With an MMA at the head and a plane in front, its step joins the pipeline. -/
theorem CoreBody.startStep_head {b : CoreBody} {bank clear : Bool} {j0 n started : Nat} {q : List MxOp} {w : Walk}
    {p : Plane} (hq : b.mx.queue = .mma bank clear j0 n started :: q) (hw : b.walk = some w) (hp : w.front = some p) :
    b.startStep = { b with
      mx := b.mx.withStep (b.stepOf bank clear j0 started w p) bank clear j0 n started q
      walk := some (w.take b.genP (stepColumns b.genP.fmt b.mx.wfmt.toNat)) } := by
  simp only [CoreBody.startStep, hq, hw, hp]
  rfl

/-- A start touches no register, no cell and no Deck, and the cycle stays the one that it is. -/
theorem CoreBody.startStep_frame (b : CoreBody) :
    b.KeepsCells b.startStep ∧ b.startStep.mx.cycled = b.mx.cycled := by
  by_cases h : ∃ bank clear j0 n started q w p, b.mx.queue = .mma bank clear j0 n started :: q ∧ b.walk = some w ∧
      w.front = some p
  · obtain ⟨bank, clear, j0, n, started, q, w, p, hq, hw, hp⟩ := h
    obtain ⟨-, hcyc, -, hacc, hdeck0, hdeck1⟩ :=
      b.mx.withStep_frame (b.stepOf bank clear j0 started w p) bank clear j0 n started q
    rw [CoreBody.startStep_head hq hw hp]
    exact ⟨⟨rfl, rfl, hacc, hdeck0, hdeck1⟩, hcyc⟩
  · have hsame : b.startStep = b := by
      unfold CoreBody.startStep
      dsimp only
      split
      · rename_i hq hw
        split
        · rfl
        · rename_i hp
          exact absurd ⟨_, _, _, _, _, _, _, _, hq, hw, hp⟩ h
      · rfl
    rw [hsame]
    exact ⟨⟨rfl, rfl, rfl, rfl, rfl⟩, rfl⟩

/-! ### What every cycle keeps -/

theorem MatrixUnit.counted_frame (m : MatrixUnit) (st : CycleState) :
    (m.counted st).cycled = m.cycled ∧ (m.counted st).flights = m.flights ∧ (m.counted st).acc = m.acc ∧
      (m.counted st).deck0 = m.deck0 ∧ (m.counted st).deck1 = m.deck1 := by
  cases st with
  | active | idle | rampFreeze | deckFreeze | bankFreeze | feedFreeze | starts | drainBackup =>
    exact ⟨rfl, rfl, rfl, rfl, rfl⟩

section
variable {b : CoreBody} (hc : b.mx.cycled = false) (hd : b.mx.beforeDue = false) (hr : b.readyDue = false)
include hc hd hr

/-- The decision comes once in a cycle, and touches no register, no cell and no Deck. -/
theorem CoreBody.matrixCycle_frame : b.KeepsCells b.matrixCycle ∧ b.matrixCycle.mx.cycled = true := by
  by_cases hb : b.mx.drainCan = .backup
  · rw [CoreBody.matrixCycle_backup hc hd hr hb]
    exact ⟨⟨rfl, rfl, rfl, rfl, rfl⟩, rfl⟩
  · by_cases hst : cycleState { b with mx := b.mx.settle } = .starts
    · obtain ⟨⟨hs, hv, hacc, hdeck0, hdeck1⟩, hcyc⟩ := b.starting.startStep_frame
      rw [CoreBody.matrixCycle_starts hc hd hr hb hst]
      exact ⟨⟨hs, hv, hacc, hdeck0, hdeck1⟩, hcyc⟩
    · obtain ⟨hcyc, -, hacc, hdeck0, hdeck1⟩ :=
        { b.mx.settle.advance with cycled := true }.counted_frame (cycleState { b with mx := b.mx.settle })
      rw [CoreBody.matrixCycle_counts hc hd hr hb hst]
      exact ⟨⟨rfl, rfl, hacc, hdeck0, hdeck1⟩, hcyc⟩

/-- A step that may start takes its operands and counts as active. -/
theorem CoreBody.matrixCycle_takes (h : b.mx.drainCan ≠ .backup)
    (hst : cycleState { b with mx := b.mx.settle } = .starts) {bank clear : Bool} {j0 n started : Nat} {q : List MxOp}
    {w : Walk} {p : Plane} (hq : b.mx.settle.queue = .mma bank clear j0 n started :: q) (hw : b.walk = some w)
    (hp : w.front = some p) :
    b.matrixCycle.mx.active = b.mx.settle.active + 1 ∧
      b.matrixCycle.mx.flights = b.mx.settle.advance.flights ++ [b.starting.stepOf bank clear j0 started w p] := by
  obtain ⟨hflights, -, hactive, -⟩ :=
    b.starting.mx.withStep_frame (b.starting.stepOf bank clear j0 started w p) bank clear j0 n started q
  rw [CoreBody.matrixCycle_starts hc hd hr h hst, CoreBody.startStep_head (b := b.starting) hq hw hp]
  exact ⟨hactive, hflights⟩

/-- A cycle in which no step starts lets none into the pipeline. -/
theorem CoreBody.matrixCycle_flights (h : b.mx.drainCan ≠ .backup)
    (hst : cycleState { b with mx := b.mx.settle } ≠ .starts) :
    b.matrixCycle.mx.flights.length = b.mx.settle.flights.length := by
  obtain ⟨-, hflights, -⟩ :=
    { b.mx.settle.advance with cycled := true }.counted_frame (cycleState { b with mx := b.mx.settle })
  rw [CoreBody.matrixCycle_counts hc hd hr h hst]
  exact (congrArg List.length hflights).trans (List.length_map _)

/-- The counters after a cycle in which no step starts, for its state. -/
theorem CoreBody.matrixCycle_state (h : b.mx.drainCan ≠ .backup) {st : CycleState}
    (hst : cycleState { b with mx := b.mx.settle } = st) (hne : st ≠ .starts) :
    b.matrixCycle.mx = { b.mx.settle.advance with cycled := true }.counted st := by
  rw [CoreBody.matrixCycle_counts hc hd hr h (hst ▸ hne), hst]

end

/-! ### The write of a step (R73, R100, R110, R123) -/

/-- A clear step latches its E_acc for its bank (R71, R110). -/
def MatrixUnit.latched (m : MatrixUnit) (f : StepFlight) : MatrixUnit :=
  if f.clear then if f.bank then { m with latch1 := f.eacc } else { m with latch0 := f.eacc } else m

theorem MatrixUnit.latch_latched (m : MatrixUnit) (f : StepFlight) (bank : Bool) :
    (m.latched f).latch bank = if f.clear = true ∧ bank = f.bank then f.eacc else m.latch bank := by
  unfold MatrixUnit.latched MatrixUnit.latch
  cases f.clear with
  | false => simp
  | true => cases f.bank <;> cases bank <;> rfl

/-- The new value of cell `i` of the bank of a step, and whether a product lay outside the window. -/
def MatrixUnit.stepCell (m : MatrixUnit) (f : StepFlight) (i : Nat) : Acc × Bool :=
  cellStep m.negate f (m.cell f.bank (i / 2048) (i / 32 % 64) (i % 32)) (i / 32 % 64) (32 * (i / 2048) + i % 32)
    ((m.latched f).latch f.bank).toInt

theorem MatrixUnit.writeDue_backup {m : MatrixUnit} (h : m.drainCan = .backup) : m.writeDue = false := by
  simp [MatrixUnit.writeDue, h]

theorem MatrixUnit.writeDue_of_head {m : MatrixUnit} {f : StepFlight} {fs : List StepFlight} (hc : m.cycled = false)
    (hd : m.drainCan ≠ .backup) (hf : m.flights = f :: fs) (hl : writeLatency f.afmt f.wfmt ≤ f.age + 1) :
    m.writeDue = true := by
  simp [MatrixUnit.writeDue, hc, hd, hf, hl]

theorem CoreBody.writeStep_of_not_due {b : CoreBody} (h : b.mx.writeDue = false) : b.writeStep = b := by
  unfold CoreBody.writeStep
  dsimp only
  split
  · rfl
  · simp [h]

/-- The oldest step, where it is due, writes every cell of its bank and leaves the pipeline. -/
theorem CoreBody.writeStep_due {b : CoreBody} {f : StepFlight} {fs : List StepFlight} (hf : b.mx.flights = f :: fs)
    (h : b.mx.writeDue = true) :
    b.writeStep.mx = { b.mx.latched f with
      flights := fs, wrote := some f.bank, acc := setBank b.mx.acc f.bank fun i => (b.mx.stepCell f i).1 } := by
  unfold CoreBody.writeStep
  dsimp only
  split
  · rename_i hnone
    rw [hnone] at hf
    contradiction
  · rename_i f' fs' hcons
    rw [hcons] at hf
    cases hf
    rw [if_neg (by simp [h])]
    rfl

/-! ### The cells of a bank that has been written -/

/-- A cell of the bank that has been written takes the value of its place in it. -/
theorem get_setBank_cell (acc : Tbl Acc) (bank : Bool) (g : Nat → Acc) {a r c : Nat} (ha : a < 4) (hr : r < 64)
    (hc : c < 32) :
    Tbl.get (fun _ => Acc.zero) (setBank acc bank g) (cellKey bank a r c) = g ((a * 64 + r) * 32 + c) := by
  have hkey : cellKey bank a r c = bank.toNat * 8192 + ((a * 64 + r) * 32 + c) := by
    unfold cellKey
    omega
  rw [get_setBank, hkey, if_pos (by omega), Nat.add_sub_cancel_left]

/-- A cell of the other bank keeps its value. -/
theorem get_setBank_otherCell (acc : Tbl Acc) (bank : Bool) (g : Nat → Acc) {a r c : Nat} (ha : a < 4) (hr : r < 64)
    (hc : c < 32) :
    Tbl.get (fun _ => Acc.zero) (setBank acc bank g) (cellKey (!bank) a r c) =
      Tbl.get (fun _ => Acc.zero) acc (cellKey (!bank) a r c) := by
  rw [get_setBank, if_neg]
  unfold cellKey
  cases bank <;> simp only [Bool.not_true, Bool.not_false, Bool.toNat_true, Bool.toNat_false] <;> omega

/-- Cell `(r, c)` of array `a`, by its place in the bank. -/
theorem MatrixUnit.stepCell_place (m : MatrixUnit) (f : StepFlight) {a r c : Nat} (hr : r < 64) (hc : c < 32) :
    m.stepCell f ((a * 64 + r) * 32 + c) =
      cellStep m.negate f (m.cell f.bank a r c) r (32 * a + c) ((m.latched f).latch f.bank).toInt := by
  have harray : ((a * 64 + r) * 32 + c) / 2048 = a := by omega
  have hrow : ((a * 64 + r) * 32 + c) / 32 % 64 = r := by omega
  have hcol : ((a * 64 + r) * 32 + c) % 32 = c := by omega
  rw [MatrixUnit.stepCell, harray, hrow, hcol]

/-- The unit after the write of a due step: the pipeline without it, the latches, and the cells of both banks. -/
theorem CoreBody.writeStep_cells {b : CoreBody} {f : StepFlight} {fs : List StepFlight} (hf : b.mx.flights = f :: fs)
    (h : b.mx.writeDue = true) :
    b.writeStep.mx.flights = fs ∧ (∀ bank, b.writeStep.mx.latch bank = (b.mx.latched f).latch bank) ∧
      ∀ a r c, a < 4 → r < 64 → c < 32 →
        b.writeStep.mx.cell f.bank a r c =
          (cellStep b.mx.negate f (b.mx.cell f.bank a r c) r (32 * a + c) ((b.mx.latched f).latch f.bank).toInt).1 ∧
        b.writeStep.mx.cell (!f.bank) a r c = b.mx.cell (!f.bank) a r c := by
  rw [CoreBody.writeStep_due hf h]
  refine ⟨rfl, fun _ => rfl, fun a r c ha hr hc => ⟨?_, get_setBank_otherCell _ _ _ ha hr hc⟩⟩
  rw [← MatrixUnit.stepCell_place _ _ hr hc]
  exact get_setBank_cell _ _ _ ha hr hc

/-- Settles O15: the decision of a cycle by the state of the arrays, and the write of a step cell by cell. -/
theorem matrixCycle : Obligations.MatrixCycle := by
  unfold Obligations.MatrixCycle
  refine ⟨fun s p q bank clear j0 n started w pl hs => ?decision, fun s p f fs hs => ?write⟩
  case decision =>
    dsimp only
    intro hc hd hr
    obtain ⟨⟨hsr, hvr, hacc, hdeck0, hdeck1⟩, hcyc⟩ := CoreBody.matrixCycle_frame hc hd hr
    refine ⟨_, exec_matrixStepStart s p hs, rfl, fun c hne => s.core_withBody_other _ hne, ?_⟩
    rw [State.before_withBody]
    refine ⟨hcyc, hsr, hvr, hacc, hdeck0, hdeck1, fun hb => ?backup, fun hb => ⟨fun hst hq hw hf => ?starts,
      fun hst => CoreBody.matrixCycle_flights hc hd hr hb hst, fun hst => ?active, fun hst => ?feed, fun hst => ?deck,
      fun hst => ?bank, fun hst => ?ramp, fun hst => ?idle⟩⟩
    case backup => rw [CoreBody.matrixCycle_backup hc hd hr hb]
    case starts =>
      obtain ⟨hactive, hflights⟩ := CoreBody.matrixCycle_takes hc hd hr hb hst hq hw hf
      refine ⟨hactive, ?_, (s.before p).starting.stepOf bank clear j0 started w pl, ?_, rfl, rfl, rfl, rfl⟩
      · rw [hflights, List.length_append]
        exact congrArg (· + 1) (List.length_map _)
      · rw [hflights, List.getLast?_concat]
    case idle =>
      rw [CoreBody.matrixCycle_state hc hd hr hb hst (by decide)]
      exact ⟨rfl, rfl, rfl, rfl, rfl, rfl⟩
    case active | feed | deck | bank | ramp =>
      rw [CoreBody.matrixCycle_state hc hd hr hb hst (by decide)]
      rfl
  case write =>
    dsimp only
    refine ⟨fun hb => ?backup, fun hc hb hf hl => ?due⟩
    case backup => rw [exec_matrixStepWrite s p hs, CoreBody.writeStep_of_not_due (MatrixUnit.writeDue_backup hb)]
    case due =>
      obtain ⟨hflights, hlatch, hcells⟩ :=
        CoreBody.writeStep_cells hf (MatrixUnit.writeDue_of_head hc hb hf hl)
      refine ⟨_, exec_matrixStepWrite s p hs, rfl, ?_⟩
      rw [State.before_withBody]
      refine ⟨hflights, ?_, ?_, fun a r c ha hr hc => ?_⟩
      · rw [hlatch, MatrixUnit.latch_latched]
        simp
      · rw [hlatch, MatrixUnit.latch_latched, if_neg (by simp)]
      · rw [hlatch]
        exact hcells a r c ha hr hc

/-! ### A core on which a step starts -/

/-- A core with an MMA of one step in its queue and a ready plane of one position in its Window Register. -/
def startingCore : CoreBody :=
  { CoreBody.reset with
    gen := [(1, 64), (2, 64), (3, 1), (4, 32), (5, 32), (7, 1), (8, 1), (9, 1), (10, 1), (11, 1), (12, 1), (19, 1),
      (20, 1), (35, 1), (36, 1)]
    walk := some ⟨1, some ⟨0, 0, Memory.empty, true, []⟩, none, 0, none⟩
    mx := { MatrixUnit.zero with queue := [.mma true true 0 1 0] } }

theorem startingCore_due : startingCore.mx.cycled = false ∧ startingCore.mx.beforeDue = false ∧
    startingCore.readyDue = false ∧ startingCore.mx.drainCan ≠ .backup ∧
    cycleState { startingCore with mx := startingCore.mx.settle } = .starts := by
  and_intros <;> decide +kernel

/-- On it the step starts: the cycle counts as active, and the step is in the pipeline. -/
theorem startingCore_takes :
    startingCore.matrixCycle.mx.active = 1 ∧ startingCore.matrixCycle.mx.flights.length = 1 := by
  obtain ⟨hc, hd, hr, hb, hst⟩ := startingCore_due
  obtain ⟨hactive, hflights⟩ := CoreBody.matrixCycle_takes hc hd hr hb hst rfl rfl rfl
  exact ⟨hactive, congrArg List.length hflights⟩

end Sys2Proof.Machine
end

section
/-!
PROOFS. The drainer: rows read from a bank and delivered (03_matrix_unit.md R115 to R117, R119).
-/
namespace Sys2Proof

variable {α : Type}

theorem Tbl.insert_insert (t : Tbl α) (k : Nat) (v w : α) :
    Tbl.insert (Tbl.insert t k v) k w = Tbl.insert t k w := by
  induction t with
  | nil => simp [Tbl.insert]
  | cons e t ih =>
    obtain ⟨j, x⟩ := e
    by_cases hj : j = k
    · simp [Tbl.insert, hj]
    · by_cases hlt : k < j
      · simp [Tbl.insert, hj, hlt]
      · simp [Tbl.insert, hj, hlt, ih]

theorem Tbl.erase_insert (t : Tbl α) (k : Nat) (v : α) : Tbl.erase (Tbl.insert t k v) k = Tbl.erase t k := by
  induction t with
  | nil => simp [Tbl.insert, Tbl.erase]
  | cons e t ih =>
    obtain ⟨j, x⟩ := e
    by_cases hj : j = k
    · simp [Tbl.insert, Tbl.erase, hj]
    · by_cases hlt : k < j
      · simp [Tbl.insert, Tbl.erase, hj, hlt]
      · simpa [Tbl.insert, Tbl.erase, hj, hlt] using ih

/-- The later of two writes to a key stands, where the first lists an entry. -/
theorem Tbl.put_put [DecidableEq α] (d : Nat → α) (t : Tbl α) (k : Nat) {v : α} (w : α) (hv : v ≠ d k) :
    Tbl.put d (Tbl.put d t k v) k w = Tbl.put d t k w := by
  simp only [Tbl.put, if_neg hv, Tbl.insert_insert, Tbl.erase_insert]

end Sys2Proof

namespace Sys2Proof.Machine

open Sys2Proof

/-! ### Two changes of one core -/

theorem Hw.setCore_setCore (h : Hw) (p : Nat) {c : Core} (e : Core) (hc : c ≠ Core.reset) :
    (h.setCore p c).setCore p e = h.setCore p e := by
  have hcores := Tbl.put_put (fun _ => Core.reset) h.cores p e hc
  simp only [Hw.setCore, hcores]

/-- Two changes in turn of what a core between bundles holds are one, where the first does not leave it as after
reset. -/
theorem Hw.updBody_updBody {h : Hw} {p : Nat} (hb : h.between p = true) (f g : CoreBody → CoreBody)
    (hf : f (h.body p) ≠ CoreBody.reset) : (h.updBody p f).updBody p g = h.setCore p ⟨g (f (h.body p)), none⟩ := by
  have hne : (⟨f (h.body p), none⟩ : Core) ≠ Core.reset := fun heq => hf (congrArg Core.body heq)
  rw [Hw.updBody_between hb, Hw.updBody, Hw.core_setCore_same, Hw.setCore_setCore _ _ _ hne]
  rfl

/-! ### The read of a row (R115, R119) -/

/-- The drained rows of a job, in its form, on their way (R115 to R117). -/
def DrainJob.rows (d : DrainJob) (pbase : Nat) (vs : List Vec) : List DrainRow :=
  (List.range vs.length).map fun h =>
    { lanes := vs.getD h Vec.zero
      dest := if d.toPantry then some (32 * pbase + d.base + d.next * rowBytes d.form + 256 * h) else none
      bytes := min 256 (rowBytes d.form), left := 2 + h }

theorem DrainJob.rows_lanes (d : DrainJob) (pbase : Nat) (vs : List Vec) :
    (d.rows pbase vs).map DrainRow.lanes = vs := by
  unfold DrainJob.rows
  rw [List.map_map]
  refine List.ext_getElem (by simp) fun i hi _ => ?_
  have hi : i < vs.length := by simpa using hi
  simp [List.getD, hi]

/-- The job after its row, one row further on. -/
def DrainJob.step (d : DrainJob) : DrainJob := { d with next := d.next + 1, second := d.form == 2 }

/-- The read of the next row of the drain at work. -/
theorem MatrixUnit.readRow_next {m : MatrixUnit} {d : DrainJob} (pbase : Nat) (hnow : m.drainNow = some d)
    (hs : d.second = false) (hcan : m.drainCan = .reads) :
    m.readRow pbase = some
      ({ m with
          drainPend := if m.drainRun.isNone then none else m.drainPend
          drained := true
          rowsOut := m.rowsOut ++ d.rows pbase (rowLanes d.form (m.latch d.bank).toInt (m.rowCells d)).1
          drainRun := if 64 * (maskArrays d.mask).length ≤ d.step.next && !d.step.second then none else some d.step },
        (rowLanes d.form (m.latch d.bank).toInt (m.rowCells d)).2) := by
  unfold MatrixUnit.readRow
  rw [if_neg (by simp [hcan])]
  simp only [hnow, hs, Bool.false_eq_true, if_false]
  cases m.drainRun with
  | none => rfl
  | some _ => rfl

theorem CoreBody.drainRead_of_some {b : CoreBody} {m : MatrixUnit} {fl : AFlags}
    (h : b.mx.readRow b.pbase = some (m, fl)) :
    b.drainRead = { b with mx := m, arith := b.arith ||| fl } := by simp [CoreBody.drainRead, h]

/-! ### The delivery of a row (R115 to R117) -/

theorem MatrixUnit.deliverDue_of_head {m : MatrixUnit} {r : DrainRow} {rs : List DrainRow} (hc : m.cycled = false)
    (hd : m.drainCan ≠ .backup) (hr : m.rowsOut = r :: rs) (hl : r.left = 0) : m.deliverDue = true := by
  simp [MatrixUnit.deliverDue, hc, hd, hr, hl]

/-- The core with one more write that waits for the end of its cycle (06 R223). -/
def CoreBody.addWrite (b : CoreBody) (w : PantryWrite) : CoreBody := { b with writes := b.writes ++ [w] }

theorem CoreBody.addWrite_ne_reset (b : CoreBody) (w : PantryWrite) : b.addWrite w ≠ CoreBody.reset := by
  intro heq
  have hwrites : b.writes ++ [w] = [] := congrArg CoreBody.writes heq
  simp at hwrites

/-- A write of a core that issues waits for the end of the cycle (06 R223). -/
theorem Eff.slotWrite_issuing {e : Eff} {p : Nat} (slot a : Nat) {bs : List Byte} (poison : Bool) (hb : bs ≠ [])
    (hi : (e.hw.body p).canIssue = true) (hh : e.hw.held p = false) :
    e.slotWrite p slot a bs poison =
      e.up fun h => h.updBody p fun b => b.addWrite ⟨slot, a, bs, poison⟩ := by
  unfold Eff.slotWrite
  rw [if_neg (by simpa using hb), if_pos (by simp [hi, hh])]
  rfl

/-- A delivery, as an effect of a unit that may act. -/
theorem exec_drainRowDeliver {s : State} {p : CoreIx} (hs : s.unitFree p) :
    exec (.drainRowDeliver p) s = .next (s.after ((Eff.start s.hw s.mem).drainDeliver p)) := by
  obtain ⟨hheld, hbetween, hcut⟩ := hs
  have hunit := Eff.unit_free (e := Eff.start s.hw s.mem) (fun e => e.drainDeliver p) hheld hbetween hcut
  have hexec : exec (.drainRowDeliver p) s = s.done fun e => e.unit p fun e => e.drainDeliver p := rfl
  rw [hexec, State.done_next, hunit]
  rfl

/-- A row without a destination is delivered to the Drain Queue. -/
theorem Eff.drainDeliver_queue {e : Eff} {p : Nat} {r : DrainRow} {rs : List DrainRow}
    (hdue : (e.hw.body p).mx.deliverDue = true) (hr : (e.hw.body p).mx.rowsOut = r :: rs) (hdest : r.dest = none) :
    e.drainDeliver p = e.up fun h => h.updBody p fun b =>
      { b with mx := { b.mx with rowsOut := rs, landed := b.mx.landed ++ [r.lanes] } } := by
  unfold Eff.drainDeliver
  simp [hdue, hr, hdest]

/-- A row of a drain to the Pantry is delivered through slot 2. -/
theorem Eff.drainDeliver_pantry {e : Eff} {p : Nat} {r : DrainRow} {rs : List DrainRow} {dst : Nat}
    (hdue : (e.hw.body p).mx.deliverDue = true) (hr : (e.hw.body p).mx.rowsOut = r :: rs) (hdest : r.dest = some dst) :
    e.drainDeliver p = (e.slotWrite p 2 dst (r.lanes.bytes.take r.bytes) false).up fun h => h.updBody p fun b =>
      { b with mx := { b.mx with rowsOut := rs } } := by
  unfold Eff.drainDeliver
  simp [hdue, hr, hdest]

/-- Settles O16: the read of a row, and the delivery of one to the Drain Queue and to the Pantry. -/
theorem drainer : Obligations.Drainer := by
  unfold Obligations.Drainer
  intro s p d r rs dst hs
  dsimp only
  refine ⟨fun hnow hsec hcan => ?read, fun hc hd hr => ?queue, fun hc hd hr hi hbytes => ?pantry⟩
  case read =>
    refine ⟨_, exec_drainRowRead s p hs, rfl, ?_⟩
    rw [State.before_withBody, CoreBody.drainRead_of_some (MatrixUnit.readRow_next _ hnow hsec hcan)]
    refine ⟨⟨_, rfl, DrainJob.rows_lanes _ _ _⟩, rfl, rfl, rfl, fun d' hd' => ?_⟩
    have hstep : d.step = d' := by
      dsimp only at hd'
      split at hd'
      · contradiction
      · exact Option.some.inj hd'
    rw [← hstep]
    rfl
  case queue =>
    have hdue := MatrixUnit.deliverDue_of_head hc hd hr rfl
    have ⟨_, hbetween, _⟩ := hs
    rw [exec_drainRowDeliver hs, Eff.drainDeliver_queue (e := Eff.start s.hw s.mem) hdue hr rfl]
    exact congrArg (fun h => Host.Outcome.next (s.withHw h)) (Hw.updBody_between hbetween _)
  case pantry =>
    have hdue := MatrixUnit.deliverDue_of_head hc hd hr rfl
    have ⟨hheld, hbetween, _⟩ := hs
    rw [exec_drainRowDeliver hs, Eff.drainDeliver_pantry (e := Eff.start s.hw s.mem) hdue hr rfl,
      Eff.slotWrite_issuing (e := Eff.start s.hw s.mem) 2 dst false hbytes hi hheld]
    exact congrArg (fun h => Host.Outcome.next (s.withHw h))
      (Hw.updBody_updBody hbetween _ _ ((s.hw.body p).addWrite_ne_reset _))

end Sys2Proof.Machine
end

section
/-!
PROOFS. Sensor streams in Pantry mode (07_streams_and_line_lock.md R284 to R290): a core that runs a kernel holds what a
stream writes into its Pantry until its cycle ends (06 R223), so that the statements which keep every core fail.
-/
namespace Sys2Proof.Machine

open Sys2Proof

/-! ### The conditions of R324 change no core -/

@[simp] theorem Hw.updQueue_cores (h : Hw) (q : Nat) (f : Queue → Queue) : (h.updQueue q f).cores = h.cores := rfl

@[simp] theorem Hw.complete_cores (h : Hw) (i : Nat) (d : Done) : (h.complete i d).cores = h.cores := by
  unfold Hw.complete
  split
  · rfl
  · split
    · rfl
    · dsimp only
      split
      · split
        · rfl
        · rfl
      · split
        · rfl
        · rfl

@[simp] theorem Hw.leave_cores (h : Hw) (q : Nat) : (h.leave q).cores = h.cores := by
  unfold Hw.leave
  split
  · rfl
  · split
    · rfl
    · dsimp only
      split
      · rfl
      · split
        · rfl
        · simp

@[simp] theorem Hw.unwind_cores (h : Hw) (q n : Nat) : (h.unwind q n).cores = h.cores := by
  induction n generalizing h with
  | zero => rfl
  | succ n ih =>
    unfold Hw.unwind
    split
    · simp [ih]
    · rfl

@[simp] theorem Hw.release_cores (h : Hw) (q : Nat) : (h.release q).cores = h.cores := by
  simp [Hw.release, Hw.moveOn]

@[simp] theorem Hw.holdEffect_cores (h : Hw) (q : Nat) (x : Hold) : (h.holdEffect q x).cores = h.cores := by
  cases x with
  | gate s par t =>
    simp only [Hw.holdEffect]
    split
    · split
      · rfl
      · rfl
    · rfl
  | _ => rfl

@[simp] theorem Hw.tryHold_cores (h : Hw) (q : Nat) (a : MemAnswer) : (h.tryHold q a).cores = h.cores := by
  unfold Hw.tryHold
  split
  · rfl
  · split
    · split
      · simp
      · rfl
    · rfl

@[simp] theorem Hw.recheck_cores (h : Hw) (q : Nat) (a : MemAnswer) : (h.recheck q a).cores = h.cores := by
  unfold Hw.recheck
  split
  · rfl
  · split
    · rfl
    · simp

@[simp] theorem Hw.irqOf_cores (h : Hw) (o en lo : Nat) : (h.irqOf o en lo).cores = h.cores := by
  unfold Hw.irqOf
  split
  · rfl
  · rfl

@[simp] theorem Hw.starve_cores (h : Hw) : h.starve.cores = h.cores := by
  unfold Hw.starve
  dsimp only
  split
  · split
    · rfl
    · simp
  · rfl

theorem Hw.recheckAll_cores (h : Hw) : h.recheckAll.cores = h.cores := by
  have hfold : ∀ (xs : Tbl (Option Queue)) (k : Hw),
      (xs.foldl (fun k x => k.recheck x.1 (.data [])) k).cores = k.cores := by
    intro xs
    induction xs with
    | nil => exact fun _ => rfl
    | cons x xs ih => exact fun k => (ih _).trans (k.recheck_cores _ _)
  rw [Hw.recheckAll, Hw.starve_cores, hfold]

/-- The cores of a state that a command leaves are those of its effect, whatever is evaluated again after it. -/
theorem State.cores_of_rechecked {s t : State} {f : Eff → Eff}
    (h : s.done (fun e => (f e).up Hw.recheckAll) = .next t.rechecked) :
    t.hw.cores = (f (Eff.start s.hw s.mem)).hw.cores := by
  rw [State.done_next] at h
  have hhw : (f (Eff.start s.hw s.mem)).hw.recheckAll = t.hw.recheckAll :=
    congrArg State.hw (Host.Outcome.next.inj h)
  rw [← t.hw.recheckAll_cores, ← hhw, Hw.recheckAll_cores]

/-- A command after which a core holds other writes of its cycle than before cannot have kept every core. -/
theorem State.cores_ne_of_writes {s t : State} {f : Eff → Eff} {p : Nat}
    (h : s.done (fun e => (f e).up Hw.recheckAll) = .next t.rechecked)
    (hw : ((f (Eff.start s.hw s.mem)).hw.body p).writes ≠ (s.hw.body p).writes) : t.hw.cores ≠ s.hw.cores := by
  intro hc
  have hf : (f (Eff.start s.hw s.mem)).hw.cores = s.hw.cores := (State.cores_of_rechecked h).symm.trans hc
  exact hw (by simp only [Hw.body, Hw.core, hf])

/-! ### A stream into the Pantry of a core that runs a kernel -/

/-- The registers of ingress port 0 in power and of its stream 0: an LPI line stream of one position in Pantry mode on
core 0, with a line period of 1 ns, whose frame 0 is OPEN at position 0. -/
def pantryStreamRegs : List (Nat × Word) :=
  [(Reg.pwrUnitUp, 2 ^ 16), (Reg.pantryGranuleState 0, 0xFFFF), (Reg.scCtrl 0, 1), (Reg.scGeom 0, 0x10001),
   (Reg.scRing 0, 0x1001), (Reg.scStatusBase 0, 1), (Reg.scStripeLines 0, 1), (Reg.scLinePeriod 0, 1),
   (gateReg 0 0, 2 ^ 16)]

/-- Core 0 runs a kernel, at a Dealer time of 1 ns, while that stream's frame is open. -/
def pantryStream : State :=
  let h := pantryStreamRegs.foldl (fun h x => h.setReg x.1 x.2) Hw.reset
  State.reset.withHw ((h.updDealer fun d => { d with time := 2 ^ 32 }).setCore 0
    ⟨{ CoreBody.reset with run := .issuing }, none⟩)

/-- The FRAME_END packet of frame 0 of stream 0. -/
def frameEndPacket : List Byte :=
  let header := 3 :: List.replicate 29 0
  header ++ leBytes 2 (crc16 header).toNat

/-- What slot 6 of the core is to write at the end of its cycle: the status word of position 0 as a hole. -/
def pantryHole : PantryWrite := ⟨6, 32, (pantryStream.hw.hole 0 0 0).word stHole 1, false⟩

theorem pantryStream_writes : (pantryStream.hw.body 0).writes = [] := by decide +kernel

theorem frameEnd_writes :
    (((Eff.start pantryStream.hw pantryStream.mem).lpiPacket 0 3 frameEndPacket .last).hw.body 0).writes =
      [pantryHole] := by decide +kernel

theorem positionDeadline_writes :
    (((Eff.start pantryStream.hw pantryStream.mem).positionDeadline 0).hw.body 0).writes = [pantryHole] := by
  decide +kernel

/-- Refutes O31: a FRAME_END of a stream in Pantry mode, whose core runs a kernel, changes that core: it holds the status
word of the hole until its cycle ends (06 R223). -/
theorem not_lpiPackets : ¬ Obligations.LpiPackets := by
  unfold Obligations.LpiPackets
  intro h
  obtain ⟨-, -, frameEnd, -⟩ := h.1 pantryStream 0 frameEndPacket 3 0 (by decide +kernel) rfl (by decide +kernel)
    (by decide +kernel) (by decide +kernel) (by decide +kernel) (by decide +kernel) (by decide +kernel)
    (by decide +kernel) (by decide +kernel)
  obtain ⟨t, hexec, hcores, -⟩ := frameEnd rfl (by decide +kernel) (by decide +kernel)
  exact State.cores_ne_of_writes (p := 0) (f := fun e => e.lpiPacket 0 3 frameEndPacket .last) hexec
    (by simp [frameEnd_writes, pantryStream_writes]) hcores

/-- Refutes O32: the deadline of a position of a stream in Pantry mode, whose core runs a kernel, changes that core: it
holds the status word of the hole until its cycle ends (06 R223). -/
theorem not_streamPositions : ¬ Obligations.StreamPositions := by
  unfold Obligations.StreamPositions
  intro h
  obtain ⟨-, deadline, -⟩ := h.1 pantryStream 0 0 (pantryStream.hw.hole 0 0 0) (by decide +kernel) (by decide +kernel)
    (by decide +kernel)
  obtain ⟨t, hexec, hcores, -⟩ := deadline (by decide +kernel) (by decide +kernel) (by decide +kernel)
    (by decide +kernel)
  exact State.cores_ne_of_writes (p := 0) (f := fun e => e.positionDeadline 0) hexec
    (by simp [positionDeadline_writes, pantryStream_writes]) hcores

end Sys2Proof.Machine
end
